-- ==== Sys2Proof/Word.lean ====
section
/-! DEFINITION. The plain data types of the DV9 (R1): bytes, words, dwords, and bit ranges of a natural number. -/

namespace Sys2Proof

/-- A dword, the width of a scalar register (R1, R57). -/
abbrev Word := BitVec 64

/-- A byte (R1). -/
abbrev Byte := BitVec 8

/-- Bits `[lo + n - 1 : lo]` of `w` (R2). -/
def bits (w lo n : Nat) : Nat := w / 2 ^ lo % 2 ^ n

/-- Bit `i` of `w` (R2). -/
def bit (w i : Nat) : Bool := w / 2 ^ i % 2 == 1

end Sys2Proof
end

