-- ==== Sys2Proof/Config.lean ====
section
/-! DEFINITION. What one DV9 fixes: its capacities (R14, R22, R345, R353) and the values the spec leaves open, as constants
without a body, so that no proof can see which value they have. -/

namespace Sys2Proof.Config

/-- An undefined byte (R5): of seed `n`, at place `k`. A free value. -/
opaque freeByte : Nat → Nat → Byte

/-- An undefined number (R5), for a choice of seed `n`. A free value. -/
opaque freeNat : Nat → Nat

/-- The length of the lease a home grants (R231): the home's choice, cut to 512 ns by the operation that uses it. A free value. -/
opaque leaseLength : Nat → Nat

/-- A byte of an encrypted page read under another key than it was written under (R360). A free value of the reading key, the
key it was written under, the address and the byte stored. -/
opaque cipherByte : Nat → Nat → Nat → Byte → Byte

/-- Whether a firmware signature verifies under the root key (R389). -/
opaque rsaVerify : Nat → Nat → Bool

/-- The SHA-256 summary of the measured items (R361). -/
opaque measurementHash : List Nat → Nat

/-- A signature of the device's identity key (R390). -/
opaque spdmSign : Nat → Nat → Nat

/-- The certificate chain of the device (R390). -/
opaque certificate : Nat → Nat

/-- The device's public value of an ECDHE exchange on secp384r1 (R390), of a seed. -/
opaque ecdhPublic : Nat → Nat

/-- The session key that an exchange gives (R390): of the seed of the device's own value, and the peer's public value. -/
opaque ecdhKey : Nat → Nat → Nat

/-- What the peer's FINISH proves of a session key (R390). -/
opaque finishData : Nat → Nat

/-- An answer of a session under AES-256-GCM (R390): of its key, the number of the answer, and the answer. -/
opaque aesGcm : Nat → Nat → List Nat → List Nat


/-- Places beyond the first of a partition's queue of collectives, whose length R225 leaves open: free. -/
opaque collQueueMore : Nat

/-- Places of a partition's queue of collectives (R225): at least one. -/
def collQueue : Nat := collQueueMore + 1

/-- Clusters of the device (R11). -/
def clusters : Nat := 128
/-- Row contexts of a cluster (R14). -/
def contexts : Nat := 16
/-- Bytes of a core SRAM (R14). -/
def sramBytes : Nat := 2 ^ 22
/-- Bytes of an instruction scratchpad (R14). -/
def spadBytes : Nat := 2 ^ 19
/-- Bytes of HBM (R22, R346). -/
def hbmBytes : Nat := 2 ^ 39
/-- Store buffer bytes of a lane (R14, R36). -/
def storeBuffer : Nat := 2048
/-- Entries of a stream queue (R208). -/
def streamDepth : Nat := 64
/-- Entries of the fault queue of a die (R308). -/
def faultQueue : Nat := 256
/-- BAREXIT_SPACING in ns (R293). -/
def barExitSpacing : Nat := 32
/-- Entries of a cluster TLB and of a die TLB (R353). -/
def tlbCluster : Nat := 256
/-- Entries of a die TLB (R353). -/
def tlbDie : Nat := 8192
/-- DVID (R23). -/
def dvid : Word := 0x0000000024000100

end Sys2Proof.Config
end

