-- ==== Sys2Proof/Syntax.lean ====
section
/-! DEFINITION. The instructions and device events of the DV9: one constructor of `Instr` for each row of the
operation table (R91 to R102 for the words, spec/95 for the events), and the types of their operands. -/

namespace Sys2Proof

/-- A register field (R89): a scalar register x0 to x31 or a vector register v0 to v31. -/
abbrev Reg := Fin 32

/-- A mask field (R90): 0 names m0, 1 to 7 name m1 to m7. -/
abbrev MaskReg := Fin 8

/-- A completion flag cf0 to cf11 (R32). -/
abbrev FlagNo := Fin 12

/-- A flag number is its own code; 12 and above are reserved (R99). -/
def FlagNo.ofCode (n : Nat) : Option FlagNo := if h : n < 12 then some ⟨n, h⟩ else none

/-- The code of a flag number. -/
def FlagNo.code (n : FlagNo) : Nat := n.val

/-- A scope (R93, R226). -/
inductive Scope where
  /-- The thread alone. -/
  | vp
  /-- The row. -/
  | row
  /-- The cluster. -/
  | clu
  /-- The die. -/
  | die
  /-- The device and the host. -/
  | dev
  /-- Every device of the span. -/
  | dom
deriving DecidableEq, Repr

/-- The code of a `Scope`. -/
def Scope.code : Scope → Nat
  | .vp => 0
  | .row => 1
  | .clu => 2
  | .die => 3
  | .dev => 4
  | .dom => 5

/-- The `Scope` a code names; none for a reserved code. -/
def Scope.ofCode : Nat → Option Scope
  | 0 => some .vp
  | 1 => some .row
  | 2 => some .clu
  | 3 => some .die
  | 4 => some .dev
  | 5 => some .dom
  | _ => none

/-- An ordering (R93, R235). -/
inductive Order where
  /-- No ordering. -/
  | rlx
  /-- Acquire. -/
  | acq
  /-- Release. -/
  | rel
  /-- Both. -/
  | ar
deriving DecidableEq, Repr

/-- The code of a `Order`. -/
def Order.code : Order → Nat
  | .rlx => 0
  | .acq => 1
  | .rel => 2
  | .ar => 3

/-- The `Order` a code names; none for a reserved code. -/
def Order.ofCode : Nat → Option Order
  | 0 => some .rlx
  | 1 => some .acq
  | 2 => some .rel
  | 3 => some .ar
  | _ => none

/-- An atomic operation (R91, R127). -/
inductive AmoOp where
  /-- `add` of R127. -/
  | add
  /-- `and` of R127. -/
  | and
  /-- `or` of R127. -/
  | or
  /-- `xor` of R127. -/
  | xor
  /-- `minS` of R127. -/
  | minS
  /-- `minN` of R127. -/
  | minN
  /-- `maxS` of R127. -/
  | maxS
  /-- `maxN` of R127. -/
  | maxN
  /-- `swap` of R127. -/
  | swap
  /-- `cas` of R127. -/
  | cas
  /-- `fadd` of R127. -/
  | fadd
deriving DecidableEq, Repr

/-- The code of a `AmoOp`. -/
def AmoOp.code : AmoOp → Nat
  | .add => 0
  | .and => 1
  | .or => 2
  | .xor => 3
  | .minS => 4
  | .minN => 5
  | .maxS => 6
  | .maxN => 7
  | .swap => 8
  | .cas => 9
  | .fadd => 10

/-- The `AmoOp` a code names; none for a reserved code. -/
def AmoOp.ofCode : Nat → Option AmoOp
  | 0 => some .add
  | 1 => some .and
  | 2 => some .or
  | 3 => some .xor
  | 4 => some .minS
  | 5 => some .minN
  | 6 => some .maxS
  | 7 => some .maxN
  | 8 => some .swap
  | 9 => some .cas
  | 10 => some .fadd
  | _ => none

/-- The operation and width of a `ramo`: fn[4:0] as in `amo` (R94). -/
structure AmoSel where
  /-- The operation. -/
  op : AmoOp
  /-- True for word width. -/
  word : Bool
deriving DecidableEq, Repr

/-- The five-bit code of a `ramo` operation. -/
def AmoSel.code (a : AmoSel) : Nat := a.op.code + (if a.word then 16 else 0)

/-- The `ramo` operation a code names; the codes R93 reserves name none. -/
def AmoSel.ofCode (n : Nat) : Option AmoSel :=
  if n = 10 then none else (AmoOp.ofCode (n % 16)).map (fun o => ⟨o, 16 ≤ n⟩)

/-- A storage format (R96). -/
inductive Fmt where
  /-- `native`. -/
  | native
  /-- `i8`. -/
  | i8
  /-- `i16`. -/
  | i16
  /-- `i32`. -/
  | i32
  /-- `i64`. -/
  | i64
  /-- `i4`. -/
  | i4
  /-- `b1`. -/
  | b1
  /-- `fp16`. -/
  | fp16
  /-- `bf16`. -/
  | bf16
  /-- `f32`. -/
  | f32
  /-- `e4m3`. -/
  | e4m3
  /-- `e5m2`. -/
  | e5m2
  /-- `fp4b`. -/
  | fp4b
  /-- `e4m3b`. -/
  | e4m3b
  /-- `q4l`. -/
  | q4l
deriving DecidableEq, Repr

/-- The code of a `Fmt`. -/
def Fmt.code : Fmt → Nat
  | .native => 0
  | .i8 => 1
  | .i16 => 2
  | .i32 => 3
  | .i64 => 4
  | .i4 => 5
  | .b1 => 6
  | .fp16 => 7
  | .bf16 => 8
  | .f32 => 9
  | .e4m3 => 10
  | .e5m2 => 11
  | .fp4b => 12
  | .e4m3b => 13
  | .q4l => 14

/-- The `Fmt` a code names; none for a reserved code. -/
def Fmt.ofCode : Nat → Option Fmt
  | 0 => some .native
  | 1 => some .i8
  | 2 => some .i16
  | 3 => some .i32
  | 4 => some .i64
  | 5 => some .i4
  | 6 => some .b1
  | 7 => some .fp16
  | 8 => some .bf16
  | 9 => some .f32
  | 10 => some .e4m3
  | 11 => some .e5m2
  | 12 => some .fp4b
  | 13 => some .e4m3b
  | 14 => some .q4l
  | _ => none

/-- A type tag (R66). -/
inductive Tag where
  /-- No tag. -/
  | none
  /-- 8-bit integer. -/
  | i8
  /-- 16-bit integer. -/
  | i16
  /-- 32-bit integer. -/
  | i32
  /-- 64-bit integer. -/
  | i64
  /-- bf16. -/
  | bf16
  /-- f32. -/
  | f32
  /-- Matrix-held. -/
  | macc
deriving DecidableEq, Repr

/-- The code of a `Tag`. -/
def Tag.code : Tag → Nat
  | .none => 0
  | .i8 => 1
  | .i16 => 2
  | .i32 => 3
  | .i64 => 4
  | .bf16 => 5
  | .f32 => 6
  | .macc => 8

/-- The `Tag` a code names; none for a reserved code. -/
def Tag.ofCode : Nat → Option Tag
  | 0 => some .none
  | 1 => some .i8
  | 2 => some .i16
  | 3 => some .i32
  | 4 => some .i64
  | 5 => some .bf16
  | 6 => some .f32
  | 8 => some .macc
  | _ => Option.none

/-- A rounding code of class UR (R98): FRM or a static mode. -/
inductive Rm where
  /-- The mode of FRM. -/
  | frm
  /-- RNE. -/
  | rne
  /-- RTZ. -/
  | rtz
  /-- RDN. -/
  | rdn
  /-- RUP. -/
  | rup
  /-- RMM. -/
  | rmm
deriving DecidableEq, Repr

/-- The code of a `Rm`. -/
def Rm.code : Rm → Nat
  | .frm => 0
  | .rne => 1
  | .rtz => 2
  | .rdn => 3
  | .rup => 4
  | .rmm => 5

/-- The `Rm` a code names; none for a reserved code. -/
def Rm.ofCode : Nat → Option Rm
  | 0 => some .frm
  | 1 => some .rne
  | 2 => some .rtz
  | 3 => some .rdn
  | 4 => some .rup
  | 5 => some .rmm
  | _ => none

/-- A progress class (R274). -/
inductive Cls where
  /-- Concurrent. -/
  | conc
  /-- Parallel. -/
  | par
  /-- Weakly parallel. -/
  | weak
deriving DecidableEq, Repr

/-- The code of a `Cls`. -/
def Cls.code : Cls → Nat
  | .conc => 0
  | .par => 1
  | .weak => 2

/-- The `Cls` a code names; none for a reserved code. -/
def Cls.ofCode : Nat → Option Cls
  | 0 => some .conc
  | 1 => some .par
  | 2 => some .weak
  | _ => none

/-- A publisher class of a watermark binding (R217). -/
inductive PubCls where
  /-- Concurrent threads. -/
  | conc
  /-- Parallel threads of the own team. -/
  | par
  /-- An outside agent. -/
  | outside
deriving DecidableEq, Repr

/-- The code of a `PubCls`. -/
def PubCls.code : PubCls → Nat
  | .conc => 0
  | .par => 1
  | .outside => 2

/-- The `PubCls` a code names; none for a reserved code. -/
def PubCls.ofCode : Nat → Option PubCls
  | 0 => some .conc
  | 1 => some .par
  | 2 => some .outside
  | _ => none

/-- A prefetch level (R94, R220). -/
inductive PfLvl where
  /-- The home L2 slices. -/
  | l2
  /-- The scalar L1. -/
  | l1
deriving DecidableEq, Repr

/-- The code of a `PfLvl`. -/
def PfLvl.code : PfLvl → Nat
  | .l2 => 0
  | .l1 => 1

/-- The `PfLvl` a code names; none for a reserved code. -/
def PfLvl.ofCode : Nat → Option PfLvl
  | 0 => some .l2
  | 1 => some .l1
  | _ => none

/-- The [15:11] operand of format V with its kind (R97). -/
inductive Src where
  /-- Kind 0: vector register. -/
  | vec (r : Reg)
  /-- Kind 1: scalar register, captured at the `vf`. -/
  | scal (r : Reg)
  /-- Kind 2: sign-extended immediate. -/
  | imm (i : BitVec 5)
  /-- Kind 3, [15:14] = 00: scalar bank. -/
  | bank (n : Fin 8)
  /-- Kind 3, [15:14] = 01: stream. -/
  | stream (n : Fin 8)
deriving DecidableEq, Repr

/-- A thread (R57, R309): the control thread of a row, a virtual processor of a row, or a handler thread. -/
inductive Tid where
  /-- The control thread of row `row`. -/
  | ctl (row : Nat)
  /-- Virtual processor `e` of row `row`. -/
  | vp (row e : Nat)
  /-- The handler thread in slot `h` of the device (cluster × 10 + slot). -/
  | hnd (h : Nat)
deriving DecidableEq, Repr

/-- A remote operation as it reaches this device (R222, R370, R371). -/
inductive RemoteReq where
  /-- Element bytes written at a virtual address of the partition whose GROUP is `group`; of each byte the bits of the mask, all but for an
  element smaller than a byte (R195). -/
  | put (group va : Nat) (mask : BitVec 8) (bytes : List (BitVec 8))
  /-- `n` bytes read. -/
  | get (group va n : Nat)
  /-- An atomic of R127: operation, width, operand, expected value. -/
  | amo (group va : Nat) (op : AmoOp) (word : Bool) (v exp : BitVec 64)
  /-- SNAPCTL command 3 of member `self`, whose BUDDY this device is (R376). -/
  | snap (group self : Nat)
deriving DecidableEq, Repr

/-- What a remote home answers (R222 to R224). -/
inductive RemoteAck where
  /-- The write of all elements is acknowledged with its GWCT. -/
  | put (gwct : Nat)
  /-- The bytes a get reads, in element order of the captured source. -/
  | get (bytes : List (BitVec 8))
  /-- The old value of an atomic and its GWCT. -/
  | amo (old : BitVec 64) (gwct : Nat)
  /-- The target-side access failed at flat element `f` (R222): the GWCT of the elements before it that were written, the bytes of those
  that were read. -/
  | fail (f gwct : Nat) (bytes : List (BitVec 8))
deriving DecidableEq, Repr

/-- One member's part in a collective (R372, R373): its SELF, its switch group, the descriptor it submitted, and its data. -/
structure Member where
  /-- Index of the member in the span. -/
  self : Nat
  /-- Number of its switch group (R369). -/
  group : Nat
  /-- Which of its accepted collectives of the GROUP it is, from 0 (R372). -/
  ordinal : Nat
  /-- OP, RED, TYPE, ROOT and COUNT of its descriptor. -/
  desc : List Nat
  /-- Its source elements as bit patterns of TYPE. -/
  data : List Nat
deriving DecidableEq, Repr

/-- A firmware image (R389). -/
structure FwImage where
  /-- The image's content, as a number. -/
  content : Nat
  /-- Its signature. -/
  signature : Nat
  /-- Its rollback number. -/
  rollback : Nat
deriving DecidableEq, Repr

/-- The instructions and events of the operation table, one constructor a row. The events carry no operand: their
arguments are an `EvArg`. -/
inductive Instr where
  /-- ADD (R115). -/
  | add (d : Reg) (a : Reg) (b : Reg)
  /-- SUB (R115). -/
  | sub (d : Reg) (a : Reg) (b : Reg)
  /-- AND (R115). -/
  | and (d : Reg) (a : Reg) (b : Reg)
  /-- OR (R115). -/
  | or (d : Reg) (a : Reg) (b : Reg)
  /-- XOR (R115). -/
  | xor (d : Reg) (a : Reg) (b : Reg)
  /-- SLL (R115). -/
  | sll (d : Reg) (a : Reg) (b : Reg)
  /-- SRL (R115). -/
  | srl (d : Reg) (a : Reg) (b : Reg)
  /-- SRA (R115). -/
  | sra (d : Reg) (a : Reg) (b : Reg)
  /-- MUL (R115). -/
  | mul (d : Reg) (a : Reg) (b : Reg)
  /-- MULH_S (R115). -/
  | mulhS (d : Reg) (a : Reg) (b : Reg)
  /-- MULH_N (R115). -/
  | mulhN (d : Reg) (a : Reg) (b : Reg)
  /-- DIV_S (R116). -/
  | divS (d : Reg) (a : Reg) (b : Reg)
  /-- DIV_N (R116). -/
  | divN (d : Reg) (a : Reg) (b : Reg)
  /-- REM_S (R116). -/
  | remS (d : Reg) (a : Reg) (b : Reg)
  /-- REM_N (R116). -/
  | remN (d : Reg) (a : Reg) (b : Reg)
  /-- SLT_S (R115). -/
  | sltS (d : Reg) (a : Reg) (b : Reg)
  /-- SLT_N (R115). -/
  | sltN (d : Reg) (a : Reg) (b : Reg)
  /-- MIN_S (R115). -/
  | minS (d : Reg) (a : Reg) (b : Reg)
  /-- MIN_N (R115). -/
  | minN (d : Reg) (a : Reg) (b : Reg)
  /-- MAX_S (R115). -/
  | maxS (d : Reg) (a : Reg) (b : Reg)
  /-- MAX_N (R115). -/
  | maxN (d : Reg) (a : Reg) (b : Reg)
  /-- CLZ (R115). -/
  | clz (d : Reg) (a : Reg)
  /-- CTZ (R115). -/
  | ctz (d : Reg) (a : Reg)
  /-- POP (R115). -/
  | pop (d : Reg) (a : Reg)
  /-- BSWAP (R115). -/
  | bswap (d : Reg) (a : Reg)
  /-- ADDI (R117). -/
  | addi (d : Reg) (a : Reg) (imm : BitVec 16)
  /-- ANDI (R117). -/
  | andi (d : Reg) (a : Reg) (imm : BitVec 16)
  /-- ORI (R117). -/
  | ori (d : Reg) (a : Reg) (imm : BitVec 16)
  /-- XORI (R117). -/
  | xori (d : Reg) (a : Reg) (imm : BitVec 16)
  /-- SLTI_S (R117). -/
  | sltiS (d : Reg) (a : Reg) (imm : BitVec 16)
  /-- SLLI (R117). -/
  | slli (d : Reg) (a : Reg) (n : BitVec 6)
  /-- SRLI (R117). -/
  | srli (d : Reg) (a : Reg) (n : BitVec 6)
  /-- SRAI (R117). -/
  | srai (d : Reg) (a : Reg) (n : BitVec 6)
  /-- LUI (R118). -/
  | lui (d : Reg) (disp : BitVec 21)
  /-- ADDPC (R118). -/
  | addpc (d : Reg) (disp : BitVec 21)
  /-- BEQ (R119). -/
  | beq (a : Reg) (b : Reg) (disp : BitVec 13)
  /-- BNE (R119). -/
  | bne (a : Reg) (b : Reg) (disp : BitVec 13)
  /-- BLT_S (R119). -/
  | bltS (a : Reg) (b : Reg) (disp : BitVec 13)
  /-- BGE_S (R119). -/
  | bgeS (a : Reg) (b : Reg) (disp : BitVec 13)
  /-- BLT_N (R119). -/
  | bltN (a : Reg) (b : Reg) (disp : BitVec 13)
  /-- BGE_N (R119). -/
  | bgeN (a : Reg) (b : Reg) (disp : BitVec 13)
  /-- JAL (R120). -/
  | jal (d : Reg) (disp : BitVec 21)
  /-- JALR (R120). -/
  | jalr (d : Reg) (a : Reg) (imm : BitVec 16)
  /-- CSRR (R121). -/
  | csrr (d : Reg) (csr : BitVec 14)
  /-- CSRW (R121). -/
  | csrw (csr : BitVec 14) (a : Reg)
  /-- CSRS (R121). -/
  | csrs (csr : BitVec 14) (a : Reg)
  /-- CSRC (R121). -/
  | csrc (csr : BitVec 14) (a : Reg)
  /-- LD_BS (R125). -/
  | ldBs (d : Reg) (a : Reg) (disp : BitVec 13)
  /-- LD_BN (R125). -/
  | ldBn (d : Reg) (a : Reg) (disp : BitVec 13)
  /-- LD_HS (R125). -/
  | ldHs (d : Reg) (a : Reg) (disp : BitVec 13)
  /-- LD_HN (R125). -/
  | ldHn (d : Reg) (a : Reg) (disp : BitVec 13)
  /-- LD_WS (R125). -/
  | ldWs (d : Reg) (a : Reg) (disp : BitVec 13)
  /-- LD_WN (R125). -/
  | ldWn (d : Reg) (a : Reg) (disp : BitVec 13)
  /-- LD_D (R125). -/
  | ldD (d : Reg) (a : Reg) (disp : BitVec 13)
  /-- ST_B (R126). -/
  | stB (d : Reg) (a : Reg) (disp : BitVec 13)
  /-- ST_H (R126). -/
  | stH (d : Reg) (a : Reg) (disp : BitVec 13)
  /-- ST_W (R126). -/
  | stW (d : Reg) (a : Reg) (disp : BitVec 13)
  /-- ST_D (R126). -/
  | stD (d : Reg) (a : Reg) (disp : BitVec 13)
  /-- AMO_ADD (R127). -/
  | amoAdd (d : Reg) (a : Reg) (b : Reg) (sc : Scope) (od : Order) (word : Bool)
  /-- AMO_AND (R127). -/
  | amoAnd (d : Reg) (a : Reg) (b : Reg) (sc : Scope) (od : Order) (word : Bool)
  /-- AMO_OR (R127). -/
  | amoOr (d : Reg) (a : Reg) (b : Reg) (sc : Scope) (od : Order) (word : Bool)
  /-- AMO_XOR (R127). -/
  | amoXor (d : Reg) (a : Reg) (b : Reg) (sc : Scope) (od : Order) (word : Bool)
  /-- AMO_MIN_S (R127). -/
  | amoMinS (d : Reg) (a : Reg) (b : Reg) (sc : Scope) (od : Order) (word : Bool)
  /-- AMO_MIN_N (R127). -/
  | amoMinN (d : Reg) (a : Reg) (b : Reg) (sc : Scope) (od : Order) (word : Bool)
  /-- AMO_MAX_S (R127). -/
  | amoMaxS (d : Reg) (a : Reg) (b : Reg) (sc : Scope) (od : Order) (word : Bool)
  /-- AMO_MAX_N (R127). -/
  | amoMaxN (d : Reg) (a : Reg) (b : Reg) (sc : Scope) (od : Order) (word : Bool)
  /-- AMO_SWAP (R127). -/
  | amoSwap (d : Reg) (a : Reg) (b : Reg) (sc : Scope) (od : Order) (word : Bool)
  /-- AMO_CAS (R127). -/
  | amoCas (d : Reg) (a : Reg) (b : Reg) (sc : Scope) (od : Order) (word : Bool)
  /-- AMO_FADD (R127). -/
  | amoFadd (d : Reg) (a : Reg) (b : Reg) (sc : Scope) (od : Order)
  /-- FENCE_ACQ (R129). -/
  | fenceAcq (sc : Scope)
  /-- FENCE_REL (R129). -/
  | fenceRel (sc : Scope)
  /-- FENCE_AR (R129). -/
  | fenceAr (sc : Scope)
  /-- SETVL (R131). -/
  | setvl (d : Reg) (a : Reg)
  /-- SETVLW (R132). -/
  | setvlw (d : Reg) (a : Reg) (w : Fin 4)
  /-- VCFG (R133). -/
  | vcfg (d : Reg) (ew : Fin 4) (g : Fin 4)
  /-- VTAGW (R134). -/
  | vtagw (d : Reg) (tag : Tag)
  /-- VTAGR (R135). -/
  | vtagr (d : Reg) (a : Reg)
  /-- VHWM (R135). -/
  | vhwm (d : Reg) (a : Reg)
  /-- VF (R137). -/
  | vf (disp : BitVec 21)
  /-- VF_D (R264). -/
  | vfD (disp : BitVec 21)
  /-- VJOIN (R46). -/
  | vjoin (d : Reg) (j : BitVec 8) (t : BitVec 8)
  /-- VJOIN_REG (R138). -/
  | vjoinReg (d : Reg) (j : BitVec 8) (t : Reg)
  /-- WAITF (R139). -/
  | waitf (flags : BitVec 12)
  /-- WAITC (R141). -/
  | waitc (cls : Fin 4) (n : BitVec 8)
  /-- QSEED (R142). -/
  | qseed (a : Reg)
  /-- QDRAIN (R143). -/
  | qdrain (d : Reg)
  /-- SBPUT (R144). -/
  | sbput (n : Fin 8) (a : Reg)
  /-- SBGET (R144). -/
  | sbget (d : Reg) (n : Fin 8)
  /-- MXON (R247). -/
  | mxon (zp : Bool) (band : Bool) (keep : Bool)
  /-- LAUNCH (R146). -/
  | launch (d : Reg) (a : Reg)
  /-- EVSIG (R147). -/
  | evsig (a : Reg)
  /-- EVWAIT (R147). -/
  | evwait (a : Reg)
  /-- VLD (R193). -/
  | vld (vd : Reg) (xb : Reg) (vx : Reg) (fmt : Fmt) (m : MaskReg)
  /-- VLDS (R193). -/
  | vlds (vd : Reg) (xb : Reg) (vx : Reg) (fmt : Fmt) (m : MaskReg)
  /-- VLDSEG (R193). -/
  | vldseg (vd : Reg) (xb : Reg) (vx : Reg) (fmt : Fmt) (m : MaskReg)
  /-- VLDX (R193). -/
  | vldx (vd : Reg) (xb : Reg) (vx : Reg) (fmt : Fmt) (m : MaskReg)
  /-- VFG (R205). -/
  | vfg (vd : Reg) (xb : Reg) (vx : Reg) (fmt : Fmt) (m : MaskReg)
  /-- VLDT (R207). -/
  | vldt (vd : Reg) (vr : Reg) (m : MaskReg)
  /-- VST (R197). -/
  | vst (vd : Reg) (xb : Reg) (vx : Reg) (fmt : Fmt) (m : MaskReg)
  /-- VSTS (R197). -/
  | vsts (vd : Reg) (xb : Reg) (vx : Reg) (fmt : Fmt) (m : MaskReg)
  /-- VSTSEG (R197). -/
  | vstseg (vd : Reg) (xb : Reg) (vx : Reg) (fmt : Fmt) (m : MaskReg)
  /-- VSTX (R203). -/
  | vstx (vd : Reg) (xb : Reg) (vx : Reg) (fmt : Fmt) (m : MaskReg)
  /-- VSTXA (R204). -/
  | vstxa (vd : Reg) (xb : Reg) (vx : Reg) (fmt : Fmt) (m : MaskReg)
  /-- VSTT (R207). -/
  | vstt (vd : Reg) (vr : Reg) (m : MaskReg)
  /-- SBIND (R208). -/
  | sbind (n : Fin 8) (a : Reg)
  /-- SBINDX (R209). -/
  | sbindx (n : Fin 8) (a : Reg) (vi : Reg)
  /-- SCLOSE (R212). -/
  | sclose (n : Fin 8)
  /-- CPY (R213). -/
  | cpy (d : Reg) (a : Reg)
  /-- CPYX (R214). -/
  | cpyx (d : Reg) (a : Reg) (vi : Reg)
  /-- WMPUB (R218). -/
  | wmpub (n : Fin 4) (a : Reg)
  /-- WMBIND (R217). -/
  | wmbind (n : Fin 4) (a : Reg) (cls : PubCls)
  /-- PFETCH (R220). -/
  | pfetch (a : Reg) (lvl : PfLvl)
  /-- CFLUSH (R221). -/
  | cflush (a : Reg)
  /-- RPUT (R223). -/
  | rput (d : Reg) (a : Reg)
  /-- RGET (R223). -/
  | rget (d : Reg) (a : Reg)
  /-- RAMO (R224). -/
  | ramo (d : Reg) (a : Reg) (b : Reg) (op : AmoSel) (od : Order)
  /-- COLL (R225). -/
  | coll (d : Reg) (a : Reg)
  /-- VADD (R154). -/
  | vadd (vd : Reg) (va : Reg) (src : Src) (m : MaskReg)
  /-- VSUB (R154). -/
  | vsub (vd : Reg) (va : Reg) (src : Src) (m : MaskReg)
  /-- VMUL (R154). -/
  | vmul (vd : Reg) (va : Reg) (src : Src) (m : MaskReg)
  /-- VMULH_S (R154). -/
  | vmulhS (vd : Reg) (va : Reg) (src : Src) (m : MaskReg)
  /-- VMULH_N (R154). -/
  | vmulhN (vd : Reg) (va : Reg) (src : Src) (m : MaskReg)
  /-- VMIN_S (R154). -/
  | vminS (vd : Reg) (va : Reg) (src : Src) (m : MaskReg)
  /-- VMIN_N (R154). -/
  | vminN (vd : Reg) (va : Reg) (src : Src) (m : MaskReg)
  /-- VMAX_S (R154). -/
  | vmaxS (vd : Reg) (va : Reg) (src : Src) (m : MaskReg)
  /-- VMAX_N (R154). -/
  | vmaxN (vd : Reg) (va : Reg) (src : Src) (m : MaskReg)
  /-- VAND (R154). -/
  | vand (vd : Reg) (va : Reg) (src : Src) (m : MaskReg)
  /-- VOR (R154). -/
  | vor (vd : Reg) (va : Reg) (src : Src) (m : MaskReg)
  /-- VXOR (R154). -/
  | vxor (vd : Reg) (va : Reg) (src : Src) (m : MaskReg)
  /-- VSLL (R154). -/
  | vsll (vd : Reg) (va : Reg) (src : Src) (m : MaskReg)
  /-- VSRL (R154). -/
  | vsrl (vd : Reg) (va : Reg) (src : Src) (m : MaskReg)
  /-- VSRA (R154). -/
  | vsra (vd : Reg) (va : Reg) (src : Src) (m : MaskReg)
  /-- VCLZ (R155). -/
  | vclz (vd : Reg) (src : Src) (m : MaskReg)
  /-- VPOP (R155). -/
  | vpop (vd : Reg) (src : Src) (m : MaskReg)
  /-- VABS (R155). -/
  | vabs (vd : Reg) (src : Src) (m : MaskReg)
  /-- VNEG (R155). -/
  | vneg (vd : Reg) (src : Src) (m : MaskReg)
  /-- VMV (R155). -/
  | vmv (vd : Reg) (src : Src) (m : MaskReg)
  /-- VSEL (R156). -/
  | vsel (vd : Reg) (va : Reg) (src : Src) (m : MaskReg)
  /-- VCMP_EQ (R157). -/
  | vcmpEq (md : MaskReg) (va : Reg) (src : Src) (m : MaskReg)
  /-- VCMP_NE (R157). -/
  | vcmpNe (md : MaskReg) (va : Reg) (src : Src) (m : MaskReg)
  /-- VCMP_LT_S (R157). -/
  | vcmpLtS (md : MaskReg) (va : Reg) (src : Src) (m : MaskReg)
  /-- VCMP_LT_N (R157). -/
  | vcmpLtN (md : MaskReg) (va : Reg) (src : Src) (m : MaskReg)
  /-- VCMP_LE_S (R157). -/
  | vcmpLeS (md : MaskReg) (va : Reg) (src : Src) (m : MaskReg)
  /-- VCMP_LE_N (R157). -/
  | vcmpLeN (md : MaskReg) (va : Reg) (src : Src) (m : MaskReg)
  /-- VIDX (R158). -/
  | vidx (vd : Reg) (m : MaskReg)
  /-- VIMM (R158). -/
  | vimm (vd : Reg) (imm : BitVec 10) (m : MaskReg)
  /-- VWMUL_S (R159). -/
  | vwmulS (vd : Reg) (va : Reg) (src : Src) (m : MaskReg)
  /-- VWMUL_N (R159). -/
  | vwmulN (vd : Reg) (va : Reg) (src : Src) (m : MaskReg)
  /-- VWMAC_S (R159). -/
  | vwmacS (vd : Reg) (va : Reg) (src : Src) (m : MaskReg)
  /-- VWMAC_N (R159). -/
  | vwmacN (vd : Reg) (va : Reg) (src : Src) (m : MaskReg)
  /-- VWMAC_SN (R159). -/
  | vwmacSn (vd : Reg) (va : Reg) (src : Src) (m : MaskReg)
  /-- VNSR (R160). -/
  | vnsr (vd : Reg) (va : Reg) (src : Src) (m : MaskReg)
  /-- VNSRA (R160). -/
  | vnsra (vd : Reg) (va : Reg) (src : Src) (m : MaskReg)
  /-- VSADD_S (R161). -/
  | vsaddS (vd : Reg) (va : Reg) (src : Src) (m : MaskReg)
  /-- VSADD_N (R161). -/
  | vsaddN (vd : Reg) (va : Reg) (src : Src) (m : MaskReg)
  /-- VSSUB_S (R161). -/
  | vssubS (vd : Reg) (va : Reg) (src : Src) (m : MaskReg)
  /-- VSSUB_N (R161). -/
  | vssubN (vd : Reg) (va : Reg) (src : Src) (m : MaskReg)
  /-- VAVG (R161). -/
  | vavg (vd : Reg) (va : Reg) (src : Src) (m : MaskReg)
  /-- VCVT (R162). -/
  | vcvt (vd : Reg) (rm : Rm) (vb : Reg) (m : MaskReg)
  /-- VRETAG (R163). -/
  | vretag (vd : Reg) (tag : Tag)
  /-- VFADD (R165). -/
  | vfadd (vd : Reg) (va : Reg) (src : Src) (m : MaskReg)
  /-- VFSUB (R165). -/
  | vfsub (vd : Reg) (va : Reg) (src : Src) (m : MaskReg)
  /-- VFMUL (R165). -/
  | vfmul (vd : Reg) (va : Reg) (src : Src) (m : MaskReg)
  /-- VFMA (R165). -/
  | vfma (vd : Reg) (va : Reg) (src : Src) (m : MaskReg)
  /-- VFMS (R165). -/
  | vfms (vd : Reg) (va : Reg) (src : Src) (m : MaskReg)
  /-- VFNMA (R165). -/
  | vfnma (vd : Reg) (va : Reg) (src : Src) (m : MaskReg)
  /-- VFMIN (R166). -/
  | vfmin (vd : Reg) (va : Reg) (src : Src) (m : MaskReg)
  /-- VFMAX (R166). -/
  | vfmax (vd : Reg) (va : Reg) (src : Src) (m : MaskReg)
  /-- VFDIV (R165). -/
  | vfdiv (vd : Reg) (va : Reg) (src : Src) (m : MaskReg)
  /-- VFSQRT (R167). -/
  | vfsqrt (vd : Reg) (rm : Rm) (vb : Reg) (m : MaskReg)
  /-- VFRCP (R167). -/
  | vfrcp (vd : Reg) (rm : Rm) (vb : Reg) (m : MaskReg)
  /-- VFRSQ (R167). -/
  | vfrsq (vd : Reg) (rm : Rm) (vb : Reg) (m : MaskReg)
  /-- VFEXP2 (R167). -/
  | vfexp2 (vd : Reg) (rm : Rm) (vb : Reg) (m : MaskReg)
  /-- VFCMP_EQ (R168). -/
  | vfcmpEq (md : MaskReg) (va : Reg) (src : Src) (m : MaskReg)
  /-- VFCMP_LT (R168). -/
  | vfcmpLt (md : MaskReg) (va : Reg) (src : Src) (m : MaskReg)
  /-- VFCMP_LE (R168). -/
  | vfcmpLe (md : MaskReg) (va : Reg) (src : Src) (m : MaskReg)
  /-- VFCLASS (R169). -/
  | vfclass (vd : Reg) (src : Src) (m : MaskReg)
  /-- VFSGNJ (R170). -/
  | vfsgnj (vd : Reg) (va : Reg) (src : Src) (m : MaskReg)
  /-- MAND (R171). -/
  | mand (md : MaskReg) (ma : MaskReg) (mb : MaskReg)
  /-- MOR (R171). -/
  | mor (md : MaskReg) (ma : MaskReg) (mb : MaskReg)
  /-- MXOR (R171). -/
  | mxor (md : MaskReg) (ma : MaskReg) (mb : MaskReg)
  /-- MNOT (R171). -/
  | mnot (md : MaskReg) (ma : MaskReg)
  /-- MLIST (R172). -/
  | mlist (md : MaskReg)
  /-- MBITS (R172). -/
  | mbits (md : MaskReg)
  /-- MPOP (R173). -/
  | mpop (vd : Reg) (ma : MaskReg)
  /-- MFIRST (R173). -/
  | mfirst (vd : Reg) (ma : MaskReg)
  /-- VPOPX (R174). -/
  | vpopx (vd : Reg) (src : Src) (m : MaskReg)
  /-- VXSECT (R175). -/
  | vxsect (vd : Reg) (va : Reg) (src : Src) (m : MaskReg)
  /-- VSEGL (R176). -/
  | vsegl (vd : Reg) (src : Src) (m : MaskReg)
  /-- VSLUP (R177). -/
  | vslup (vd : Reg) (va : Reg) (src : Src) (m : MaskReg)
  /-- VSLDN (R177). -/
  | vsldn (vd : Reg) (va : Reg) (src : Src) (m : MaskReg)
  /-- VPERM (R178). -/
  | vperm (vd : Reg) (va : Reg) (src : Src) (m : MaskReg)
  /-- VCOMPRESS (R179). -/
  | vcompress (vd : Reg) (va : Reg) (m : MaskReg)
  /-- VEXPAND (R179). -/
  | vexpand (vd : Reg) (va : Reg) (m : MaskReg)
  /-- VMATCH (R180). -/
  | vmatch (vd : Reg) (va : Reg) (src : Src) (m : MaskReg)
  /-- VREDSUM (R181). -/
  | vredsum (vd : Reg) (va : Reg) (src : Src) (m : MaskReg)
  /-- VREDMAX (R181). -/
  | vredmax (vd : Reg) (va : Reg) (src : Src) (m : MaskReg)
  /-- VREDMIN (R181). -/
  | vredmin (vd : Reg) (va : Reg) (src : Src) (m : MaskReg)
  /-- VSCAN (R182). -/
  | vscan (vd : Reg) (src : Src) (m : MaskReg)
  /-- QSWP_H (R183). -/
  | qswpH (vd : Reg) (vs : Reg) (m : MaskReg)
  /-- QSWP_V (R183). -/
  | qswpV (vd : Reg) (vs : Reg) (m : MaskReg)
  /-- QSWP_D (R183). -/
  | qswpD (vd : Reg) (vs : Reg) (m : MaskReg)
  /-- QBC (R184). -/
  | qbc (vd : Reg) (va : Reg) (sel : BitVec 5) (m : MaskReg)
  /-- QSND (R185). -/
  | qsnd (src : Src) (m : MaskReg)
  /-- QRCV (R185). -/
  | qrcv (vd : Reg) (m : MaskReg)
  /-- TF (R186). -/
  | tf (disp : BitVec 15)
  /-- TFC (R186). -/
  | tfc (disp : BitVec 15) (m : MaskReg)
  /-- TSETF (R188). -/
  | tsetf (n : FlagNo)
  /-- VPLD (R189). -/
  | vpld (vd : Reg) (va : Reg) (src : Src) (m : MaskReg)
  /-- VPST (R190). -/
  | vpst (vd : Reg) (va : Reg) (src : Src) (m : MaskReg)
  /-- VPAMO (R191). -/
  | vpamo (vd : Reg) (va : Reg) (op : AmoOp) (sc : Scope) (od : Order) (m : MaskReg)
  /-- MLAT (R255). -/
  | mlat (side : Bool) (half : Bool) (xa : Reg) (xs : Reg) (fmt : Fmt)
  /-- MLATG (R256). -/
  | mlatg (half : Bool) (xa : Reg) (vi : Reg) (fmt : Fmt)
  /-- MLATV (R257). -/
  | mlatv (side : Bool) (half : Bool) (vs : Reg)
  /-- MLUT (R258). -/
  | mlut (vc : Reg)
  /-- MOP (R259). -/
  | mop (ha : Bool) (hb : Bool) (k : BitVec 7)
  /-- MOPZ (R259). -/
  | mopz (ha : Bool) (hb : Bool) (k : BitVec 7)
  /-- MBAND (R258). -/
  | mband (side : Bool) (vs : Reg)
  /-- MDRAIN (R265). -/
  | mdrain (n : BitVec 6)
  /-- MDRAIN_SZ (R266). -/
  | mdrainSz (vs : Reg) (vz : Reg) (n : BitVec 6)
  /-- MROW (R267). -/
  | mrow (n : BitVec 6)
  /-- MSTAT (R268). -/
  | mstat (d : Reg)
  /-- BAR_INIT (R288). -/
  | barInit (a : Reg) (b : Reg) (cls : Cls)
  /-- BAR_ARRIVE (R289). -/
  | barArrive (a : Reg)
  /-- BAR_ARRIVE_CAP (R290). -/
  | barArriveCap (a : Reg) (k : Fin 4)
  /-- BAR_WAIT (R291). -/
  | barWait (a : Reg)
  /-- BAR_BYTES (R292). -/
  | barBytes (a : Reg) (b : Reg)
  /-- LKACQ (R295). -/
  | lkacq (d : Reg) (a : Reg) (cls : Cls)
  /-- LKREL (R296). -/
  | lkrel (a : Reg)
  /-- WAITM (R298). -/
  | waitm (d : Reg) (a : Reg) (b : Reg) (cls : Cls)
  /-- CVINIT (R299). -/
  | cvinit (n : Fin 8) (a : Reg) (b : Reg) (cls : Cls)
  /-- CVSIGN (R300). -/
  | cvsign (n : Fin 8)
  /-- CLSQ (R302). -/
  | clsq (d : Reg) (a : Reg)
  /-- FSNAP (R314). -/
  | fsnap (d : Reg) (k : Fin 4)
  /-- FRDX (R315). -/
  | frdx (d : Reg) (k : Fin 4) (n : Reg)
  /-- FWRX (R315). -/
  | fwrx (d : Reg) (k : Fin 4) (n : Reg)
  /-- FRDV (R317). -/
  | frdv (d : Reg) (k : Fin 4) (n : Reg)
  /-- FWRV (R318). -/
  | fwrv (d : Reg) (k : Fin 4) (n : Reg)
  /-- FRDM (R317). -/
  | frdm (d : Reg) (k : Fin 4) (n : Reg)
  /-- FRESUME (R319). -/
  | fresume (k : Fin 4)
  /-- FRESUME_T (R319). -/
  | fresumeT (k : Fin 4)
  /-- FKILL (R321). -/
  | fkill (k : Fin 4)
  /-- FSTEP (R320). -/
  | fstep (k : Fin 4)
  /-- CAPDROP (R322). -/
  | capdrop (k : Fin 4)
  /-- ECALL (R122). -/
  | ecall
  /-- EBREAK (R122). -/
  | ebreak
  /-- YIELD (R123). -/
  | yield
  /-- HALT (R124). -/
  | halt
  /-- FENCE_OV (R130). -/
  | fenceOv
  /-- VCOMMIT (R136). -/
  | vcommit
  /-- MXOFF (R249). -/
  | mxoff
  /-- TSTOP (R187). -/
  | tstop
  /-- MZERO (R263). -/
  | mzero
  /-- MFOLD (R262). -/
  | mfold
  /-- HDONE (R322). -/
  | hdone
  /-- ESCAPEMENT_TICK (R13). -/
  | escapementTick
  /-- VF_BLOCK_START (R31). -/
  | vfBlockStart
  /-- VECTOR_SEQUENCER_CYCLE (R53). -/
  | vectorSequencerCycle
  /-- TF_HELD_ELEMENT_RELEASE (R41). -/
  | tfHeldElementRelease
  /-- TFFULL_TIMEOUT (R41). -/
  | tffullTimeout
  /-- REGROUPING (R42). -/
  | regrouping
  /-- VJOIN_ARRIVAL (R46). -/
  | vjoinArrival
  /-- VJOIN_TIMEOUT (R46). -/
  | vjoinTimeout
  /-- THREAD_QUEUE_STALL_RELEASE (R50). -/
  | threadQueueStallRelease
  /-- QUAD_EXCHANGE_THREAD_COMPLETE (R52). -/
  | quadExchangeThreadComplete
  /-- OPERATION_COMPLETE (R32). -/
  | operationComplete
  /-- HOME_WRITE_APPLY (R232). -/
  | homeWriteApply
  /-- BAREXIT_GROUP_READY (R293). -/
  | barexitGroupReady
  /-- BYTE_LANDS (R242). -/
  | byteLands
  /-- EVWAIT_GRANT (R147). -/
  | evwaitGrant
  /-- SETVLW_RELEASE (R132). -/
  | setvlwRelease
  /-- WMPUB_PERFORM (R218). -/
  | wmpubPerform
  /-- FENCE_RELEASE_STALL_END (R234). -/
  | fenceReleaseStallEnd
  /-- STREAM_ENTRY_FETCH (R208). -/
  | streamEntryFetch
  /-- GATHER_UNIT_REQUEST (R356). -/
  | gatherUnitRequest
  /-- VFG_COMPLETE (R206). -/
  | vfgComplete
  /-- ENGINE_OP_COMPLETE (R215). -/
  | engineOpComplete
  /-- ENGINE_ASYNC_FAULT (R216). -/
  | engineAsyncFault
  /-- PAGE_WALK_COMPLETE (R353). -/
  | pageWalkComplete
  /-- MATRIX_UNIT_GRANT (R246). -/
  | matrixUnitGrant
  /-- MATRIX_OP_START (R251). -/
  | matrixOpStart
  /-- MATRIX_OP_COMPLETE (R270). -/
  | matrixOpComplete
  /-- HANDLER_SPAWN (R309). -/
  | handlerSpawn
  /-- FAULT_QUEUE_ENTRY_FREE (R308). -/
  | faultQueueEntryFree
  /-- PREEMPTION_REQUEST (R326). -/
  | preemptionRequest
  /-- PREEMPT_STRIP_TIMEOUT (R326). -/
  | preemptStripTimeout
  /-- ROW_RESUME (R340). -/
  | rowResume
  /-- SCALAR_ISSUE_CYCLE (R342). -/
  | scalarIssueCycle
  /-- STARVE_PROMOTION (R282). -/
  | starvePromotion
  /-- PROMOTION_END (R282). -/
  | promotionEnd
  /-- PROMOTED_ROW_PLACEMENT (R343). -/
  | promotedRowPlacement
  /-- LANE_RETIREMENT (R16). -/
  | laneRetirement
  /-- IN_FIELD_TEST (R378). -/
  | inFieldTest
  /-- HOST_DOORBELL (R331). -/
  | hostDoorbell
  /-- LAUNCH_START (R335). -/
  | launchStart
  /-- LAUNCH_ENGINE_SELECTION (R336). -/
  | launchEngineSelection
  /-- TEAM_BLOCKING_TIMEOUT (R336). -/
  | teamBlockingTimeout
  /-- COMPLETION_RECORD_WRITE (R341). -/
  | completionRecordWrite
  /-- HOST_MEM_READ (R363). -/
  | hostMemRead
  /-- HOST_MEM_WRITE (R363). -/
  | hostMemWrite
  /-- REMOTE_REQUEST_ARRIVAL (R370). -/
  | remoteRequestArrival
  /-- REMOTE_ACKNOWLEDGEMENT (R223). -/
  | remoteAcknowledgement
  /-- REMOTE_OP_TIMEOUT (R371). -/
  | remoteOpTimeout
  /-- COLLECTIVE_COMPLETE (R373). -/
  | collectiveComplete
  /-- DEVICE_FAILURE_DETECTED (R377). -/
  | deviceFailureDetected
  /-- TLBINV_PAGE (R354). -/
  | tlbinvPage
  /-- TLBINV_ALL (R354). -/
  | tlbinvAll
  /-- TLBINV_FLUSH (R354). -/
  | tlbinvFlush
  /-- TLB_INVALIDATION_COMPLETE (R355). -/
  | tlbInvalidationComplete
  /-- PARTITION_ENABLE (R366). -/
  | partitionEnable
  /-- PARTITION_DISABLE (R366). -/
  | partitionDisable
  /-- SNAPSHOT (R375). -/
  | snapshot
  /-- RESTORE_OWN (R375). -/
  | restoreOwn
  /-- RESTORE_BUDDY (R375). -/
  | restoreBuddy
  /-- CAPW_WRITE (R381). -/
  | capwWrite
  /-- CAPW_FORCE_WRITE (R382). -/
  | capwForceWrite
  /-- FLOORW_WRITE (R381). -/
  | floorwWrite
  /-- REGISTER_WRITE (R3). -/
  | registerWrite
  /-- POWER_CONTROL_TICK (R383). -/
  | powerControlTick
  /-- MATRIX_THROTTLE (R383). -/
  | matrixThrottle
  /-- IDLE_FLOOR_MEASURE (R380). -/
  | idleFloorMeasure
  /-- SENSOR_SAMPLE (R386). -/
  | sensorSample
  /-- CURRENT_SLEW_WINDOW (R384). -/
  | currentSlewWindow
  /-- PATROL_SCRUB (R359). -/
  | patrolScrub
  /-- FIRMWARE_UPDATE (R389). -/
  | firmwareUpdate
  /-- DEVICE_RESET (R389). -/
  | deviceReset
  /-- GET_VERSION (R390). -/
  | getVersion
  /-- GET_CAPABILITIES (R390). -/
  | getCapabilities
  /-- NEGOTIATE_ALGORITHMS (R390). -/
  | negotiateAlgorithms
  /-- GET_DIGESTS (R390). -/
  | getDigests
  /-- GET_CERTIFICATE (R390). -/
  | getCertificate
  /-- CHALLENGE (R390). -/
  | challenge
  /-- GET_MEASUREMENTS (R361). -/
  | getMeasurements
  /-- KEY_EXCHANGE (R390). -/
  | keyExchange
  /-- FINISH (R390). -/
  | finish
  /-- KEY_RELEASE (R361). -/
  | keyRelease
  /-- NON_INSTRUCTION_WORD (R104). -/
  | nonInstructionWord
  /-- PARTITION_CREATION (R360). -/
  | partitionCreation
  /-- PARTITION_DESTRUCTION (R361). -/
  | partitionDestruction
  /-- FELOK_LINK_REPLAY (R369). -/
  | felokLinkReplay
  /-- HEARTBEAT (R377). -/
  | heartbeat
  /-- PEER_SNAPSHOT_WRITE (R376). -/
  | peerSnapshotWrite
deriving DecidableEq, Repr

end Sys2Proof
end

