-- ==== Sys2Proof/WellFormed.lean ====
section
/-! DEFINITION. Fault codes (R304) and the operand rules of R104 step 4 that the operand types do not already carry: which
instruction terms the encoding rules admit. -/

namespace Sys2Proof

/-- The fault codes of R304. -/
inductive Code where
  | illop | wrongstream | priv | tagmix | threadlive | nostrip | tfdeny | tffull | ovlmiss | qempty | qover | misalign
  | pageflt | badshape | streamend | remoteflt | illwait | syncobj | notheld | ecall | brk | vown | capbad | badimage
  | step | memerr
deriving DecidableEq, Repr

/-- The number R304 gives a fault code. -/
def Code.num : Code → Nat
  | .illop => 1 | .wrongstream => 2 | .priv => 3 | .tagmix => 4 | .threadlive => 5 | .nostrip => 6 | .tfdeny => 7
  | .tffull => 8 | .ovlmiss => 9 | .qempty => 10 | .qover => 11 | .misalign => 12 | .pageflt => 13 | .badshape => 14
  | .streamend => 15 | .remoteflt => 16 | .illwait => 17 | .syncobj => 18 | .notheld => 19 | .ecall => 20 | .brk => 21
  | .vown => 22 | .capbad => 23 | .badimage => 24 | .step => 25 | .memerr => 26

/-- Formats a strided, segment, indexed or far-gather load admits (R194). -/
def Fmt.loadWide : Fmt → Bool
  | .i4 | .b1 | .fp4b | .e4m3b | .q4l => false
  | _ => true

/-- Formats a unit-stride store admits (R194). -/
def Fmt.storeUnit : Fmt → Bool
  | .fp4b | .e4m3b | .q4l => false
  | _ => true

/-- Formats the other store modes admit, vstxa apart (R194). -/
def Fmt.storeWide (f : Fmt) : Bool := f.loadWide

/-- Formats vstxa admits (R194). -/
def Fmt.storeAdd : Fmt → Bool
  | .native | .i32 | .i64 | .f32 => true
  | _ => false

/-- Formats a latch load admits (R100). -/
def Fmt.latch : Fmt → Bool
  | .i8 | .i4 | .fp16 | .bf16 | .e4m3 | .e5m2 | .fp4b | .e4m3b | .q4l => true
  | _ => false

/-- The operand is a vector register (kind 0). -/
def Src.isVec : Src → Bool
  | .vec _ => true
  | _ => false

/-- The operand is a stream. -/
def Src.isStream : Src → Bool
  | .stream _ => true
  | _ => false

/-- The program may write the tag (R66): macc is written by `mxon` only. -/
def Tag.writable : Tag → Bool
  | .macc => false
  | _ => true

/-- The number of fields field of a segment form (R95): 1 to 7. -/
def segOk (vx : Reg) : Bool := 1 ≤ vx.val && vx.val ≤ 7

/-- Step 4 of R104 beyond the codes the operand types already exclude. -/
def Instr.legal : Instr → Bool
  | .vtagw _ t => t.writable
  | .vretag _ t => t.writable
  | .ramo _ _ _ s _ => s.op != .fadd || s.word
  | .vld _ _ vx f _ => f == .q4l || vx == 0
  | .vlds _ _ _ f _ | .vldx _ _ _ f _ | .vfg _ _ _ f _ => f.loadWide
  | .vldseg _ _ vx f _ => f.loadWide && segOk vx
  | .vst _ _ vx f _ => f.storeUnit && vx == 0
  | .vsts _ _ _ f _ | .vstx _ _ _ f _ => f.storeWide
  | .vstseg _ _ vx f _ => f.storeWide && segOk vx
  | .vstxa _ _ _ f _ => f.storeAdd
  | .vcmpEq md _ _ _ | .vcmpNe md _ _ _ | .vcmpLtS md _ _ _ | .vcmpLtN md _ _ _ | .vcmpLeS md _ _ _ | .vcmpLeN md _ _ _
  | .vfcmpEq md _ _ _ | .vfcmpLt md _ _ _ | .vfcmpLe md _ _ _ => md != 0
  | .mand md _ _ | .mor md _ _ | .mxor md _ _ => md != 0
  | .mnot md _ => md != 0
  | .mlist md | .mbits md => md != 0
  | .vsel _ _ _ m => m != 0
  | .vslup _ _ s _ | .vsldn _ _ s _ => !s.isVec
  | .qbc _ _ i _ => i.toNat ≤ 3
  | .vpld _ _ s _ | .vpst _ _ s _ => !s.isStream
  | .mlat _ _ _ _ f => f.latch
  | .mlatg _ _ _ f => f.latch
  | .frdm _ _ n => 1 ≤ n.val && n.val ≤ 7
  | .vjoin .. | .vjoinReg .. => true
  | _ => true

/-- A well-formed instruction: one whose word passes step 4 of R104. -/
abbrev Instr.wellFormed (i : Instr) : Prop := i.legal = true

end Sys2Proof
end

