-- ==== Sys2Proof/Decode.lean ====
section
/-! DEFINITION. Decoding and encoding of the 32-bit instruction words (R89 to R102), the AIB header (R27), and the first
three tests of R104: reserved opcode, privilege, stream and mode (R103). `decodeWord` reads every word whose fixed bits
and enumerated fields are those of a row; the operand rules that remain in step 4 are `Instr.legal`. -/

namespace Sys2Proof

/-- A two-bit field at `lo`. -/
def fin4 (w lo : Nat) : Fin 4 := Fin.ofNat 4 (bits w lo 2)
/-- A three-bit field at `lo`. -/
def fin8 (w lo : Nat) : Fin 8 := Fin.ofNat 8 (bits w lo 3)
/-- A five-bit field at `lo`. -/
def fin32 (w lo : Nat) : Fin 32 := Fin.ofNat 32 (bits w lo 5)

/-- The [15:11] operand (R97): `k` the kind field, `f` the operand field. -/
def Src.ofBits (k f : Nat) : Option Src :=
  match k with
  | 0 => some (.vec (Fin.ofNat 32 f))
  | 1 => some (.scal (Fin.ofNat 32 f))
  | 2 => some (.imm (BitVec.ofNat 5 f))
  | _ => if f < 8 then some (.bank (Fin.ofNat 8 f))
         else if f < 16 then some (.stream (Fin.ofNat 8 (f - 8))) else none

/-- The kind field of an operand (R97). -/
def Src.kind : Src → Nat
  | .vec _ => 0 | .scal _ => 1 | .imm _ => 2 | .bank _ => 3 | .stream _ => 3

/-- The operand field of an operand (R97). -/
def Src.field : Src → Nat
  | .vec r => r.val | .scal r => r.val | .imm i => i.toNat | .bank n => n.val | .stream n => n.val + 8

/-- Words of major opcode 0x01 (R91). -/
def decodeOp01 (w : Nat) : Option Instr :=
  match bits w 0 11 with
  | 0 => some (.add (fin32 w 21) (fin32 w 16) (fin32 w 11))
  | 1 => some (.sub (fin32 w 21) (fin32 w 16) (fin32 w 11))
  | 2 => some (.and (fin32 w 21) (fin32 w 16) (fin32 w 11))
  | 3 => some (.or (fin32 w 21) (fin32 w 16) (fin32 w 11))
  | 4 => some (.xor (fin32 w 21) (fin32 w 16) (fin32 w 11))
  | 5 => some (.sll (fin32 w 21) (fin32 w 16) (fin32 w 11))
  | 6 => some (.srl (fin32 w 21) (fin32 w 16) (fin32 w 11))
  | 7 => some (.sra (fin32 w 21) (fin32 w 16) (fin32 w 11))
  | 8 => some (.mul (fin32 w 21) (fin32 w 16) (fin32 w 11))
  | 9 => some (.mulhS (fin32 w 21) (fin32 w 16) (fin32 w 11))
  | 10 => some (.mulhN (fin32 w 21) (fin32 w 16) (fin32 w 11))
  | 11 => some (.divS (fin32 w 21) (fin32 w 16) (fin32 w 11))
  | 12 => some (.divN (fin32 w 21) (fin32 w 16) (fin32 w 11))
  | 13 => some (.remS (fin32 w 21) (fin32 w 16) (fin32 w 11))
  | 14 => some (.remN (fin32 w 21) (fin32 w 16) (fin32 w 11))
  | 15 => some (.sltS (fin32 w 21) (fin32 w 16) (fin32 w 11))
  | 16 => some (.sltN (fin32 w 21) (fin32 w 16) (fin32 w 11))
  | 17 => some (.minS (fin32 w 21) (fin32 w 16) (fin32 w 11))
  | 18 => some (.minN (fin32 w 21) (fin32 w 16) (fin32 w 11))
  | 19 => some (.maxS (fin32 w 21) (fin32 w 16) (fin32 w 11))
  | 20 => some (.maxN (fin32 w 21) (fin32 w 16) (fin32 w 11))
  | 21 => if bits w 11 5 = 0 then some (.clz (fin32 w 21) (fin32 w 16)) else none
  | 22 => if bits w 11 5 = 0 then some (.ctz (fin32 w 21) (fin32 w 16)) else none
  | 23 => if bits w 11 5 = 0 then some (.pop (fin32 w 21) (fin32 w 16)) else none
  | 24 => if bits w 11 5 = 0 then some (.bswap (fin32 w 21) (fin32 w 16)) else none
  | _ => none

/-- Words of major opcode 0x02 (R91). -/
def decodeOp02 (w : Nat) : Option Instr :=
  some (.addi (fin32 w 21) (fin32 w 16) (BitVec.ofNat 16 (bits w 0 16)))

/-- Words of major opcode 0x03 (R91). -/
def decodeOp03 (w : Nat) : Option Instr :=
  some (.andi (fin32 w 21) (fin32 w 16) (BitVec.ofNat 16 (bits w 0 16)))

/-- Words of major opcode 0x04 (R91). -/
def decodeOp04 (w : Nat) : Option Instr :=
  some (.ori (fin32 w 21) (fin32 w 16) (BitVec.ofNat 16 (bits w 0 16)))

/-- Words of major opcode 0x05 (R91). -/
def decodeOp05 (w : Nat) : Option Instr :=
  some (.xori (fin32 w 21) (fin32 w 16) (BitVec.ofNat 16 (bits w 0 16)))

/-- Words of major opcode 0x06 (R91). -/
def decodeOp06 (w : Nat) : Option Instr :=
  some (.sltiS (fin32 w 21) (fin32 w 16) (BitVec.ofNat 16 (bits w 0 16)))

/-- Words of major opcode 0x07 (R91). -/
def decodeOp07 (w : Nat) : Option Instr :=
  match bits w 6 2 with
  | 0 => if bits w 8 8 = 0 then some (.slli (fin32 w 21) (fin32 w 16) (BitVec.ofNat 6 (bits w 0 6))) else none
  | 1 => if bits w 8 8 = 0 then some (.srli (fin32 w 21) (fin32 w 16) (BitVec.ofNat 6 (bits w 0 6))) else none
  | 2 => if bits w 8 8 = 0 then some (.srai (fin32 w 21) (fin32 w 16) (BitVec.ofNat 6 (bits w 0 6))) else none
  | _ => none

/-- Words of major opcode 0x08 (R91). -/
def decodeOp08 (w : Nat) : Option Instr :=
  some (.lui (fin32 w 21) (BitVec.ofNat 21 (bits w 0 21)))

/-- Words of major opcode 0x09 (R91). -/
def decodeOp09 (w : Nat) : Option Instr :=
  some (.addpc (fin32 w 21) (BitVec.ofNat 21 (bits w 0 21)))

/-- Words of major opcode 0x0A (R91). -/
def decodeOp0A (w : Nat) : Option Instr :=
  match bits w 13 3 with
  | 0 => some (.beq (fin32 w 21) (fin32 w 16) (BitVec.ofNat 13 (bits w 0 13)))
  | 1 => some (.bne (fin32 w 21) (fin32 w 16) (BitVec.ofNat 13 (bits w 0 13)))
  | 2 => some (.bltS (fin32 w 21) (fin32 w 16) (BitVec.ofNat 13 (bits w 0 13)))
  | 3 => some (.bgeS (fin32 w 21) (fin32 w 16) (BitVec.ofNat 13 (bits w 0 13)))
  | 4 => some (.bltN (fin32 w 21) (fin32 w 16) (BitVec.ofNat 13 (bits w 0 13)))
  | 5 => some (.bgeN (fin32 w 21) (fin32 w 16) (BitVec.ofNat 13 (bits w 0 13)))
  | _ => none

/-- Words of major opcode 0x0B (R91). -/
def decodeOp0B (w : Nat) : Option Instr :=
  some (.jal (fin32 w 21) (BitVec.ofNat 21 (bits w 0 21)))

/-- Words of major opcode 0x0C (R91). -/
def decodeOp0C (w : Nat) : Option Instr :=
  some (.jalr (fin32 w 21) (fin32 w 16) (BitVec.ofNat 16 (bits w 0 16)))

/-- Words of major opcode 0x0D (R91). -/
def decodeOp0D (w : Nat) : Option Instr :=
  match bits w 14 2 with
  | 0 => if bits w 16 5 = 0 then some (.csrr (fin32 w 21) (BitVec.ofNat 14 (bits w 0 14))) else none
  | 1 => if bits w 21 5 = 0 then some (.csrw (BitVec.ofNat 14 (bits w 0 14)) (fin32 w 16)) else none
  | 2 => if bits w 21 5 = 0 then some (.csrs (BitVec.ofNat 14 (bits w 0 14)) (fin32 w 16)) else none
  | 3 => if bits w 21 5 = 0 then some (.csrc (BitVec.ofNat 14 (bits w 0 14)) (fin32 w 16)) else none
  | _ => none

/-- Words of major opcode 0x0F (R91). -/
def decodeOp0F (w : Nat) : Option Instr :=
  match bits w 13 3 with
  | 0 => some (.ldBs (fin32 w 21) (fin32 w 16) (BitVec.ofNat 13 (bits w 0 13)))
  | 1 => some (.ldBn (fin32 w 21) (fin32 w 16) (BitVec.ofNat 13 (bits w 0 13)))
  | 2 => some (.ldHs (fin32 w 21) (fin32 w 16) (BitVec.ofNat 13 (bits w 0 13)))
  | 3 => some (.ldHn (fin32 w 21) (fin32 w 16) (BitVec.ofNat 13 (bits w 0 13)))
  | 4 => some (.ldWs (fin32 w 21) (fin32 w 16) (BitVec.ofNat 13 (bits w 0 13)))
  | 5 => some (.ldWn (fin32 w 21) (fin32 w 16) (BitVec.ofNat 13 (bits w 0 13)))
  | 6 => some (.ldD (fin32 w 21) (fin32 w 16) (BitVec.ofNat 13 (bits w 0 13)))
  | _ => none

/-- Words of major opcode 0x10 (R91). -/
def decodeOp10 (w : Nat) : Option Instr :=
  match bits w 13 3 with
  | 0 => some (.stB (fin32 w 21) (fin32 w 16) (BitVec.ofNat 13 (bits w 0 13)))
  | 1 => some (.stH (fin32 w 21) (fin32 w 16) (BitVec.ofNat 13 (bits w 0 13)))
  | 2 => some (.stW (fin32 w 21) (fin32 w 16) (BitVec.ofNat 13 (bits w 0 13)))
  | 3 => some (.stD (fin32 w 21) (fin32 w 16) (BitVec.ofNat 13 (bits w 0 13)))
  | _ => none

/-- Words of major opcode 0x11 (R91). -/
def decodeOp11 (w : Nat) : Option Instr :=
  match bits w 0 4 with
  | 0 => (Scope.ofCode (bits w 8 3)).bind fun sc => (Order.ofCode (bits w 5 3)).map fun od => .amoAdd (fin32 w 21) (fin32 w 16) (fin32 w 11) sc od (bit w 4)
  | 1 => (Scope.ofCode (bits w 8 3)).bind fun sc => (Order.ofCode (bits w 5 3)).map fun od => .amoAnd (fin32 w 21) (fin32 w 16) (fin32 w 11) sc od (bit w 4)
  | 2 => (Scope.ofCode (bits w 8 3)).bind fun sc => (Order.ofCode (bits w 5 3)).map fun od => .amoOr (fin32 w 21) (fin32 w 16) (fin32 w 11) sc od (bit w 4)
  | 3 => (Scope.ofCode (bits w 8 3)).bind fun sc => (Order.ofCode (bits w 5 3)).map fun od => .amoXor (fin32 w 21) (fin32 w 16) (fin32 w 11) sc od (bit w 4)
  | 4 => (Scope.ofCode (bits w 8 3)).bind fun sc => (Order.ofCode (bits w 5 3)).map fun od => .amoMinS (fin32 w 21) (fin32 w 16) (fin32 w 11) sc od (bit w 4)
  | 5 => (Scope.ofCode (bits w 8 3)).bind fun sc => (Order.ofCode (bits w 5 3)).map fun od => .amoMinN (fin32 w 21) (fin32 w 16) (fin32 w 11) sc od (bit w 4)
  | 6 => (Scope.ofCode (bits w 8 3)).bind fun sc => (Order.ofCode (bits w 5 3)).map fun od => .amoMaxS (fin32 w 21) (fin32 w 16) (fin32 w 11) sc od (bit w 4)
  | 7 => (Scope.ofCode (bits w 8 3)).bind fun sc => (Order.ofCode (bits w 5 3)).map fun od => .amoMaxN (fin32 w 21) (fin32 w 16) (fin32 w 11) sc od (bit w 4)
  | 8 => (Scope.ofCode (bits w 8 3)).bind fun sc => (Order.ofCode (bits w 5 3)).map fun od => .amoSwap (fin32 w 21) (fin32 w 16) (fin32 w 11) sc od (bit w 4)
  | 9 => (Scope.ofCode (bits w 8 3)).bind fun sc => (Order.ofCode (bits w 5 3)).map fun od => .amoCas (fin32 w 21) (fin32 w 16) (fin32 w 11) sc od (bit w 4)
  | 10 => if bits w 4 1 = 1 then (Scope.ofCode (bits w 8 3)).bind fun sc => (Order.ofCode (bits w 5 3)).map fun od => .amoFadd (fin32 w 21) (fin32 w 16) (fin32 w 11) sc od else none
  | _ => none

/-- Words of major opcode 0x12 (R91, R92). -/
def decodeOp12 (w : Nat) : Option Instr :=
  match bits w 0 8 with
  | 64 => if bits w 11 15 = 0 then (Scope.ofCode (bits w 8 3)).map fun sc => .fenceAcq sc else none
  | 128 => if bits w 11 15 = 0 then (Scope.ofCode (bits w 8 3)).map fun sc => .fenceRel sc else none
  | 192 => if bits w 11 15 = 0 then (Scope.ofCode (bits w 8 3)).map fun sc => .fenceAr sc else none
  | 1 => if bits w 8 18 = 0 then some (.fenceOv) else none
  | _ => none

/-- Words of major opcode 0x13 (R91). -/
def decodeOp13 (w : Nat) : Option Instr :=
  match bits w 17 4 with
  | 0 => if bits w 0 12 = 0 then some (.setvl (fin32 w 21) (fin32 w 12)) else none
  | 1 => if bits w 2 10 = 0 then some (.setvlw (fin32 w 21) (fin32 w 12) (fin4 w 0)) else none
  | 2 => if bits w 4 13 = 0 then some (.vcfg (fin32 w 21) (fin4 w 2) (fin4 w 0)) else none
  | 3 => if bits w 4 13 = 0 then (Tag.ofCode (bits w 0 4)).map fun tag => .vtagw (fin32 w 21) tag else none
  | 4 => if bits w 0 12 = 0 then some (.vtagr (fin32 w 21) (fin32 w 12)) else none
  | 5 => if bits w 0 12 = 0 then some (.vhwm (fin32 w 21) (fin32 w 12)) else none
  | 6 => if bits w 21 5 = 0 ∧ bits w 0 17 = 0 then some (.vcommit) else none
  | _ => none

/-- Words of major opcode 0x14 (R91). -/
def decodeOp14 (w : Nat) : Option Instr :=
  match bits w 21 5 with
  | 0 => some (.vf (BitVec.ofNat 21 (bits w 0 21)))
  | 1 => some (.vfD (BitVec.ofNat 21 (bits w 0 21)))
  | _ => none

/-- Words of major opcode 0x15 (R91). -/
def decodeOp15 (w : Nat) : Option Instr :=
  match bits w 17 4 with
  | 0 => if bits w 8 1 = 0 then some (.vjoin (fin32 w 21) (BitVec.ofNat 8 (bits w 9 8)) (BitVec.ofNat 8 (bits w 0 8))) else if bits w 5 4 = 8 then some (.vjoinReg (fin32 w 21) (BitVec.ofNat 8 (bits w 9 8)) (fin32 w 0)) else none
  | 1 => if bits w 21 5 = 0 ∧ bits w 12 5 = 0 then some (.waitf (BitVec.ofNat 12 (bits w 0 12))) else none
  | 2 => if bits w 21 5 = 0 ∧ bits w 10 7 = 0 then some (.waitc (fin4 w 8) (BitVec.ofNat 8 (bits w 0 8))) else none
  | 3 => if bits w 21 5 = 0 ∧ bits w 0 12 = 0 then some (.qseed (fin32 w 12)) else none
  | 4 => if bits w 0 17 = 0 then some (.qdrain (fin32 w 21)) else none
  | 5 => if bits w 21 5 = 0 ∧ bits w 3 9 = 0 then some (.sbput (fin8 w 0) (fin32 w 12)) else none
  | 6 => if bits w 3 14 = 0 then some (.sbget (fin32 w 21) (fin8 w 0)) else none
  | 7 => if bits w 21 5 = 0 ∧ bits w 3 14 = 0 then some (.mxon (bit w 2) (bit w 1) (bit w 0)) else none
  | 9 => if bits w 0 12 = 0 then some (.launch (fin32 w 21) (fin32 w 12)) else none
  | 10 => if bits w 21 5 = 0 ∧ bits w 0 12 = 0 then some (.evsig (fin32 w 12)) else none
  | 11 => if bits w 21 5 = 0 ∧ bits w 0 12 = 0 then some (.evwait (fin32 w 12)) else none
  | 8 => if bits w 21 5 = 0 ∧ bits w 0 17 = 0 then some (.mxoff) else none
  | _ => none

/-- Words of major opcode 0x16 (R91). -/
def decodeOp16 (w : Nat) : Option Instr :=
  match bits w 0 3 with
  | 0 => (Fmt.ofCode (bits w 6 5)).map fun fmt => .vld (fin32 w 21) (fin32 w 16) (fin32 w 11) fmt (fin8 w 3)
  | 1 => (Fmt.ofCode (bits w 6 5)).map fun fmt => .vlds (fin32 w 21) (fin32 w 16) (fin32 w 11) fmt (fin8 w 3)
  | 2 => (Fmt.ofCode (bits w 6 5)).map fun fmt => .vldseg (fin32 w 21) (fin32 w 16) (fin32 w 11) fmt (fin8 w 3)
  | 3 => (Fmt.ofCode (bits w 6 5)).map fun fmt => .vldx (fin32 w 21) (fin32 w 16) (fin32 w 11) fmt (fin8 w 3)
  | 4 => (Fmt.ofCode (bits w 6 5)).map fun fmt => .vfg (fin32 w 21) (fin32 w 16) (fin32 w 11) fmt (fin8 w 3)
  | 5 => if bits w 16 5 = 0 ∧ bits w 6 5 = 0 then some (.vldt (fin32 w 21) (fin32 w 11) (fin8 w 3)) else none
  | _ => none

/-- Words of major opcode 0x17 (R91). -/
def decodeOp17 (w : Nat) : Option Instr :=
  match bits w 0 3 with
  | 0 => (Fmt.ofCode (bits w 6 5)).map fun fmt => .vst (fin32 w 21) (fin32 w 16) (fin32 w 11) fmt (fin8 w 3)
  | 1 => (Fmt.ofCode (bits w 6 5)).map fun fmt => .vsts (fin32 w 21) (fin32 w 16) (fin32 w 11) fmt (fin8 w 3)
  | 2 => (Fmt.ofCode (bits w 6 5)).map fun fmt => .vstseg (fin32 w 21) (fin32 w 16) (fin32 w 11) fmt (fin8 w 3)
  | 3 => (Fmt.ofCode (bits w 6 5)).map fun fmt => .vstx (fin32 w 21) (fin32 w 16) (fin32 w 11) fmt (fin8 w 3)
  | 4 => (Fmt.ofCode (bits w 6 5)).map fun fmt => .vstxa (fin32 w 21) (fin32 w 16) (fin32 w 11) fmt (fin8 w 3)
  | 5 => if bits w 16 5 = 0 ∧ bits w 6 5 = 0 then some (.vstt (fin32 w 21) (fin32 w 11) (fin8 w 3)) else none
  | _ => none

/-- Words of major opcode 0x18 (R91). -/
def decodeOp18 (w : Nat) : Option Instr :=
  match bits w 17 4 with
  | 0 => if bits w 24 2 = 0 ∧ bits w 0 12 = 0 then some (.sbind (fin8 w 21) (fin32 w 12)) else none
  | 1 => if bits w 24 2 = 0 ∧ bits w 0 7 = 0 then some (.sbindx (fin8 w 21) (fin32 w 12) (fin32 w 7)) else none
  | 2 => if bits w 24 2 = 0 ∧ bits w 0 17 = 0 then some (.sclose (fin8 w 21)) else none
  | 3 => if bits w 0 12 = 0 then some (.cpy (fin32 w 21) (fin32 w 12)) else none
  | 4 => if bits w 0 7 = 0 then some (.cpyx (fin32 w 21) (fin32 w 12) (fin32 w 7)) else none
  | 5 => if bits w 23 3 = 0 ∧ bits w 0 12 = 0 then some (.wmpub (fin4 w 21) (fin32 w 12)) else none
  | 6 => if bits w 23 3 = 0 ∧ bits w 2 10 = 0 then (PubCls.ofCode (bits w 0 2)).map fun cls => .wmbind (fin4 w 21) (fin32 w 12) cls else none
  | 7 => if bits w 21 5 = 0 ∧ bits w 2 10 = 0 then (PfLvl.ofCode (bits w 0 2)).map fun lvl => .pfetch (fin32 w 12) lvl else none
  | 8 => if bits w 21 5 = 0 ∧ bits w 0 12 = 0 then some (.cflush (fin32 w 12)) else none
  | _ => none

/-- Words of major opcode 0x19 (R91). -/
def decodeOp19 (w : Nat) : Option Instr :=
  match bits w 17 4 with
  | 0 => if bits w 0 12 = 0 then some (.rput (fin32 w 21) (fin32 w 12)) else none
  | 1 => if bits w 0 12 = 0 then some (.rget (fin32 w 21) (fin32 w 12)) else none
  | 2 => (AmoSel.ofCode (bits w 2 5)).bind fun op => (Order.ofCode (bits w 0 2)).map fun od => .ramo (fin32 w 21) (fin32 w 12) (fin32 w 7) op od
  | 3 => if bits w 0 12 = 0 then some (.coll (fin32 w 21) (fin32 w 12)) else none
  | _ => none

/-- Words of major opcode 0x20 (R91). -/
def decodeOp20 (w : Nat) : Option Instr :=
  match bits w 0 6 with
  | 0 => (Src.ofBits (bits w 6 2) (bits w 11 5)).map fun src => .vadd (fin32 w 21) (fin32 w 16) src (fin8 w 8)
  | 1 => (Src.ofBits (bits w 6 2) (bits w 11 5)).map fun src => .vsub (fin32 w 21) (fin32 w 16) src (fin8 w 8)
  | 2 => (Src.ofBits (bits w 6 2) (bits w 11 5)).map fun src => .vmul (fin32 w 21) (fin32 w 16) src (fin8 w 8)
  | 3 => (Src.ofBits (bits w 6 2) (bits w 11 5)).map fun src => .vmulhS (fin32 w 21) (fin32 w 16) src (fin8 w 8)
  | 4 => (Src.ofBits (bits w 6 2) (bits w 11 5)).map fun src => .vmulhN (fin32 w 21) (fin32 w 16) src (fin8 w 8)
  | 5 => (Src.ofBits (bits w 6 2) (bits w 11 5)).map fun src => .vminS (fin32 w 21) (fin32 w 16) src (fin8 w 8)
  | 6 => (Src.ofBits (bits w 6 2) (bits w 11 5)).map fun src => .vminN (fin32 w 21) (fin32 w 16) src (fin8 w 8)
  | 7 => (Src.ofBits (bits w 6 2) (bits w 11 5)).map fun src => .vmaxS (fin32 w 21) (fin32 w 16) src (fin8 w 8)
  | 8 => (Src.ofBits (bits w 6 2) (bits w 11 5)).map fun src => .vmaxN (fin32 w 21) (fin32 w 16) src (fin8 w 8)
  | 9 => (Src.ofBits (bits w 6 2) (bits w 11 5)).map fun src => .vand (fin32 w 21) (fin32 w 16) src (fin8 w 8)
  | 10 => (Src.ofBits (bits w 6 2) (bits w 11 5)).map fun src => .vor (fin32 w 21) (fin32 w 16) src (fin8 w 8)
  | 11 => (Src.ofBits (bits w 6 2) (bits w 11 5)).map fun src => .vxor (fin32 w 21) (fin32 w 16) src (fin8 w 8)
  | 12 => (Src.ofBits (bits w 6 2) (bits w 11 5)).map fun src => .vsll (fin32 w 21) (fin32 w 16) src (fin8 w 8)
  | 13 => (Src.ofBits (bits w 6 2) (bits w 11 5)).map fun src => .vsrl (fin32 w 21) (fin32 w 16) src (fin8 w 8)
  | 14 => (Src.ofBits (bits w 6 2) (bits w 11 5)).map fun src => .vsra (fin32 w 21) (fin32 w 16) src (fin8 w 8)
  | 15 => if bits w 16 5 = 0 then (Src.ofBits (bits w 6 2) (bits w 11 5)).map fun src => .vclz (fin32 w 21) src (fin8 w 8) else none
  | 16 => if bits w 16 5 = 0 then (Src.ofBits (bits w 6 2) (bits w 11 5)).map fun src => .vpop (fin32 w 21) src (fin8 w 8) else none
  | 17 => if bits w 16 5 = 0 then (Src.ofBits (bits w 6 2) (bits w 11 5)).map fun src => .vabs (fin32 w 21) src (fin8 w 8) else none
  | 18 => if bits w 16 5 = 0 then (Src.ofBits (bits w 6 2) (bits w 11 5)).map fun src => .vneg (fin32 w 21) src (fin8 w 8) else none
  | 19 => if bits w 16 5 = 0 then (Src.ofBits (bits w 6 2) (bits w 11 5)).map fun src => .vmv (fin32 w 21) src (fin8 w 8) else none
  | 20 => (Src.ofBits (bits w 6 2) (bits w 11 5)).map fun src => .vsel (fin32 w 21) (fin32 w 16) src (fin8 w 8)
  | 21 => if bits w 24 2 = 0 then (Src.ofBits (bits w 6 2) (bits w 11 5)).map fun src => .vcmpEq (fin8 w 21) (fin32 w 16) src (fin8 w 8) else none
  | 22 => if bits w 24 2 = 0 then (Src.ofBits (bits w 6 2) (bits w 11 5)).map fun src => .vcmpNe (fin8 w 21) (fin32 w 16) src (fin8 w 8) else none
  | 23 => if bits w 24 2 = 0 then (Src.ofBits (bits w 6 2) (bits w 11 5)).map fun src => .vcmpLtS (fin8 w 21) (fin32 w 16) src (fin8 w 8) else none
  | 24 => if bits w 24 2 = 0 then (Src.ofBits (bits w 6 2) (bits w 11 5)).map fun src => .vcmpLtN (fin8 w 21) (fin32 w 16) src (fin8 w 8) else none
  | 25 => if bits w 24 2 = 0 then (Src.ofBits (bits w 6 2) (bits w 11 5)).map fun src => .vcmpLeS (fin8 w 21) (fin32 w 16) src (fin8 w 8) else none
  | 26 => if bits w 24 2 = 0 then (Src.ofBits (bits w 6 2) (bits w 11 5)).map fun src => .vcmpLeN (fin8 w 21) (fin32 w 16) src (fin8 w 8) else none
  | 27 => if bits w 11 10 = 0 ∧ bits w 6 2 = 0 then some (.vidx (fin32 w 21) (fin8 w 8)) else none
  | 28 => if bits w 6 2 = 2 then some (.vimm (fin32 w 21) (BitVec.ofNat 10 (bits w 11 10)) (fin8 w 8)) else none
  | _ => none

/-- Words of major opcode 0x21 (R91). -/
def decodeOp21 (w : Nat) : Option Instr :=
  match bits w 0 6 with
  | 0 => (Src.ofBits (bits w 6 2) (bits w 11 5)).map fun src => .vwmulS (fin32 w 21) (fin32 w 16) src (fin8 w 8)
  | 1 => (Src.ofBits (bits w 6 2) (bits w 11 5)).map fun src => .vwmulN (fin32 w 21) (fin32 w 16) src (fin8 w 8)
  | 2 => (Src.ofBits (bits w 6 2) (bits w 11 5)).map fun src => .vwmacS (fin32 w 21) (fin32 w 16) src (fin8 w 8)
  | 3 => (Src.ofBits (bits w 6 2) (bits w 11 5)).map fun src => .vwmacN (fin32 w 21) (fin32 w 16) src (fin8 w 8)
  | 4 => (Src.ofBits (bits w 6 2) (bits w 11 5)).map fun src => .vwmacSn (fin32 w 21) (fin32 w 16) src (fin8 w 8)
  | 5 => (Src.ofBits (bits w 6 2) (bits w 11 5)).map fun src => .vnsr (fin32 w 21) (fin32 w 16) src (fin8 w 8)
  | 6 => (Src.ofBits (bits w 6 2) (bits w 11 5)).map fun src => .vnsra (fin32 w 21) (fin32 w 16) src (fin8 w 8)
  | 7 => (Src.ofBits (bits w 6 2) (bits w 11 5)).map fun src => .vsaddS (fin32 w 21) (fin32 w 16) src (fin8 w 8)
  | 8 => (Src.ofBits (bits w 6 2) (bits w 11 5)).map fun src => .vsaddN (fin32 w 21) (fin32 w 16) src (fin8 w 8)
  | 9 => (Src.ofBits (bits w 6 2) (bits w 11 5)).map fun src => .vssubS (fin32 w 21) (fin32 w 16) src (fin8 w 8)
  | 10 => (Src.ofBits (bits w 6 2) (bits w 11 5)).map fun src => .vssubN (fin32 w 21) (fin32 w 16) src (fin8 w 8)
  | 11 => (Src.ofBits (bits w 6 2) (bits w 11 5)).map fun src => .vavg (fin32 w 21) (fin32 w 16) src (fin8 w 8)
  | 12 => if bits w 6 2 = 0 then (Rm.ofCode (bits w 16 5)).map fun rm => .vcvt (fin32 w 21) rm (fin32 w 11) (fin8 w 8) else none
  | 13 => if bits w 20 1 = 0 ∧ bits w 6 10 = 0 then (Tag.ofCode (bits w 16 4)).map fun tag => .vretag (fin32 w 21) tag else none
  | _ => none

/-- Words of major opcode 0x22 (R91). -/
def decodeOp22 (w : Nat) : Option Instr :=
  match bits w 0 6 with
  | 0 => (Src.ofBits (bits w 6 2) (bits w 11 5)).map fun src => .vfadd (fin32 w 21) (fin32 w 16) src (fin8 w 8)
  | 1 => (Src.ofBits (bits w 6 2) (bits w 11 5)).map fun src => .vfsub (fin32 w 21) (fin32 w 16) src (fin8 w 8)
  | 2 => (Src.ofBits (bits w 6 2) (bits w 11 5)).map fun src => .vfmul (fin32 w 21) (fin32 w 16) src (fin8 w 8)
  | 3 => (Src.ofBits (bits w 6 2) (bits w 11 5)).map fun src => .vfma (fin32 w 21) (fin32 w 16) src (fin8 w 8)
  | 4 => (Src.ofBits (bits w 6 2) (bits w 11 5)).map fun src => .vfms (fin32 w 21) (fin32 w 16) src (fin8 w 8)
  | 5 => (Src.ofBits (bits w 6 2) (bits w 11 5)).map fun src => .vfnma (fin32 w 21) (fin32 w 16) src (fin8 w 8)
  | 6 => (Src.ofBits (bits w 6 2) (bits w 11 5)).map fun src => .vfmin (fin32 w 21) (fin32 w 16) src (fin8 w 8)
  | 7 => (Src.ofBits (bits w 6 2) (bits w 11 5)).map fun src => .vfmax (fin32 w 21) (fin32 w 16) src (fin8 w 8)
  | 8 => (Src.ofBits (bits w 6 2) (bits w 11 5)).map fun src => .vfdiv (fin32 w 21) (fin32 w 16) src (fin8 w 8)
  | 9 => if bits w 6 2 = 0 then (Rm.ofCode (bits w 16 5)).map fun rm => .vfsqrt (fin32 w 21) rm (fin32 w 11) (fin8 w 8) else none
  | 10 => if bits w 6 2 = 0 then (Rm.ofCode (bits w 16 5)).map fun rm => .vfrcp (fin32 w 21) rm (fin32 w 11) (fin8 w 8) else none
  | 11 => if bits w 6 2 = 0 then (Rm.ofCode (bits w 16 5)).map fun rm => .vfrsq (fin32 w 21) rm (fin32 w 11) (fin8 w 8) else none
  | 12 => if bits w 6 2 = 0 then (Rm.ofCode (bits w 16 5)).map fun rm => .vfexp2 (fin32 w 21) rm (fin32 w 11) (fin8 w 8) else none
  | 13 => if bits w 24 2 = 0 then (Src.ofBits (bits w 6 2) (bits w 11 5)).map fun src => .vfcmpEq (fin8 w 21) (fin32 w 16) src (fin8 w 8) else none
  | 14 => if bits w 24 2 = 0 then (Src.ofBits (bits w 6 2) (bits w 11 5)).map fun src => .vfcmpLt (fin8 w 21) (fin32 w 16) src (fin8 w 8) else none
  | 15 => if bits w 24 2 = 0 then (Src.ofBits (bits w 6 2) (bits w 11 5)).map fun src => .vfcmpLe (fin8 w 21) (fin32 w 16) src (fin8 w 8) else none
  | 16 => if bits w 16 5 = 0 then (Src.ofBits (bits w 6 2) (bits w 11 5)).map fun src => .vfclass (fin32 w 21) src (fin8 w 8) else none
  | 17 => (Src.ofBits (bits w 6 2) (bits w 11 5)).map fun src => .vfsgnj (fin32 w 21) (fin32 w 16) src (fin8 w 8)
  | _ => none

/-- Words of major opcode 0x23 (R91). -/
def decodeOp23 (w : Nat) : Option Instr :=
  match bits w 0 6 with
  | 0 => if bits w 24 2 = 0 ∧ bits w 19 2 = 0 ∧ bits w 14 2 = 0 ∧ bits w 6 5 = 0 then some (.mand (fin8 w 21) (fin8 w 16) (fin8 w 11)) else none
  | 1 => if bits w 24 2 = 0 ∧ bits w 19 2 = 0 ∧ bits w 14 2 = 0 ∧ bits w 6 5 = 0 then some (.mor (fin8 w 21) (fin8 w 16) (fin8 w 11)) else none
  | 2 => if bits w 24 2 = 0 ∧ bits w 19 2 = 0 ∧ bits w 14 2 = 0 ∧ bits w 6 5 = 0 then some (.mxor (fin8 w 21) (fin8 w 16) (fin8 w 11)) else none
  | 3 => if bits w 24 2 = 0 ∧ bits w 19 2 = 0 ∧ bits w 6 10 = 0 then some (.mnot (fin8 w 21) (fin8 w 16)) else none
  | 4 => if bits w 24 2 = 0 ∧ bits w 6 15 = 0 then some (.mlist (fin8 w 21)) else none
  | 5 => if bits w 24 2 = 0 ∧ bits w 6 15 = 0 then some (.mbits (fin8 w 21)) else none
  | 6 => if bits w 19 2 = 0 ∧ bits w 6 10 = 0 then some (.mpop (fin32 w 21) (fin8 w 16)) else none
  | 7 => if bits w 19 2 = 0 ∧ bits w 6 10 = 0 then some (.mfirst (fin32 w 21) (fin8 w 16)) else none
  | 8 => if bits w 16 5 = 0 then (Src.ofBits (bits w 6 2) (bits w 11 5)).map fun src => .vpopx (fin32 w 21) src (fin8 w 8) else none
  | 9 => (Src.ofBits (bits w 6 2) (bits w 11 5)).map fun src => .vxsect (fin32 w 21) (fin32 w 16) src (fin8 w 8)
  | 10 => if bits w 16 5 = 0 then (Src.ofBits (bits w 6 2) (bits w 11 5)).map fun src => .vsegl (fin32 w 21) src (fin8 w 8) else none
  | _ => none

/-- Words of major opcode 0x24 (R91). -/
def decodeOp24 (w : Nat) : Option Instr :=
  match bits w 0 6 with
  | 0 => (Src.ofBits (bits w 6 2) (bits w 11 5)).map fun src => .vslup (fin32 w 21) (fin32 w 16) src (fin8 w 8)
  | 1 => (Src.ofBits (bits w 6 2) (bits w 11 5)).map fun src => .vsldn (fin32 w 21) (fin32 w 16) src (fin8 w 8)
  | 2 => (Src.ofBits (bits w 6 2) (bits w 11 5)).map fun src => .vperm (fin32 w 21) (fin32 w 16) src (fin8 w 8)
  | 3 => if bits w 11 5 = 0 ∧ bits w 6 2 = 0 then some (.vcompress (fin32 w 21) (fin32 w 16) (fin8 w 8)) else none
  | 4 => if bits w 11 5 = 0 ∧ bits w 6 2 = 0 then some (.vexpand (fin32 w 21) (fin32 w 16) (fin8 w 8)) else none
  | 5 => (Src.ofBits (bits w 6 2) (bits w 11 5)).map fun src => .vmatch (fin32 w 21) (fin32 w 16) src (fin8 w 8)
  | 6 => (Src.ofBits (bits w 6 2) (bits w 11 5)).map fun src => .vredsum (fin32 w 21) (fin32 w 16) src (fin8 w 8)
  | 7 => (Src.ofBits (bits w 6 2) (bits w 11 5)).map fun src => .vredmax (fin32 w 21) (fin32 w 16) src (fin8 w 8)
  | 8 => (Src.ofBits (bits w 6 2) (bits w 11 5)).map fun src => .vredmin (fin32 w 21) (fin32 w 16) src (fin8 w 8)
  | 9 => if bits w 16 5 = 0 then (Src.ofBits (bits w 6 2) (bits w 11 5)).map fun src => .vscan (fin32 w 21) src (fin8 w 8) else none
  | _ => none

/-- Words of major opcode 0x25 (R91). -/
def decodeOp25 (w : Nat) : Option Instr :=
  match bits w 0 6 with
  | 0 => if bits w 16 5 = 0 ∧ bits w 6 2 = 0 then some (.qswpH (fin32 w 21) (fin32 w 11) (fin8 w 8)) else none
  | 1 => if bits w 16 5 = 0 ∧ bits w 6 2 = 0 then some (.qswpV (fin32 w 21) (fin32 w 11) (fin8 w 8)) else none
  | 2 => if bits w 16 5 = 0 ∧ bits w 6 2 = 0 then some (.qswpD (fin32 w 21) (fin32 w 11) (fin8 w 8)) else none
  | 3 => if bits w 6 2 = 2 then some (.qbc (fin32 w 21) (fin32 w 16) (BitVec.ofNat 5 (bits w 11 5)) (fin8 w 8)) else none
  | 4 => if bits w 16 10 = 0 then (Src.ofBits (bits w 6 2) (bits w 11 5)).map fun src => .qsnd src (fin8 w 8) else none
  | 5 => if bits w 11 10 = 0 ∧ bits w 6 2 = 0 then some (.qrcv (fin32 w 21) (fin8 w 8)) else none
  | _ => none

/-- Words of major opcode 0x26 (R91). -/
def decodeOp26 (w : Nat) : Option Instr :=
  match bits w 0 3 with
  | 0 => if bits w 3 8 = 0 then some (.tf (BitVec.ofNat 15 (bits w 11 15))) else none
  | 1 => if bits w 3 5 = 0 then some (.tfc (BitVec.ofNat 15 (bits w 11 15)) (fin8 w 8)) else none
  | 3 => if bits w 3 18 = 0 then (FlagNo.ofCode (bits w 21 5)).map fun n => .tsetf n else none
  | 4 => if bits w 3 3 = 0 then (Src.ofBits (bits w 6 2) (bits w 11 5)).map fun src => .vpld (fin32 w 21) (fin32 w 16) src (fin8 w 8) else none
  | 5 => if bits w 3 3 = 0 then (Src.ofBits (bits w 6 2) (bits w 11 5)).map fun src => .vpst (fin32 w 21) (fin32 w 16) src (fin8 w 8) else none
  | 6 => (AmoOp.ofCode (bits w 11 5)).bind fun op => (Scope.ofCode (bits w 3 3)).bind fun sc => (Order.ofCode (bits w 6 2)).map fun od => .vpamo (fin32 w 21) (fin32 w 16) op sc od (fin8 w 8)
  | 2 => if bits w 3 23 = 0 then some (.tstop) else none
  | _ => none

/-- Words of major opcode 0x2C (R91). -/
def decodeOp2C (w : Nat) : Option Instr :=
  match bits w 22 4 with
  | 1 => if bits w 0 5 = 0 then (Fmt.ofCode (bits w 5 5)).map fun fmt => .mlat (bit w 21) (bit w 20) (fin32 w 15) (fin32 w 10) fmt else none
  | 2 => if bits w 21 1 = 0 ∧ bits w 0 5 = 0 then (Fmt.ofCode (bits w 5 5)).map fun fmt => .mlatg (bit w 20) (fin32 w 15) (fin32 w 10) fmt else none
  | 3 => if bits w 0 15 = 0 then some (.mlatv (bit w 21) (bit w 20) (fin32 w 15)) else none
  | 4 => if bits w 20 2 = 0 ∧ bits w 0 15 = 0 then some (.mlut (fin32 w 15)) else none
  | 5 => if bits w 7 13 = 0 then some (.mop (bit w 21) (bit w 20) (BitVec.ofNat 7 (bits w 0 7))) else none
  | 6 => if bits w 7 13 = 0 then some (.mopz (bit w 21) (bit w 20) (BitVec.ofNat 7 (bits w 0 7))) else none
  | 7 => if bits w 20 1 = 0 ∧ bits w 0 15 = 0 then some (.mband (bit w 21) (fin32 w 15)) else none
  | 9 => if bits w 6 16 = 0 then some (.mdrain (BitVec.ofNat 6 (bits w 0 6))) else none
  | 10 => if bits w 20 2 = 0 ∧ bits w 6 4 = 0 then some (.mdrainSz (fin32 w 15) (fin32 w 10) (BitVec.ofNat 6 (bits w 0 6))) else none
  | 11 => if bits w 6 16 = 0 then some (.mrow (BitVec.ofNat 6 (bits w 0 6))) else none
  | 12 => if bits w 20 2 = 0 ∧ bits w 0 15 = 0 then some (.mstat (fin32 w 15)) else none
  | 0 => if bits w 0 22 = 0 then some (.mzero) else none
  | 8 => if bits w 0 22 = 0 then some (.mfold) else none
  | _ => none

/-- Words of major opcode 0x32 (R91). -/
def decodeOp32 (w : Nat) : Option Instr :=
  match bits w 0 6 with
  | 0 => if bits w 21 5 = 0 ∧ bits w 8 3 = 0 then (Cls.ofCode (bits w 6 2)).map fun cls => .barInit (fin32 w 16) (fin32 w 11) cls else none
  | 1 => if bits w 21 5 = 0 ∧ bits w 6 10 = 0 then some (.barArrive (fin32 w 16)) else if bits w 21 5 = 0 ∧ bits w 13 3 = 0 ∧ bits w 6 5 = 16 then some (.barArriveCap (fin32 w 16) (fin4 w 11)) else none
  | 2 => if bits w 21 5 = 0 ∧ bits w 6 10 = 0 then some (.barWait (fin32 w 16)) else none
  | 3 => if bits w 21 5 = 0 ∧ bits w 6 5 = 0 then some (.barBytes (fin32 w 16) (fin32 w 11)) else none
  | 4 => if bits w 8 8 = 0 then (Cls.ofCode (bits w 6 2)).map fun cls => .lkacq (fin32 w 21) (fin32 w 16) cls else none
  | 5 => if bits w 21 5 = 0 ∧ bits w 6 10 = 0 then some (.lkrel (fin32 w 16)) else none
  | 6 => if bits w 8 3 = 0 then (Cls.ofCode (bits w 6 2)).map fun cls => .waitm (fin32 w 21) (fin32 w 16) (fin32 w 11) cls else none
  | 7 => if bits w 24 2 = 0 ∧ bits w 8 3 = 0 then (Cls.ofCode (bits w 6 2)).map fun cls => .cvinit (fin8 w 21) (fin32 w 16) (fin32 w 11) cls else none
  | 8 => if bits w 24 2 = 0 ∧ bits w 6 15 = 0 then some (.cvsign (fin8 w 21)) else none
  | 9 => if bits w 6 10 = 0 then some (.clsq (fin32 w 21) (fin32 w 16)) else none
  | _ => none

/-- Words of major opcode 0x33 (R91). -/
def decodeOp33 (w : Nat) : Option Instr :=
  match bits w 0 6 with
  | 0 => if bits w 18 3 = 0 ∧ bits w 6 10 = 0 then some (.fsnap (fin32 w 21) (fin4 w 16)) else none
  | 1 => if bits w 18 3 = 0 ∧ bits w 6 5 = 0 then some (.frdx (fin32 w 21) (fin4 w 16) (fin32 w 11)) else none
  | 2 => if bits w 18 3 = 0 ∧ bits w 6 5 = 0 then some (.fwrx (fin32 w 21) (fin4 w 16) (fin32 w 11)) else none
  | 3 => if bits w 18 3 = 0 ∧ bits w 6 5 = 0 then some (.frdv (fin32 w 21) (fin4 w 16) (fin32 w 11)) else none
  | 4 => if bits w 18 3 = 0 ∧ bits w 6 5 = 0 then some (.fwrv (fin32 w 21) (fin4 w 16) (fin32 w 11)) else none
  | 5 => if bits w 18 3 = 0 ∧ bits w 6 5 = 0 then some (.frdm (fin32 w 21) (fin4 w 16) (fin32 w 11)) else none
  | 6 => if bits w 18 8 = 0 ∧ bits w 6 10 = 0 then some (.fresume (fin4 w 16)) else none
  | 7 => if bits w 18 8 = 0 ∧ bits w 6 10 = 0 then some (.fresumeT (fin4 w 16)) else none
  | 8 => if bits w 18 8 = 0 ∧ bits w 6 10 = 0 then some (.fkill (fin4 w 16)) else none
  | 9 => if bits w 18 8 = 0 ∧ bits w 6 10 = 0 then some (.fstep (fin4 w 16)) else none
  | 11 => if bits w 18 8 = 0 ∧ bits w 6 10 = 0 then some (.capdrop (fin4 w 16)) else none
  | 10 => if bits w 6 20 = 0 then some (.hdone) else none
  | _ => none

/-- Words of major opcode 0x0E (R91). -/
def decodeOp0E (w : Nat) : Option Instr :=
  match bits w 0 26 with
  | 0 => some (.ecall)
  | 1 => some (.ebreak)
  | 2 => some (.yield)
  | 3 => some (.halt)
  | _ => none

/-- The instruction an instruction word holds (R89, R91); none where a code or a fixed bit is reserved. -/
def decodeWord (w : Nat) : Option Instr :=
  match bits w 26 6 with
  | 1 => decodeOp01 w
  | 2 => decodeOp02 w
  | 3 => decodeOp03 w
  | 4 => decodeOp04 w
  | 5 => decodeOp05 w
  | 6 => decodeOp06 w
  | 7 => decodeOp07 w
  | 8 => decodeOp08 w
  | 9 => decodeOp09 w
  | 10 => decodeOp0A w
  | 11 => decodeOp0B w
  | 12 => decodeOp0C w
  | 13 => decodeOp0D w
  | 15 => decodeOp0F w
  | 16 => decodeOp10 w
  | 17 => decodeOp11 w
  | 18 => decodeOp12 w
  | 19 => decodeOp13 w
  | 20 => decodeOp14 w
  | 21 => decodeOp15 w
  | 22 => decodeOp16 w
  | 23 => decodeOp17 w
  | 24 => decodeOp18 w
  | 25 => decodeOp19 w
  | 32 => decodeOp20 w
  | 33 => decodeOp21 w
  | 34 => decodeOp22 w
  | 35 => decodeOp23 w
  | 36 => decodeOp24 w
  | 37 => decodeOp25 w
  | 38 => decodeOp26 w
  | 44 => decodeOp2C w
  | 50 => decodeOp32 w
  | 51 => decodeOp33 w
  | 14 => decodeOp0E w
  | _ => none

/-- A word: its constant bits and each field at its place (R89). -/
def pack (base : Nat) : List (Nat × Nat) → Nat
  | [] => base
  | (v, lo) :: fs => pack base fs + v * 2 ^ lo

set_option maxHeartbeats 2000000 in
/-- The word of an instruction (R89 to R102); none for a device event, which has no encoding. -/
def encode : Instr → Option Nat
  | .add d a b => some (pack 0x04000000 [(d.val, 21), (a.val, 16), (b.val, 11)])
  | .sub d a b => some (pack 0x04000001 [(d.val, 21), (a.val, 16), (b.val, 11)])
  | .and d a b => some (pack 0x04000002 [(d.val, 21), (a.val, 16), (b.val, 11)])
  | .or d a b => some (pack 0x04000003 [(d.val, 21), (a.val, 16), (b.val, 11)])
  | .xor d a b => some (pack 0x04000004 [(d.val, 21), (a.val, 16), (b.val, 11)])
  | .sll d a b => some (pack 0x04000005 [(d.val, 21), (a.val, 16), (b.val, 11)])
  | .srl d a b => some (pack 0x04000006 [(d.val, 21), (a.val, 16), (b.val, 11)])
  | .sra d a b => some (pack 0x04000007 [(d.val, 21), (a.val, 16), (b.val, 11)])
  | .mul d a b => some (pack 0x04000008 [(d.val, 21), (a.val, 16), (b.val, 11)])
  | .mulhS d a b => some (pack 0x04000009 [(d.val, 21), (a.val, 16), (b.val, 11)])
  | .mulhN d a b => some (pack 0x0400000A [(d.val, 21), (a.val, 16), (b.val, 11)])
  | .divS d a b => some (pack 0x0400000B [(d.val, 21), (a.val, 16), (b.val, 11)])
  | .divN d a b => some (pack 0x0400000C [(d.val, 21), (a.val, 16), (b.val, 11)])
  | .remS d a b => some (pack 0x0400000D [(d.val, 21), (a.val, 16), (b.val, 11)])
  | .remN d a b => some (pack 0x0400000E [(d.val, 21), (a.val, 16), (b.val, 11)])
  | .sltS d a b => some (pack 0x0400000F [(d.val, 21), (a.val, 16), (b.val, 11)])
  | .sltN d a b => some (pack 0x04000010 [(d.val, 21), (a.val, 16), (b.val, 11)])
  | .minS d a b => some (pack 0x04000011 [(d.val, 21), (a.val, 16), (b.val, 11)])
  | .minN d a b => some (pack 0x04000012 [(d.val, 21), (a.val, 16), (b.val, 11)])
  | .maxS d a b => some (pack 0x04000013 [(d.val, 21), (a.val, 16), (b.val, 11)])
  | .maxN d a b => some (pack 0x04000014 [(d.val, 21), (a.val, 16), (b.val, 11)])
  | .clz d a => some (pack 0x04000015 [(d.val, 21), (a.val, 16)])
  | .ctz d a => some (pack 0x04000016 [(d.val, 21), (a.val, 16)])
  | .pop d a => some (pack 0x04000017 [(d.val, 21), (a.val, 16)])
  | .bswap d a => some (pack 0x04000018 [(d.val, 21), (a.val, 16)])
  | .addi d a imm => some (pack 0x08000000 [(d.val, 21), (a.val, 16), (imm.toNat, 0)])
  | .andi d a imm => some (pack 0x0C000000 [(d.val, 21), (a.val, 16), (imm.toNat, 0)])
  | .ori d a imm => some (pack 0x10000000 [(d.val, 21), (a.val, 16), (imm.toNat, 0)])
  | .xori d a imm => some (pack 0x14000000 [(d.val, 21), (a.val, 16), (imm.toNat, 0)])
  | .sltiS d a imm => some (pack 0x18000000 [(d.val, 21), (a.val, 16), (imm.toNat, 0)])
  | .slli d a n => some (pack 0x1C000000 [(d.val, 21), (a.val, 16), (n.toNat, 0)])
  | .srli d a n => some (pack 0x1C000040 [(d.val, 21), (a.val, 16), (n.toNat, 0)])
  | .srai d a n => some (pack 0x1C000080 [(d.val, 21), (a.val, 16), (n.toNat, 0)])
  | .lui d disp => some (pack 0x20000000 [(d.val, 21), (disp.toNat, 0)])
  | .addpc d disp => some (pack 0x24000000 [(d.val, 21), (disp.toNat, 0)])
  | .beq a b disp => some (pack 0x28000000 [(a.val, 21), (b.val, 16), (disp.toNat, 0)])
  | .bne a b disp => some (pack 0x28002000 [(a.val, 21), (b.val, 16), (disp.toNat, 0)])
  | .bltS a b disp => some (pack 0x28004000 [(a.val, 21), (b.val, 16), (disp.toNat, 0)])
  | .bgeS a b disp => some (pack 0x28006000 [(a.val, 21), (b.val, 16), (disp.toNat, 0)])
  | .bltN a b disp => some (pack 0x28008000 [(a.val, 21), (b.val, 16), (disp.toNat, 0)])
  | .bgeN a b disp => some (pack 0x2800A000 [(a.val, 21), (b.val, 16), (disp.toNat, 0)])
  | .jal d disp => some (pack 0x2C000000 [(d.val, 21), (disp.toNat, 0)])
  | .jalr d a imm => some (pack 0x30000000 [(d.val, 21), (a.val, 16), (imm.toNat, 0)])
  | .csrr d csr => some (pack 0x34000000 [(d.val, 21), (csr.toNat, 0)])
  | .csrw csr a => some (pack 0x34004000 [(csr.toNat, 0), (a.val, 16)])
  | .csrs csr a => some (pack 0x34008000 [(csr.toNat, 0), (a.val, 16)])
  | .csrc csr a => some (pack 0x3400C000 [(csr.toNat, 0), (a.val, 16)])
  | .ldBs d a disp => some (pack 0x3C000000 [(d.val, 21), (a.val, 16), (disp.toNat, 0)])
  | .ldBn d a disp => some (pack 0x3C002000 [(d.val, 21), (a.val, 16), (disp.toNat, 0)])
  | .ldHs d a disp => some (pack 0x3C004000 [(d.val, 21), (a.val, 16), (disp.toNat, 0)])
  | .ldHn d a disp => some (pack 0x3C006000 [(d.val, 21), (a.val, 16), (disp.toNat, 0)])
  | .ldWs d a disp => some (pack 0x3C008000 [(d.val, 21), (a.val, 16), (disp.toNat, 0)])
  | .ldWn d a disp => some (pack 0x3C00A000 [(d.val, 21), (a.val, 16), (disp.toNat, 0)])
  | .ldD d a disp => some (pack 0x3C00C000 [(d.val, 21), (a.val, 16), (disp.toNat, 0)])
  | .stB d a disp => some (pack 0x40000000 [(d.val, 21), (a.val, 16), (disp.toNat, 0)])
  | .stH d a disp => some (pack 0x40002000 [(d.val, 21), (a.val, 16), (disp.toNat, 0)])
  | .stW d a disp => some (pack 0x40004000 [(d.val, 21), (a.val, 16), (disp.toNat, 0)])
  | .stD d a disp => some (pack 0x40006000 [(d.val, 21), (a.val, 16), (disp.toNat, 0)])
  | .amoAdd d a b sc od word => some (pack 0x44000000 [(d.val, 21), (a.val, 16), (b.val, 11), (sc.code, 8), (od.code, 5), (word.toNat, 4)])
  | .amoAnd d a b sc od word => some (pack 0x44000001 [(d.val, 21), (a.val, 16), (b.val, 11), (sc.code, 8), (od.code, 5), (word.toNat, 4)])
  | .amoOr d a b sc od word => some (pack 0x44000002 [(d.val, 21), (a.val, 16), (b.val, 11), (sc.code, 8), (od.code, 5), (word.toNat, 4)])
  | .amoXor d a b sc od word => some (pack 0x44000003 [(d.val, 21), (a.val, 16), (b.val, 11), (sc.code, 8), (od.code, 5), (word.toNat, 4)])
  | .amoMinS d a b sc od word => some (pack 0x44000004 [(d.val, 21), (a.val, 16), (b.val, 11), (sc.code, 8), (od.code, 5), (word.toNat, 4)])
  | .amoMinN d a b sc od word => some (pack 0x44000005 [(d.val, 21), (a.val, 16), (b.val, 11), (sc.code, 8), (od.code, 5), (word.toNat, 4)])
  | .amoMaxS d a b sc od word => some (pack 0x44000006 [(d.val, 21), (a.val, 16), (b.val, 11), (sc.code, 8), (od.code, 5), (word.toNat, 4)])
  | .amoMaxN d a b sc od word => some (pack 0x44000007 [(d.val, 21), (a.val, 16), (b.val, 11), (sc.code, 8), (od.code, 5), (word.toNat, 4)])
  | .amoSwap d a b sc od word => some (pack 0x44000008 [(d.val, 21), (a.val, 16), (b.val, 11), (sc.code, 8), (od.code, 5), (word.toNat, 4)])
  | .amoCas d a b sc od word => some (pack 0x44000009 [(d.val, 21), (a.val, 16), (b.val, 11), (sc.code, 8), (od.code, 5), (word.toNat, 4)])
  | .amoFadd d a b sc od => some (pack 0x4400001A [(d.val, 21), (a.val, 16), (b.val, 11), (sc.code, 8), (od.code, 5)])
  | .fenceAcq sc => some (pack 0x48000040 [(sc.code, 8)])
  | .fenceRel sc => some (pack 0x48000080 [(sc.code, 8)])
  | .fenceAr sc => some (pack 0x480000C0 [(sc.code, 8)])
  | .setvl d a => some (pack 0x4C000000 [(d.val, 21), (a.val, 12)])
  | .setvlw d a w => some (pack 0x4C020000 [(d.val, 21), (a.val, 12), (w.val, 0)])
  | .vcfg d ew g => some (pack 0x4C040000 [(d.val, 21), (ew.val, 2), (g.val, 0)])
  | .vtagw d tag => some (pack 0x4C060000 [(d.val, 21), (tag.code, 0)])
  | .vtagr d a => some (pack 0x4C080000 [(d.val, 21), (a.val, 12)])
  | .vhwm d a => some (pack 0x4C0A0000 [(d.val, 21), (a.val, 12)])
  | .vf disp => some (pack 0x50000000 [(disp.toNat, 0)])
  | .vfD disp => some (pack 0x50200000 [(disp.toNat, 0)])
  | .vjoin d j t => some (pack 0x54000000 [(d.val, 21), (j.toNat, 9), (t.toNat, 0)])
  | .vjoinReg d j t => some (pack 0x54000100 [(d.val, 21), (j.toNat, 9), (t.val, 0)])
  | .waitf flags => some (pack 0x54020000 [(flags.toNat, 0)])
  | .waitc cls n => some (pack 0x54040000 [(cls.val, 8), (n.toNat, 0)])
  | .qseed a => some (pack 0x54060000 [(a.val, 12)])
  | .qdrain d => some (pack 0x54080000 [(d.val, 21)])
  | .sbput n a => some (pack 0x540A0000 [(n.val, 0), (a.val, 12)])
  | .sbget d n => some (pack 0x540C0000 [(d.val, 21), (n.val, 0)])
  | .mxon zp band keep => some (pack 0x540E0000 [(zp.toNat, 2), (band.toNat, 1), (keep.toNat, 0)])
  | .launch d a => some (pack 0x54120000 [(d.val, 21), (a.val, 12)])
  | .evsig a => some (pack 0x54140000 [(a.val, 12)])
  | .evwait a => some (pack 0x54160000 [(a.val, 12)])
  | .vld vd xb vx fmt m => some (pack 0x58000000 [(vd.val, 21), (xb.val, 16), (vx.val, 11), (fmt.code, 6), (m.val, 3)])
  | .vlds vd xb vx fmt m => some (pack 0x58000001 [(vd.val, 21), (xb.val, 16), (vx.val, 11), (fmt.code, 6), (m.val, 3)])
  | .vldseg vd xb vx fmt m => some (pack 0x58000002 [(vd.val, 21), (xb.val, 16), (vx.val, 11), (fmt.code, 6), (m.val, 3)])
  | .vldx vd xb vx fmt m => some (pack 0x58000003 [(vd.val, 21), (xb.val, 16), (vx.val, 11), (fmt.code, 6), (m.val, 3)])
  | .vfg vd xb vx fmt m => some (pack 0x58000004 [(vd.val, 21), (xb.val, 16), (vx.val, 11), (fmt.code, 6), (m.val, 3)])
  | .vldt vd vr m => some (pack 0x58000005 [(vd.val, 21), (vr.val, 11), (m.val, 3)])
  | .vst vd xb vx fmt m => some (pack 0x5C000000 [(vd.val, 21), (xb.val, 16), (vx.val, 11), (fmt.code, 6), (m.val, 3)])
  | .vsts vd xb vx fmt m => some (pack 0x5C000001 [(vd.val, 21), (xb.val, 16), (vx.val, 11), (fmt.code, 6), (m.val, 3)])
  | .vstseg vd xb vx fmt m => some (pack 0x5C000002 [(vd.val, 21), (xb.val, 16), (vx.val, 11), (fmt.code, 6), (m.val, 3)])
  | .vstx vd xb vx fmt m => some (pack 0x5C000003 [(vd.val, 21), (xb.val, 16), (vx.val, 11), (fmt.code, 6), (m.val, 3)])
  | .vstxa vd xb vx fmt m => some (pack 0x5C000004 [(vd.val, 21), (xb.val, 16), (vx.val, 11), (fmt.code, 6), (m.val, 3)])
  | .vstt vd vr m => some (pack 0x5C000005 [(vd.val, 21), (vr.val, 11), (m.val, 3)])
  | .sbind n a => some (pack 0x60000000 [(n.val, 21), (a.val, 12)])
  | .sbindx n a vi => some (pack 0x60020000 [(n.val, 21), (a.val, 12), (vi.val, 7)])
  | .sclose n => some (pack 0x60040000 [(n.val, 21)])
  | .cpy d a => some (pack 0x60060000 [(d.val, 21), (a.val, 12)])
  | .cpyx d a vi => some (pack 0x60080000 [(d.val, 21), (a.val, 12), (vi.val, 7)])
  | .wmpub n a => some (pack 0x600A0000 [(n.val, 21), (a.val, 12)])
  | .wmbind n a cls => some (pack 0x600C0000 [(n.val, 21), (a.val, 12), (cls.code, 0)])
  | .pfetch a lvl => some (pack 0x600E0000 [(a.val, 12), (lvl.code, 0)])
  | .cflush a => some (pack 0x60100000 [(a.val, 12)])
  | .rput d a => some (pack 0x64000000 [(d.val, 21), (a.val, 12)])
  | .rget d a => some (pack 0x64020000 [(d.val, 21), (a.val, 12)])
  | .ramo d a b op od => some (pack 0x64040000 [(d.val, 21), (a.val, 12), (b.val, 7), (op.code, 2), (od.code, 0)])
  | .coll d a => some (pack 0x64060000 [(d.val, 21), (a.val, 12)])
  | .vadd vd va src m => some (pack 0x80000000 [(vd.val, 21), (va.val, 16), (src.kind, 6), (src.field, 11), (m.val, 8)])
  | .vsub vd va src m => some (pack 0x80000001 [(vd.val, 21), (va.val, 16), (src.kind, 6), (src.field, 11), (m.val, 8)])
  | .vmul vd va src m => some (pack 0x80000002 [(vd.val, 21), (va.val, 16), (src.kind, 6), (src.field, 11), (m.val, 8)])
  | .vmulhS vd va src m => some (pack 0x80000003 [(vd.val, 21), (va.val, 16), (src.kind, 6), (src.field, 11), (m.val, 8)])
  | .vmulhN vd va src m => some (pack 0x80000004 [(vd.val, 21), (va.val, 16), (src.kind, 6), (src.field, 11), (m.val, 8)])
  | .vminS vd va src m => some (pack 0x80000005 [(vd.val, 21), (va.val, 16), (src.kind, 6), (src.field, 11), (m.val, 8)])
  | .vminN vd va src m => some (pack 0x80000006 [(vd.val, 21), (va.val, 16), (src.kind, 6), (src.field, 11), (m.val, 8)])
  | .vmaxS vd va src m => some (pack 0x80000007 [(vd.val, 21), (va.val, 16), (src.kind, 6), (src.field, 11), (m.val, 8)])
  | .vmaxN vd va src m => some (pack 0x80000008 [(vd.val, 21), (va.val, 16), (src.kind, 6), (src.field, 11), (m.val, 8)])
  | .vand vd va src m => some (pack 0x80000009 [(vd.val, 21), (va.val, 16), (src.kind, 6), (src.field, 11), (m.val, 8)])
  | .vor vd va src m => some (pack 0x8000000A [(vd.val, 21), (va.val, 16), (src.kind, 6), (src.field, 11), (m.val, 8)])
  | .vxor vd va src m => some (pack 0x8000000B [(vd.val, 21), (va.val, 16), (src.kind, 6), (src.field, 11), (m.val, 8)])
  | .vsll vd va src m => some (pack 0x8000000C [(vd.val, 21), (va.val, 16), (src.kind, 6), (src.field, 11), (m.val, 8)])
  | .vsrl vd va src m => some (pack 0x8000000D [(vd.val, 21), (va.val, 16), (src.kind, 6), (src.field, 11), (m.val, 8)])
  | .vsra vd va src m => some (pack 0x8000000E [(vd.val, 21), (va.val, 16), (src.kind, 6), (src.field, 11), (m.val, 8)])
  | .vclz vd src m => some (pack 0x8000000F [(vd.val, 21), (src.kind, 6), (src.field, 11), (m.val, 8)])
  | .vpop vd src m => some (pack 0x80000010 [(vd.val, 21), (src.kind, 6), (src.field, 11), (m.val, 8)])
  | .vabs vd src m => some (pack 0x80000011 [(vd.val, 21), (src.kind, 6), (src.field, 11), (m.val, 8)])
  | .vneg vd src m => some (pack 0x80000012 [(vd.val, 21), (src.kind, 6), (src.field, 11), (m.val, 8)])
  | .vmv vd src m => some (pack 0x80000013 [(vd.val, 21), (src.kind, 6), (src.field, 11), (m.val, 8)])
  | .vsel vd va src m => some (pack 0x80000014 [(vd.val, 21), (va.val, 16), (src.kind, 6), (src.field, 11), (m.val, 8)])
  | .vcmpEq md va src m => some (pack 0x80000015 [(md.val, 21), (va.val, 16), (src.kind, 6), (src.field, 11), (m.val, 8)])
  | .vcmpNe md va src m => some (pack 0x80000016 [(md.val, 21), (va.val, 16), (src.kind, 6), (src.field, 11), (m.val, 8)])
  | .vcmpLtS md va src m => some (pack 0x80000017 [(md.val, 21), (va.val, 16), (src.kind, 6), (src.field, 11), (m.val, 8)])
  | .vcmpLtN md va src m => some (pack 0x80000018 [(md.val, 21), (va.val, 16), (src.kind, 6), (src.field, 11), (m.val, 8)])
  | .vcmpLeS md va src m => some (pack 0x80000019 [(md.val, 21), (va.val, 16), (src.kind, 6), (src.field, 11), (m.val, 8)])
  | .vcmpLeN md va src m => some (pack 0x8000001A [(md.val, 21), (va.val, 16), (src.kind, 6), (src.field, 11), (m.val, 8)])
  | .vidx vd m => some (pack 0x8000001B [(vd.val, 21), (m.val, 8)])
  | .vimm vd imm m => some (pack 0x8000009C [(vd.val, 21), (imm.toNat, 11), (m.val, 8)])
  | .vwmulS vd va src m => some (pack 0x84000000 [(vd.val, 21), (va.val, 16), (src.kind, 6), (src.field, 11), (m.val, 8)])
  | .vwmulN vd va src m => some (pack 0x84000001 [(vd.val, 21), (va.val, 16), (src.kind, 6), (src.field, 11), (m.val, 8)])
  | .vwmacS vd va src m => some (pack 0x84000002 [(vd.val, 21), (va.val, 16), (src.kind, 6), (src.field, 11), (m.val, 8)])
  | .vwmacN vd va src m => some (pack 0x84000003 [(vd.val, 21), (va.val, 16), (src.kind, 6), (src.field, 11), (m.val, 8)])
  | .vwmacSn vd va src m => some (pack 0x84000004 [(vd.val, 21), (va.val, 16), (src.kind, 6), (src.field, 11), (m.val, 8)])
  | .vnsr vd va src m => some (pack 0x84000005 [(vd.val, 21), (va.val, 16), (src.kind, 6), (src.field, 11), (m.val, 8)])
  | .vnsra vd va src m => some (pack 0x84000006 [(vd.val, 21), (va.val, 16), (src.kind, 6), (src.field, 11), (m.val, 8)])
  | .vsaddS vd va src m => some (pack 0x84000007 [(vd.val, 21), (va.val, 16), (src.kind, 6), (src.field, 11), (m.val, 8)])
  | .vsaddN vd va src m => some (pack 0x84000008 [(vd.val, 21), (va.val, 16), (src.kind, 6), (src.field, 11), (m.val, 8)])
  | .vssubS vd va src m => some (pack 0x84000009 [(vd.val, 21), (va.val, 16), (src.kind, 6), (src.field, 11), (m.val, 8)])
  | .vssubN vd va src m => some (pack 0x8400000A [(vd.val, 21), (va.val, 16), (src.kind, 6), (src.field, 11), (m.val, 8)])
  | .vavg vd va src m => some (pack 0x8400000B [(vd.val, 21), (va.val, 16), (src.kind, 6), (src.field, 11), (m.val, 8)])
  | .vcvt vd rm vb m => some (pack 0x8400000C [(vd.val, 21), (rm.code, 16), (vb.val, 11), (m.val, 8)])
  | .vretag vd tag => some (pack 0x8400000D [(vd.val, 21), (tag.code, 16)])
  | .vfadd vd va src m => some (pack 0x88000000 [(vd.val, 21), (va.val, 16), (src.kind, 6), (src.field, 11), (m.val, 8)])
  | .vfsub vd va src m => some (pack 0x88000001 [(vd.val, 21), (va.val, 16), (src.kind, 6), (src.field, 11), (m.val, 8)])
  | .vfmul vd va src m => some (pack 0x88000002 [(vd.val, 21), (va.val, 16), (src.kind, 6), (src.field, 11), (m.val, 8)])
  | .vfma vd va src m => some (pack 0x88000003 [(vd.val, 21), (va.val, 16), (src.kind, 6), (src.field, 11), (m.val, 8)])
  | .vfms vd va src m => some (pack 0x88000004 [(vd.val, 21), (va.val, 16), (src.kind, 6), (src.field, 11), (m.val, 8)])
  | .vfnma vd va src m => some (pack 0x88000005 [(vd.val, 21), (va.val, 16), (src.kind, 6), (src.field, 11), (m.val, 8)])
  | .vfmin vd va src m => some (pack 0x88000006 [(vd.val, 21), (va.val, 16), (src.kind, 6), (src.field, 11), (m.val, 8)])
  | .vfmax vd va src m => some (pack 0x88000007 [(vd.val, 21), (va.val, 16), (src.kind, 6), (src.field, 11), (m.val, 8)])
  | .vfdiv vd va src m => some (pack 0x88000008 [(vd.val, 21), (va.val, 16), (src.kind, 6), (src.field, 11), (m.val, 8)])
  | .vfsqrt vd rm vb m => some (pack 0x88000009 [(vd.val, 21), (rm.code, 16), (vb.val, 11), (m.val, 8)])
  | .vfrcp vd rm vb m => some (pack 0x8800000A [(vd.val, 21), (rm.code, 16), (vb.val, 11), (m.val, 8)])
  | .vfrsq vd rm vb m => some (pack 0x8800000B [(vd.val, 21), (rm.code, 16), (vb.val, 11), (m.val, 8)])
  | .vfexp2 vd rm vb m => some (pack 0x8800000C [(vd.val, 21), (rm.code, 16), (vb.val, 11), (m.val, 8)])
  | .vfcmpEq md va src m => some (pack 0x8800000D [(md.val, 21), (va.val, 16), (src.kind, 6), (src.field, 11), (m.val, 8)])
  | .vfcmpLt md va src m => some (pack 0x8800000E [(md.val, 21), (va.val, 16), (src.kind, 6), (src.field, 11), (m.val, 8)])
  | .vfcmpLe md va src m => some (pack 0x8800000F [(md.val, 21), (va.val, 16), (src.kind, 6), (src.field, 11), (m.val, 8)])
  | .vfclass vd src m => some (pack 0x88000010 [(vd.val, 21), (src.kind, 6), (src.field, 11), (m.val, 8)])
  | .vfsgnj vd va src m => some (pack 0x88000011 [(vd.val, 21), (va.val, 16), (src.kind, 6), (src.field, 11), (m.val, 8)])
  | .mand md ma mb => some (pack 0x8C000000 [(md.val, 21), (ma.val, 16), (mb.val, 11)])
  | .mor md ma mb => some (pack 0x8C000001 [(md.val, 21), (ma.val, 16), (mb.val, 11)])
  | .mxor md ma mb => some (pack 0x8C000002 [(md.val, 21), (ma.val, 16), (mb.val, 11)])
  | .mnot md ma => some (pack 0x8C000003 [(md.val, 21), (ma.val, 16)])
  | .mlist md => some (pack 0x8C000004 [(md.val, 21)])
  | .mbits md => some (pack 0x8C000005 [(md.val, 21)])
  | .mpop vd ma => some (pack 0x8C000006 [(vd.val, 21), (ma.val, 16)])
  | .mfirst vd ma => some (pack 0x8C000007 [(vd.val, 21), (ma.val, 16)])
  | .vpopx vd src m => some (pack 0x8C000008 [(vd.val, 21), (src.kind, 6), (src.field, 11), (m.val, 8)])
  | .vxsect vd va src m => some (pack 0x8C000009 [(vd.val, 21), (va.val, 16), (src.kind, 6), (src.field, 11), (m.val, 8)])
  | .vsegl vd src m => some (pack 0x8C00000A [(vd.val, 21), (src.kind, 6), (src.field, 11), (m.val, 8)])
  | .vslup vd va src m => some (pack 0x90000000 [(vd.val, 21), (va.val, 16), (src.kind, 6), (src.field, 11), (m.val, 8)])
  | .vsldn vd va src m => some (pack 0x90000001 [(vd.val, 21), (va.val, 16), (src.kind, 6), (src.field, 11), (m.val, 8)])
  | .vperm vd va src m => some (pack 0x90000002 [(vd.val, 21), (va.val, 16), (src.kind, 6), (src.field, 11), (m.val, 8)])
  | .vcompress vd va m => some (pack 0x90000003 [(vd.val, 21), (va.val, 16), (m.val, 8)])
  | .vexpand vd va m => some (pack 0x90000004 [(vd.val, 21), (va.val, 16), (m.val, 8)])
  | .vmatch vd va src m => some (pack 0x90000005 [(vd.val, 21), (va.val, 16), (src.kind, 6), (src.field, 11), (m.val, 8)])
  | .vredsum vd va src m => some (pack 0x90000006 [(vd.val, 21), (va.val, 16), (src.kind, 6), (src.field, 11), (m.val, 8)])
  | .vredmax vd va src m => some (pack 0x90000007 [(vd.val, 21), (va.val, 16), (src.kind, 6), (src.field, 11), (m.val, 8)])
  | .vredmin vd va src m => some (pack 0x90000008 [(vd.val, 21), (va.val, 16), (src.kind, 6), (src.field, 11), (m.val, 8)])
  | .vscan vd src m => some (pack 0x90000009 [(vd.val, 21), (src.kind, 6), (src.field, 11), (m.val, 8)])
  | .qswpH vd vs m => some (pack 0x94000000 [(vd.val, 21), (vs.val, 11), (m.val, 8)])
  | .qswpV vd vs m => some (pack 0x94000001 [(vd.val, 21), (vs.val, 11), (m.val, 8)])
  | .qswpD vd vs m => some (pack 0x94000002 [(vd.val, 21), (vs.val, 11), (m.val, 8)])
  | .qbc vd va i m => some (pack 0x94000083 [(vd.val, 21), (va.val, 16), (i.toNat, 11), (m.val, 8)])
  | .qsnd src m => some (pack 0x94000004 [(src.kind, 6), (src.field, 11), (m.val, 8)])
  | .qrcv vd m => some (pack 0x94000005 [(vd.val, 21), (m.val, 8)])
  | .tf disp => some (pack 0x98000000 [(disp.toNat, 11)])
  | .tfc disp m => some (pack 0x98000001 [(disp.toNat, 11), (m.val, 8)])
  | .tsetf n => some (pack 0x98000003 [(n.code, 21)])
  | .vpld vd va src m => some (pack 0x98000004 [(vd.val, 21), (va.val, 16), (src.kind, 6), (src.field, 11), (m.val, 8)])
  | .vpst vd va src m => some (pack 0x98000005 [(vd.val, 21), (va.val, 16), (src.kind, 6), (src.field, 11), (m.val, 8)])
  | .vpamo vd va op sc od m => some (pack 0x98000006 [(vd.val, 21), (va.val, 16), (op.code, 11), (sc.code, 3), (od.code, 6), (m.val, 8)])
  | .mlat side half xa xs fmt => some (pack 0xB0400000 [(side.toNat, 21), (half.toNat, 20), (xa.val, 15), (xs.val, 10), (fmt.code, 5)])
  | .mlatg half xa vi fmt => some (pack 0xB0800000 [(half.toNat, 20), (xa.val, 15), (vi.val, 10), (fmt.code, 5)])
  | .mlatv side half vs => some (pack 0xB0C00000 [(side.toNat, 21), (half.toNat, 20), (vs.val, 15)])
  | .mlut vc => some (pack 0xB1000000 [(vc.val, 15)])
  | .mop ha hb k => some (pack 0xB1400000 [(ha.toNat, 21), (hb.toNat, 20), (k.toNat, 0)])
  | .mopz ha hb k => some (pack 0xB1800000 [(ha.toNat, 21), (hb.toNat, 20), (k.toNat, 0)])
  | .mband side vs => some (pack 0xB1C00000 [(side.toNat, 21), (vs.val, 15)])
  | .mdrain n => some (pack 0xB2400000 [(n.toNat, 0)])
  | .mdrainSz vs vz n => some (pack 0xB2800000 [(vs.val, 15), (vz.val, 10), (n.toNat, 0)])
  | .mrow n => some (pack 0xB2C00000 [(n.toNat, 0)])
  | .mstat d => some (pack 0xB3000000 [(d.val, 15)])
  | .barInit a b cls => some (pack 0xC8000000 [(a.val, 16), (b.val, 11), (cls.code, 6)])
  | .barArrive a => some (pack 0xC8000001 [(a.val, 16)])
  | .barArriveCap a k => some (pack 0xC8000401 [(a.val, 16), (k.val, 11)])
  | .barWait a => some (pack 0xC8000002 [(a.val, 16)])
  | .barBytes a b => some (pack 0xC8000003 [(a.val, 16), (b.val, 11)])
  | .lkacq d a cls => some (pack 0xC8000004 [(d.val, 21), (a.val, 16), (cls.code, 6)])
  | .lkrel a => some (pack 0xC8000005 [(a.val, 16)])
  | .waitm d a b cls => some (pack 0xC8000006 [(d.val, 21), (a.val, 16), (b.val, 11), (cls.code, 6)])
  | .cvinit n a b cls => some (pack 0xC8000007 [(n.val, 21), (a.val, 16), (b.val, 11), (cls.code, 6)])
  | .cvsign n => some (pack 0xC8000008 [(n.val, 21)])
  | .clsq d a => some (pack 0xC8000009 [(d.val, 21), (a.val, 16)])
  | .fsnap d k => some (pack 0xCC000000 [(d.val, 21), (k.val, 16)])
  | .frdx d k n => some (pack 0xCC000001 [(d.val, 21), (k.val, 16), (n.val, 11)])
  | .fwrx d k n => some (pack 0xCC000002 [(d.val, 21), (k.val, 16), (n.val, 11)])
  | .frdv d k n => some (pack 0xCC000003 [(d.val, 21), (k.val, 16), (n.val, 11)])
  | .fwrv d k n => some (pack 0xCC000004 [(d.val, 21), (k.val, 16), (n.val, 11)])
  | .frdm d k n => some (pack 0xCC000005 [(d.val, 21), (k.val, 16), (n.val, 11)])
  | .fresume k => some (pack 0xCC000006 [(k.val, 16)])
  | .fresumeT k => some (pack 0xCC000007 [(k.val, 16)])
  | .fkill k => some (pack 0xCC000008 [(k.val, 16)])
  | .fstep k => some (pack 0xCC000009 [(k.val, 16)])
  | .capdrop k => some (pack 0xCC00000B [(k.val, 16)])
  | .ecall => some (pack 0x38000000 [])
  | .ebreak => some (pack 0x38000001 [])
  | .yield => some (pack 0x38000002 [])
  | .halt => some (pack 0x38000003 [])
  | .fenceOv => some (pack 0x48000001 [])
  | .vcommit => some (pack 0x4C0C0000 [])
  | .mxoff => some (pack 0x54100000 [])
  | .tstop => some (pack 0x98000002 [])
  | .mzero => some (pack 0xB0000000 [])
  | .mfold => some (pack 0xB2000000 [])
  | .hdone => some (pack 0xCC00000A [])
  | _ => none

/-- The little-endian word of four bytes (R1). -/
def wordOfBytes : List Byte → Option (Nat × List Byte)
  | a :: b :: c :: e :: rest => some (a.toNat + 2 ^ 8 * b.toNat + 2 ^ 16 * c.toNat + 2 ^ 24 * e.toNat, rest)
  | _ => none

/-- The four bytes of a word as memory holds them (R1). -/
def bytesOfWord (w : Nat) : List Byte :=
  [BitVec.ofNat 8 w, BitVec.ofNat 8 (w / 2 ^ 8), BitVec.ofNat 8 (w / 2 ^ 16), BitVec.ofNat 8 (w / 2 ^ 24)]

/-- The instruction at the head of a byte string, and the bytes after it. -/
def decodeBytes (bs : List Byte) : Option (Instr × List Byte) :=
  (wordOfBytes bs).bind fun p => (decodeWord p.1).map fun i => (i, p.2)

/-- The instruction the decoder reads from a table row's word: the word is laid out as memory holds it and decoded. -/
def decodeTableWord (nbits w : Nat) : Option Instr :=
  if nbits ≤ 32 then (decodeBytes (bytesOfWord w)).map Prod.fst else none

/-- The header of an atomic instruction block (R27). -/
structure Header where
  /-- Number of instruction words, 1 to 32. -/
  len : Nat
  /-- Mask of the flags that must be clear. -/
  wait : BitVec 12
  /-- Flag of the block's memory operations, 15 for none. -/
  seta : Nat
  /-- Flag of the block's queue receives, 15 for none. -/
  setb : Nat
  /-- Thread-fetch permit. -/
  tfp : Bool
deriving DecidableEq, Repr

/-- What a word read as a block header gives (R27, R28): none when it is no header; otherwise the header. -/
def decodeHeader (w : Nat) : Option Header :=
  if bits w 26 6 = 63 then
    some { len := bits w 21 5 + 1, wait := BitVec.ofNat 12 (bits w 9 12), seta := bits w 5 4, setb := bits w 1 4, tfp := bit w 0 }
  else none

/-- R28: SETA or SETB in 12 to 14, or SETA = SETB ≠ 15, is ILLOP. -/
def Header.legal (h : Header) : Bool :=
  !(12 ≤ h.seta && h.seta ≤ 14) && !(12 ≤ h.setb && h.setb ≤ 14) && (h.seta != h.setb || h.seta == 15)

/-- The place a word stands in (R103). -/
inductive Place where
  /-- Control stream. -/
  | control
  /-- Control stream in matrix mode. -/
  | matrix
  /-- Control stream of a handler thread. -/
  | handler
  /-- Vector-fetched block. -/
  | block
  /-- Thread block. -/
  | thread
deriving DecidableEq, Repr

/-- Major opcodes R91 allocates. -/
def opAllocated (op : Nat) : Bool :=
  (1 ≤ op && op ≤ 0x19) || (0x20 ≤ op && op ≤ 0x26) || op == 0x2C || op == 0x32 || op == 0x33 || op == 0x3E || op == 0x3F

/-- The word stands at these places only (R103). -/
def standsAt (l : List Place) (pl : Place) : Option Code := if pl ∈ l then none else some .wrongstream

/-- Step 3 of R104: whether R103 (with R276 and R310 for a handler thread) lets the word stand at its place. A function code of 0x12 from 2 on,
which R103 does not place, passes as fence does (DESIGN CHOICE, log 84). -/
def streamFault (pl : Place) (w : Nat) : Option Code :=
  let op := bits w 26 6
  let fn := bits w 17 4
  let sy := bits w 0 6
  if op = 0x3F then some .wrongstream
  else if op ≤ 0x0D then standsAt [.control, .matrix, .handler] pl
  else if op ≤ 0x11 then standsAt [.control, .handler] pl
  else if op = 0x12 then standsAt (if sy = 1 then [.control, .handler] else [.control, .handler, .matrix, .thread]) pl
  else if op = 0x13 then standsAt [.control] pl
  else if op = 0x14 then standsAt (if bits w 21 5 = 0 then [.control] else if bits w 21 5 = 1 then [.matrix] else [.control, .matrix]) pl
  else if op = 0x15 then
    standsAt (if fn = 8 then [.matrix] else if fn = 1 ∨ fn = 2 then [.control, .matrix] else [.control]) pl
  else if op ≤ 0x19 then standsAt [.control] pl
  else if op ≤ 0x26 then standsAt [.block, .thread] pl
  else if op = 0x2C then standsAt [.matrix] pl
  else if op = 0x32 then
    if pl = .handler then (if (sy = 1 ∧ bit w 10) ∨ sy = 3 ∨ sy = 9 ∨ 10 ≤ sy then none else some .illwait)
    else if pl = .block then (if sy = 2 ∨ sy = 4 ∨ sy = 6 then some .illwait else some .wrongstream)
    else standsAt [.control, .thread] pl
  else none

/-- Steps 1 to 3 of R104: the first that fails gives the fault. -/
def placeFault (pl : Place) (w : Nat) : Option Code :=
  let op := bits w 26 6
  if opAllocated op = false then some .illop
  else if op = 0x3E then some .priv
  else if op = 0x33 ∧ pl ≠ .handler then some .priv
  else streamFault pl w

/-- Steps 1 to 4 of R104 on one word: the instruction, or the fault code. -/
def decodeAt (pl : Place) (w : Nat) : Except Code Instr :=
  match placeFault pl w with
  | some c => .error c
  | none =>
    match decodeWord w with
    | some i => if i.legal then .ok i else .error .illop
    | none => .error .illop

end Sys2Proof
end

