-- ==== Sys2Proof/Machine/State.lean ====
section
/-! DEFINITION. The state of the DV9 as plain data: every piece of state the spec names, grouped by the unit that holds it,
the reasons a step can stop, and the state after device reset. -/

namespace Sys2Proof.Machine

/-- A finite map: pairs in strictly rising key order. -/
abbrev FMap (α : Type) := List (Nat × α)

/-- One place that holds an exact number (R77, R253): a value of any float or integer format, `m × 2^e` with its sign. -/
inductive XF where
  | nan
  | inf (neg : Bool)
  | fin (neg : Bool) (m : Nat) (e : Int)
deriving DecidableEq, Repr

/-- A byte of a vector register: a value, or an undefined one of a given seed (R5, R34). -/
inductive BCell where
  | val (b : Byte)
  | undef (n : Nat)
deriving DecidableEq, Repr

/-- A vector register (R57, R69 to R71). `bytes` is keyed by lane × 64 + byte of the slice, lanes counted from the row's base;
a byte not listed is as `fill` says. -/
structure VReg where
  tag : Tag
  hwm : Nat
  fill : BCell
  bytes : FMap BCell
deriving DecidableEq, Repr

/-- A mask m1 to m7 (R73): its form and its set elements, ascending. -/
structure MaskV where
  list : Bool
  set : List Nat
deriving DecidableEq, Repr

/-- STRIP (R63). -/
structure StripV where
  opn : Bool
  nr : Bool
  cause : Nat
deriving DecidableEq, Repr

/-- A set of register slices, one per row context, with the state that stays in it at pre-emption (R326, R327). -/
structure Slice where
  /-- Owner token of the contents, 0 for none; with the owner's effective width, base lane and declared registers. -/
  owner : Nat
  w : Nat
  base : Nat
  nreg : Nat
  v : Vector VReg 32
  m : Vector MaskV 8
  vl : Nat
  ew : Nat
  grp : Nat
  vestart : Nat
  vdirty : BitVec 32
  strip : StripV
  /-- Register words with a parity error (R379): register × 8 + word and lane, with its bytes not written since, as a mask. -/
  parity : List ((Nat × Nat) × Nat)
deriving DecidableEq, Repr

/-- An entry of a seed, drain or receive queue (R48, R185). -/
structure QEnt where
  v : Word
  tag : Tag
  /-- A receive-queue entry that the vector-fetched block under way has sent (R185). -/
  blk : Bool := false
deriving DecidableEq, Repr

/-- The flat place of a physical byte: HBM and host memory at their physical address (R346), core SRAM `c` at 2^52 + c × 2^22,
scratchpad `c` at 2^53 + c × 2^19, control page `c` at 2^54 + c × 2^12; with the key of an encrypted page (R360; 0 for
plaintext, p + 1 for partition p) and the HOME of its leaf. -/
structure Loc where
  key : Nat
  enc : Nat
  home : Nat
deriving DecidableEq, Repr

/-- One item a buffered or travelling write applies (R195, R200, R204): bits of a byte, or an indivisible add. -/
inductive WItem where
  /-- The bits of `mask` of the byte at `loc` take those of `b`. -/
  | byte (loc : Loc) (mask b : Byte)
  /-- `vstxa`: add `v` to the `t`-bit element at `locs`, under the tag. -/
  | add (locs : List Loc) (tag : Tag) (v : Nat)
deriving DecidableEq, Repr

/-- A write on its way to its home (R232, R237, R240). -/
structure PWrite where
  id : Nat
  thread : Tid
  cluster : Nat
  part : Nat
  /-- A scalar store: its cluster's scalar loads see it, and its scalar L1 copy is updated in place. -/
  scalar : Bool
  /-- The operation it belongs to. -/
  op : Option Nat
  items : List WItem
deriving DecidableEq, Repr

/-- A captured shape record (R107). -/
structure Shape where
  base : Nat
  rank : Nat
  fmt : Fmt
  ext : List Nat
  str : List Int
deriving DecidableEq, Repr

/-- A fetched stream entry (R56, R208, R211): a value with the flags its conversion raised, or poison. -/
inductive SEnt where
  | ok (v : Nat) (flags : Nat)
  | poison (code : Code) (addr : Nat)
deriving DecidableEq, Repr

/-- A bound stream register (R208, R209). `got` holds the fetched entries still kept, by position. -/
structure Stream where
  shape : Shape
  idx : Option (List Nat)
  total : Nat
  tag : Tag
  got : FMap SEnt
  fetched : Nat
  pos : Nat
  /-- Position up to which a waiting word needs entries (R148). -/
  want : Nat
deriving DecidableEq, Repr

/-- A bound watermark register (R217). -/
structure Wmark where
  addr : Word
  cls : PubCls
  cp : Word
deriving DecidableEq, Repr

/-- A convergence register (R299): its members, those that signed, the class, and the latch load of R272: word,
base, stride, and the address of its `cvinit`. -/
structure Conv where
  members : List Nat
  signed : List Nat
  cls : Cls
  load : Option (BitVec 32 × Word × Word × Word)
deriving DecidableEq, Repr

/-- The rind (R35). -/
structure Rind where
  pc : Word
  x : Vector Word 32
  vl : Nat
  tags : Vector Tag 32
  ew : Nat
  grp : Nat
  m : Vector MaskV 8
  seedQ : List QEnt
  drainQ : List QEnt
  recvQ : List (Nat × QEnt)
  spos : List Nat
  /-- The identity that the first operation of the strip takes (R37). -/
  first : Nat := 0
deriving DecidableEq, Repr

/-- An arrival register (R289). -/
structure Arrival where
  addr : Word
  gen : Nat
  proxy : Bool
deriving DecidableEq, Repr

/-- What a thread waits for (R281). A thread with no wait and no freeze is ready. -/
inductive Wait where
  /-- `vjoin` (R46): target register, entry, cycle at which the timeout expires. -/
  | vjoin (d : Reg) (j deadline : Nat)
  /-- A release fence, or the release half of an ordered access (R234). -/
  | fence (sc : Scope)
  /-- A queued lock request: the dword, and where xd goes (R295). -/
  | lock (d : Reg) (key : Nat)
  /-- A monitored wait: the dword and the value it must differ from (R298). -/
  | waitm (d : Reg) (key : Nat) (v : Word)
  /-- A barrier: the record and the generation waited on (R291). -/
  | bar (key gen : Nat)
  /-- `evwait` on the dword (R147). -/
  | event (key : Nat)
  /-- `setvlw`: target, grant and watermark register (R132). -/
  | setvlw (d : Reg) (vl : Nat) (n : Nat)
  /-- `mxon` while another row holds the unit (R246). -/
  | mxon
  /-- `cvsign` (R300). -/
  | cvsign (n : Nat)
  /-- A thread-mode `qrcv` or `qsnd` (R50). -/
  | queue
  /-- A thread-mode quad exchange (R52). -/
  | quad
  /-- `fstep`: the handler waits for the step of the record to end (R320). -/
  | fstep (rec : Nat)
  /-- Held at a faulting instruction while the fault queue is full (R308). -/
  | faultHeld
deriving DecidableEq, Repr

/-- The state of a thread that both control threads and handler threads have (R57, R309). -/
structure Thread where
  x : Vector Word 32
  pc : Word
  gwct : Nat
  arrival : Option Arrival
  /-- The landing barrier (R292). -/
  landing : Option Word
  wait : Option Wait
  /-- The frozen record it is frozen under. -/
  frozen : Option Nat
deriving DecidableEq, Repr

/-- The states of a VP (R26). -/
inductive VPState where
  | lock
  | thr
  | park (j : Nat)
  | stop
  | froz
deriving DecidableEq, Repr

/-- The rest of a thread block that a VP outside every bundle has still to run (R30, R281, R319): the place of its next word, which is past the
last one where the block only waits for its operations, the operations it issued without a flag (R32), and whether its words are to be fetched
again. -/
structure Mid where
  header : Word
  hd : Header
  words : List (BitVec 32)
  idx : Nat
  ops : List Nat
  stale : Bool
deriving DecidableEq, Repr

/-- A virtual processor that has left LOCK, or holds flags (R26, R32, R57). -/
structure VP where
  st : VPState
  fetch : Word
  flags : List Nat
  gwct : Nat
  arrival : Option Arrival
  landing : Option Word
  wait : Option Wait
  frozen : Option Nat
  /-- The cycle in which it became ready at a block boundary, or to go on with its block (R345). -/
  since : Nat
  /-- The block it is in the midst of while no bundle holds it. -/
  mid : Option Mid
  /-- An `fstep` of the VP's record is under way: it ends at the next block boundary (R320). -/
  stepping : Option Nat
  /-- A signature that stands while its `cvsign` has not returned (R285): the register, and whether the register completed. -/
  sign : Option (Nat × Bool)
deriving DecidableEq, Repr

/-- A vector-fetched block issued and not ended (R31, R97, R137), with the captured operands, or the rest of one that a
resumed thread still has to run (R319). -/
structure LaneRun where
  vfpc : Word
  header : Word
  hd : Header
  words : List (BitVec 32)
  idx : Nat
  started : Bool
  x : Vector Word 32
  sb : Vector Word 8
  /-- x registers at the `vf`, for a truncated commit of the run-ahead (R37). -/
  xs : Vector Word 32
  /-- Operations it issued for which the header names no flag (R32). -/
  ops : List Nat
  /-- Operations it issued under a flag (R33). -/
  flagged : List Nat
  /-- Queue sends of the block by element, and receives done (R49). -/
  sends : FMap (List QEnt)
  rcvd : FMap Nat
  /-- Its words are fetched and decoded when it starts: a block queued behind another, or the rest of one a resumed thread runs (R105, R319). -/
  late : Bool
  /-- The cycle in which its next word became ready (R53). -/
  since : Nat
  /-- Entries that a `qseed` after its `vf` appends: they enter the seed queue when the block has ended (R37, R142). -/
  seeded : List QEnt := []
deriving DecidableEq, Repr

/-- A member of a bundle: its element, the next word, and whether its block has ended. -/
structure BMem where
  e : Nat
  idx : Nat
  fin : Bool
  ops : List Nat
deriving DecidableEq, Repr

/-- A bundle (R42). -/
structure Bundle where
  header : Word
  hd : Header
  words : List (BitVec 32)
  mem : List BMem
  /-- The cycle in which its next word became ready (R53). -/
  since : Nat
deriving DecidableEq, Repr

/-- Elements a `tf` or `tfc` holds at the end of a block (R41). -/
structure Held where
  elems : List Nat
  target : Word
  since : Nat
  run : LaneRun
deriving DecidableEq, Repr

/-- An armed drain block (R264). -/
structure DrainBlk where
  header : Word
  hd : Header
  words : List (BitVec 32)
  x : Vector Word 32
  sb : Vector Word 8
  /-- FRM and VXRM as a drain read them when it started, with its operation; none before that (R265). -/
  rm : Option (Nat × Nat)
  /-- The scales and zero points of a `mdrain.sz`, read when it started, with the flags of their signalling NaNs (R251, R266). -/
  sc : Option (List (XF × XF) × Nat) := none
  /-- Words of the block that the current row has passed through (R265, R344). -/
  pos : Nat := 0
  /-- The cycle since when the next word is ready (R53). -/
  since : Nat := 0
deriving DecidableEq, Repr

/-- A row (R17, R57, R339): its placement, its control thread, its VPs and the scalar state of R326. -/
structure Row where
  id : Nat
  part : Nat
  launch : Nat
  team : Nat
  rowid : Nat
  cls : Cls
  roleIx : Nat
  nregCode : Nat
  tslots : Nat
  sram : Nat
  prio : Nat
  ltag : Nat
  image : Nat
  cluster : Nat
  /-- The row context while resident. -/
  ctx : Option Nat
  dwidth : Nat
  w : Nat
  base : Nat
  place : Word
  owner : Nat
  vvalid : Bool
  pool : Nat
  th : Thread
  cf : List Nat
  /-- Outstanding operations of each class (R140), the next issue position of each. -/
  cnt : List Nat
  seqs : List Nat
  cv : List (Option Conv)
  streams : List (Option Stream)
  wm : List (Option Wmark)
  sb : Vector Word 8
  rind : Option Rind
  /-- The store buffer of the open strip in program order, with the bytes each lane buffers (R36, R200). -/
  buf : List WItem
  bufCnt : FMap Nat
  /-- Registers and masks the open strip has read before writing them, and those it has written (R36, R37). -/
  srd : List Nat
  swr : List Nat
  seedQ : List QEnt
  drainQ : List QEnt
  recvQ : List (Nat × QEnt)
  vps : FMap VP
  blocks : List LaneRun
  held : Option Held
  bundles : List Bundle
  vxrm : Nat
  vsat : Bool
  frm : Nat
  fflags : Nat
  /-- MXMODE: zp, band, on (R65). -/
  zp : Bool
  band : Bool
  mxon : Bool
  mxrow : Nat
  mxk : Nat
  drain : Option DrainBlk
  starve : Nat
  locks : Nat
  holder : Bool
  /-- It is of a team placed whole, whose rows stop and resume together (R279). -/
  whole : Bool
  /-- Cycles of the present tick in which the scalar pipeline, and the vector sequencer, issued words of the row (R282). -/
  issued : Nat × Nat := (0, 0)
  /-- Time of promotion and cycles issued since (R282). -/
  promo : Option (Nat × Nat)
  yielded : Bool
  /-- Cycle of a pre-emption request not yet served (R326). -/
  preempt : Option Nat
  /-- Time at which it was pre-empted, while not resident. -/
  away : Option Nat
  /-- An `fstep` of its record is under way (R320): the record. -/
  stepping : Option Nat
  /-- The stepped `vf` whose block has not ended: the step ends with it. -/
  stepVf : Option Word
  /-- Overlay binding in effect: VBASE, LEN, SPOFF (R324). -/
  bind : Nat × Nat × Nat
  /-- The bytes of the overlay as the row fetches them: those of the scratchpad when its fetched words were last discarded (R130). -/
  code : List Host.Cell
deriving DecidableEq, Repr

/-- A handler slot (R309, R310). -/
structure HThread where
  slot : Nat
  cluster : Nat
  part : Nat
  level : Nat
  th : Thread
  /-- k0 to k3: the records named (R312). -/
  k : List (Option Nat)
  ready : Nat
  bind : Nat × Nat × Nat
  /-- The bytes of the overlay as it fetches them (R130). -/
  code : List Host.Cell
  /-- An `fstep` of its record is under way (R320): the record. -/
  stepping : Option Nat
deriving DecidableEq, Repr

/-- Where a frozen record stands (R308, R309, R312). -/
inductive RecSt where
  /-- Waits in the fault queue. -/
  | queued
  /-- Held by a capability of a handler slot. -/
  | handled (h : Nat)
  /-- Waits behind the first record of the same party (R308). -/
  | behind
deriving DecidableEq, Repr

/-- A frozen record (R307) with the party it freezes. -/
structure FRec where
  id : Nat
  who : Tid
  part : Nat
  cluster : Nat
  st : RecSt
  code : Code
  party : Nat
  course : Nat
  level : Nat
  token : Word
  pc : Word
  resume : Word
  header : Word
  pos : Nat
  blk : Bool
  unit : Nat
  strip : Nat
  field : Nat
  f : Nat
  addr1 : Word
  addr2 : Word
  vvalid : Bool
  sowner : Nat
  /-- The block that a BLK = 1 record still has to run (R319). -/
  run : Option LaneRun
  /-- The engine or matrix operation of an asynchronous fault (R216). -/
  op : Option Nat
deriving DecidableEq, Repr

/-- What an outstanding operation does (R140, R189, R205, R213 to R225, R259). -/
inductive OpKind where
  /-- `vpld`: destination, tag, seed of its bytes until they are written (R34), and the values by element. -/
  | vpld (vd : Nat) (tag : Tag) (seed : Nat) (elems : List (Nat × Nat))
  /-- `vpst` of these elements, whose writes travel on their own. -/
  | vpst (elems : List Nat)
  /-- `vpamo`: as `vpld`, with the old values. -/
  | vpamo (vd : Nat) (tag : Tag) (seed : Nat) (elems : List (Nat × Nat))
  /-- A `tsetf` marker: the operations it waits for (R188). -/
  | marker (ops : List Nat)
  /-- `vfg`: format, result tag, seed as for `vpld`, per element its address and its bytes' places (none for one an earlier store of the strip
  wrote), and whether the far request has been sent. -/
  | vfg (vd : Nat) (fmt : Fmt) (tag : Tag) (seed : Nat) (elems : List (Nat × Nat × List (Option Loc))) (sent : Bool)
  /-- `cpy` or `cpyx`: destination, source, source indices of the slices. -/
  | cpy (dst src : Shape) (idx : Option (List Nat))
  | cflush (src : Shape)
  /-- `rput`: remote, local. -/
  | rput (dst src : Shape)
  /-- `rget`: local, remote. -/
  | rget (dst src : Shape)
  | ramo (d : Reg) (op : AmoOp) (word : Bool) (od : Order) (addr v exp : Word)
  /-- Descriptor, event dword, and which of the partition's accepted collectives it is (R372). -/
  | coll (desc : List Nat) (event ordinal : Nat)
  /-- `wmpub`: the watermark's address and places, the value (R218). -/
  | wmpub (va : Nat) (locs : List Loc) (v : Word)
  /-- Matrix operations (R251), in issue order in the unit's queue. -/
  | mzero
  | mlat (side half : Bool) (base stride : Word) (fmt : Fmt) (cv : Bool)
  | mlatg (half : Bool) (base : Word) (vi : Reg) (fmt : Fmt) (cv : Bool)
  | mlatv (side half : Bool) (vs : Reg)
  | mlut (vc : Reg)
  | mop (zp ha hb : Bool) (k : Nat)
  | mband (side : Bool) (vs : Reg)
  | mfold
  /-- Rows, scale and zero-point registers, and the block armed at its issue. -/
  | mdrain (n : Nat) (scaled : Option (Reg × Reg)) (blk : DrainBlk)
  | mrow (n : Nat)
deriving DecidableEq, Repr

/-- An outstanding operation. -/
structure Op where
  id : Nat
  row : Nat
  part : Nat
  cluster : Nat
  kind : OpKind
  /-- Class of R140 and issue position in it. -/
  cls : Option Nat
  seq : Nat
  pc : Word
  /-- Flags it counts against: thread and flag (R32, R33). -/
  flags : List (Tid × Nat)
  /-- The VP that issued it in thread mode. -/
  vp : Option Nat
  /-- First element still to do (R216). -/
  f : Nat
  started : Bool
  /-- The landing barrier bound at issue (R292). -/
  landing : Option Word
  /-- ET of issue (R371). -/
  since : Nat
  /-- Stopped at a fault until its record is resolved. -/
  stopped : Bool
deriving DecidableEq, Repr

/-- A latch half (R253): cells by row × 128 + k, unlisted +0; scales by row, unlisted 1.0; origin in bits. -/
structure LHalf where
  cells : FMap XF
  scale : FMap XF
  origin : Nat
deriving DecidableEq, Repr

/-- The matrix unit of a cluster (R246, R253, R261). acc, part and rowsum are held in v15 to v31 of the holder (R248). -/
structure MUnit where
  holder : Option Nat
  /-- Rows waiting to hold, in request order. -/
  waiting : List Nat
  half : List LHalf
  lastA : Bool
  lastB : Bool
  codebook : List Nat
  bandk : Nat
  openHA : Bool
  openHB : Bool
  throttled : Bool
deriving DecidableEq, Repr

/-- A cluster (R14, R16). -/
structure Cluster where
  /-- Physical lanes out of service, 33 the XOR lane (R15, R16). -/
  retired : List Nat
  /-- Lanes with corrected events waiting for retirement: lane, times (R379). -/
  events : List (Nat × Nat)
  outOfService : Bool
  mx : MUnit
  /-- Images resident: image, scratchpad offset, bytes reserved, rejoin entries (R337, R339). -/
  images : List (Nat × Nat × Nat)
  rejoin : List (Nat × Nat × Nat)
  /-- Context that won the first issue slot last (R342). -/
  last : Nat
  /-- The regrouping that comes next: cycle 4 × this number or a later one (R42). -/
  regroup : Nat
  /-- Die stopped for temperature (R386). -/
  stoppedHot : Bool
deriving DecidableEq, Repr

/-- A lease of a scalar L1 copy (R231): the line, its bytes, and its end. -/
structure L1Copy where
  cluster : Nat
  line : Nat
  stop : Nat
  bytes : List (BitVec 8)
deriving DecidableEq, Repr

/-- A TLB entry (R353): partition, first virtual address, page size, leaf entry, and the place of the leaf. -/
structure TlbEnt where
  part : Nat
  base : Nat
  size : Nat
  leaf : Word
  entry : Nat
deriving DecidableEq, Repr

/-- Bytes bound to a landing barrier whose write has a GWCT (R242). -/
structure Landing where
  bar : Loc
  part : Nat
  gwct : Nat
  n : Nat
deriving DecidableEq, Repr

/-- Waiters of a released barrier whose die group is not yet ready (R293). -/
structure BarGroup where
  time : Nat
  threads : List Tid
deriving DecidableEq, Repr

/-- A request of TLBINV (R354): its kind and page, the GWCTMAX of the requester's earlier stores and atomics, and those of its stores that have
not returned their GWCT. -/
structure InvReq where
  kind : Nat
  page : Nat
  gwct : Nat
  after : List Nat
deriving DecidableEq, Repr

/-- Memory, the homes and the caches (R228 to R232, R346 to R360). -/
structure Mem where
  /-- Bytes by flat place; an unlisted byte reads as 0. -/
  cells : List Host.Cell
  /-- Key a byte was written under, where not plaintext (R360). -/
  keys : FMap Nat
  /-- Poisoned lines (R358). -/
  poison : List Nat
  /-- Writes on their way, oldest first (R232, R237). -/
  writes : List PWrite
  l1 : List L1Copy
  /-- Latest lease end granted: line × 128 + cluster (R232). -/
  leases : FMap Nat
  tlbC : FMap (List TlbEnt)
  tlbD : FMap (List TlbEnt)
  /-- Entries the walks have given, each with whether no invalidation that names it has completed since (R355). -/
  maps : List (TlbEnt × Bool)
  /-- Lines of HOME 10 accessed: pinned, or beyond what their slice pins (R347). -/
  pins : FMap Bool
  /-- Lock requests and event requests at homes, in arrival order: dword, thread (R147, R295). -/
  lockQ : List (Nat × Tid × Cls)
  eventQ : List (Nat × Tid)
  landing : List Landing
  groups : List BarGroup
deriving DecidableEq, Repr

/-- A launch the engine has accepted and started (R333, R335, R336, R341). -/
structure Launch where
  id : Nat
  part : Nat
  q : Nat
  seq : Nat
  image : Nat
  args : Nat
  teams : Nat
  /-- MIX: role index, rows. -/
  mix : List (Nat × Nat)
  done : Nat
  doneEv : Nat
  /-- Next team to place, its ROWIDs already placed, its die (R338), and the cycle its first rows were placed in (R282). -/
  next : Nat
  placed : List Nat
  die : Option Nat
  since : Nat
  /-- ET since which its candidate does not fit, and whether it is blocking, with the die chosen (R336). -/
  unfit : Option Nat
  blocking : Option (Nat × Nat)
  killed : Nat
  forced : Bool
  /-- Greatest GWCTMAX of its ended threads (R244). -/
  gwct : Nat
  /-- Writes of its ended rows still on their way, whose GWCTs it takes (R244). -/
  late : List Nat
  /-- Remote operations of its ended rows that their targets have not acknowledged (R244). -/
  remote : List Op := []
  /-- The GWCT of its completion record, once that is written (R244, R341). -/
  recorded : Option Nat := none
  rejected : Bool
deriving DecidableEq, Repr

/-- A hardware queue as the engine keeps it (R330). -/
structure QKept where
  ring : Word
  dev : Bool
  log2 : Nat
  en : Bool
  seenOff : Bool
  /-- DEPEV of the launch at the head has been consumed (R335). -/
  consumed : Bool
  evQueued : Bool
  /-- PRIO and WEIGHT as last read (R330). -/
  prio : Nat
  weight : Nat
  /-- The slot of the launch at the head, read when it reached the head (R331). -/
  slot : Option (List Byte)
deriving DecidableEq, Repr

/-- A snapshot of a partition (R374 to R376), as a region holds it or as it travels over the Felok links: its trailer, the bytes of the
HBM ranges by physical address, and the rows, operations, register images and launches it holds. -/
structure SnapData where
  /-- The writer's GROUP. -/
  group : Nat
  /-- The writer's SELF. -/
  self : Nat
  /-- Its size in bytes, the trailer included. -/
  size : Nat
  /-- The snapshot is whole. -/
  complete : Bool
  /-- The HBM ranges it holds: first byte, size. -/
  ranges : List (Nat × Nat)
  cells : List (Nat × Byte)
  /-- The places of them written under the partition's key (R360). -/
  keyed : List Nat
  /-- Operations of the rows not complete yet. -/
  ops : List Op
  /-- Collectives the partition has had accepted (R372). -/
  collSeq : Nat
  rows : List Row
  /-- Slice sets the rows own, by key. -/
  slices : FMap Slice
  launches : List Launch
  kept : FMap QKept
deriving DecidableEq, Repr

/-- A snapshot region as it was last written (R376): its first byte, its size, the free value its bytes are of, and what it holds. -/
structure SnapRegion where
  base : Nat
  size : Nat
  seed : Nat
  snap : SnapData
deriving DecidableEq, Repr

/-- What measured energy was spent on (R385). -/
inductive Activity where
  /-- Work of a row's or a handler's thread. -/
  | work (t : Tid)
  /-- Pre-emption save of a row. -/
  | save (row : Nat)
  /-- Restore of a row. -/
  | restore (row : Nat)
  /-- Patrol scrub. -/
  | scrub
  /-- An in-field test. -/
  | test
  /-- The idle floor. -/
  | idle
  /-- Ballast for the activity steps of one window of 8 ns: partition, size of its step. -/
  | ballast (steps : List (Nat × Nat))
deriving DecidableEq, Repr

/-- What the sensors read (R386): die temperatures, 16 points a die, stack temperatures, rail voltages in mV, and power in W of each die, of each
stack and of the hub. -/
structure Sensors where
  dieTemp : List Nat := []
  stackTemp : List Nat := []
  rails : List Nat := []
  diePower : List Nat := []
  stackPower : List Nat := []
  hubPower : Nat := 0
deriving DecidableEq, Repr

/-- The arguments of a device event (spec/95): an event takes the ones its meaning names. They come with the event, from the
agenda of the state or from the arbiter. -/
structure EvArg where
  /-- Row, cluster, partition, operation or other first number of the event. -/
  a : Nat := 0
  /-- Element, queue, lane or other second number. -/
  b : Nat := 0
  /-- A choice the spec leaves open, or the outcome of a test. -/
  flag : Bool := false
  /-- A second outcome. -/
  flag2 : Bool := false
  /-- A value: register data, a virtual address, an instruction word. -/
  w : BitVec 64 := 0
  /-- The thread concerned. -/
  t : Tid := .ctl 0
  /-- Figures: powers. -/
  l : List Nat := []
  /-- Measured energies in µJ, with what they were spent on. -/
  charges : List (Activity × Nat) := []
  /-- A reading of the sensors. -/
  sensors : Sensors := {}
  /-- Bytes. -/
  bytes : List (BitVec 8) := []
  /-- A remote operation. -/
  req : Option RemoteReq := none
  /-- A remote answer. -/
  ack : Option RemoteAck := none
  /-- Members of a collective. -/
  members : List Member := []
  /-- A firmware image. -/
  image : Option FwImage := none
  /-- A snapshot. -/
  snap : Option SnapData := none
deriving DecidableEq, Repr

/-- The launch engine (R330 to R341). -/
structure Engine where
  kept : FMap QKept
  launches : List Launch
  nextId : Nat
  nextRow : Nat
  /-- Round-robin position of each priority: queue, teams placed in its turn (R336). -/
  turn : FMap (Nat × Nat)
  /-- Context-pool slots in use: partition × 1024 + slot (R339). -/
  pool : List Nat
deriving DecidableEq, Repr

/-- A partition (R354, R360, R365, R375, R376, R380, R383, R385). -/
structure Part where
  desc : Vector Word 20
  keyCreated : Bool
  keyReleased : Bool
  /-- TLBINV requests made and completed; those not complete, oldest first (R354). -/
  invReq : Nat
  invDone : Nat
  invs : List InvReq
  snapState : Nat
  /-- LIST of the snapshot under way (R375). -/
  snapList : Nat
  /-- Its span-wide barrier is not complete yet (R375). -/
  snapBar : Bool
  snapRgn : Vector Word 4
  own : Option SnapRegion
  peer : Option SnapRegion
  floorw : Nat
  effw : Nat
  notify : Nat
  grant : Nat
  energy : Nat
  collSeq : Nat
  /-- Scratchpad bytes reserved for handlers in its clusters (R325). -/
  hres : Nat
deriving DecidableEq, Repr

/-- The horologer and the power controls (R359, R361, R378 to R390). -/
structure Mgmt where
  capw : Nat
  capStatus : Nat
  idle : Nat
  /-- ET since which power has been over the cap with every partition above its floor at grant 1 (R383). -/
  overSince : Option Nat
  overhead : Nat
  logCount : Nat
  /-- The event log ring: ET, code, partition, cluster, data (R387). -/
  log : List (List Nat)
  /-- The sensors' last reading (R386). -/
  sensors : Sensors
  /-- Allowed activity of each cluster's regulator, in eighths of its peak (R384). -/
  slew : List Nat
  corrected : Nat
  /-- The rows of HBM that repairs replace, of the repair tables (R361). -/
  repairs : List Nat
  layout : FMap Byte
  slotA : Option FwImage
  slotB : Option FwImage
  activeB : Bool
  staged : Bool
  rollback : Nat
  /-- SPDM session: requests done in order, the hash measurements were read under, session open (R390). -/
  spdm : List Nat
  /-- The key of the session that KEY_EXCHANGE began (R390). -/
  key : Option Nat
  /-- Members of a span that have failed: GROUP, SELF (R377). -/
  failed : List (Nat × Nat)
  /-- ET at which each of its ports answered a heartbeat last. -/
  heartbeat : FMap Nat
  /-- ET of the last answer of each member: GROUP, SELF, time (R377). -/
  heard : List (Nat × Nat × Nat)
  /-- Snapshots sent over the Felok links: the SELF they go to (R374, R376). -/
  snapOut : List (Nat × SnapData)
  /-- Answers to the outside: host reads, SPDM answers, heartbeats. -/
  outbox : List (List Nat)
deriving DecidableEq, Repr

/-- The faults of the device (R307, R308): the cave, the queue of each die as record numbers, and the records of
operations that a full queue holds, in the order their faults were found. -/
structure Cave where
  recs : List FRec
  next : Nat
  queue : List (List Nat)
  heldOps : List FRec
deriving DecidableEq, Repr

/-- The actor whose word issues next: the model's own choice of order (R53, R342, R344). -/
inductive Actor where
  /-- The control thread of a row. -/
  | ctl (row : Nat)
  /-- A handler thread. -/
  | hnd (h : Nat)
  /-- The oldest started vector-fetched block of a row. -/
  | lanes (row : Nat)
  /-- Bundle `b` of a row. -/
  | bundle (row b : Nat)
  /-- The drain at the head of a row's matrix unit (R265). -/
  | drain (row : Nat)
deriving DecidableEq, Repr

/-- Time and order (R13; the agenda, the issue list and the free-value counter are the model's own). -/
structure Clock where
  et : Nat
  cycle : Nat
  free : Nat
  nextId : Nat
  agenda : List (Instr × EvArg)
  issue : List Actor
  arg : EvArg
  turn : Nat
deriving DecidableEq, Repr

/-- The state of the DV9. -/
structure State where
  clock : Clock
  mem : Mem
  rows : List Row
  handlers : List HThread
  slices : FMap Slice
  clusters : FMap Cluster
  ops : List Op
  cave : Cave
  engine : Engine
  parts : Vector Part 16
  mgmt : Mgmt
deriving DecidableEq, Repr

/-- Why a step stops with a fault. The faults of the spec are frozen records and so next states (R8, R305); these are the
stops of the device itself. -/
inductive Fault where
  /-- DEVICE_RESET: neither firmware slot passes its self-test, and R389 names no further fall-back. Safe: the spec gives no
  next state. -/
  | noBootableFirmware
deriving DecidableEq, Repr

/-- Why a step is refused. -/
inductive Refusal where
  /-- An instruction without a meaning: none once every arm has one. Safe. -/
  | notModelled (mnemonic : String)
  /-- An instruction word is given with no thread at the head of the issue list to run it, or one that cannot run it: no
  machine state executes it. Safe. -/
  | noActor
  /-- A device event is given in a state in which its rule does not let it happen. Safe. -/
  | notEnabled (event : String)
deriving DecidableEq, Repr

/-- A vector register at row creation (R57): contents undefined, tag none, HWM 0. -/
def VReg.fresh (seed : Nat) : VReg := { tag := .none, hwm := 0, fill := .undef seed, bytes := [] }

/-- A mask at row creation (R57). -/
def MaskV.fresh : MaskV := { list := false, set := [] }

/-- No strip open (R63). -/
def StripV.closed : StripV := { opn := false, nr := false, cause := 0 }

/-- A latch half in the acquisition state (R253). -/
def LHalf.fresh : LHalf := { cells := [], scale := [], origin := 16 }

/-- The matrix unit in its acquisition state (R253, R268). -/
def MUnit.fresh : MUnit :=
  { holder := none, waiting := [], half := [LHalf.fresh, LHalf.fresh, LHalf.fresh, LHalf.fresh], lastA := false,
    lastB := false, codebook := List.replicate 16 0, bandk := 0, openHA := false, openHB := false, throttled := false }

/-- A cluster as shipped (R16): every lane in service, the XOR lane with them, so XOROK reads 1: the repair tables that R23 takes it from are
given no content (DESIGN CHOICE, log 63). -/
def Cluster.shipped : Cluster :=
  { retired := [], events := [], outOfService := false, mx := MUnit.fresh, images := [], rejoin := [], last := 25,
    regroup := 0, stoppedHot := false }

/-- A partition after device reset (R365, R375, R376, R380, R383, R385). -/
def Part.reset : Part :=
  { desc := Vector.replicate 20 0, keyCreated := false, keyReleased := false, invReq := 0, invDone := 0, invs := [],
    snapState := 0, snapList := 0, snapBar := false, snapRgn := Vector.replicate 4 0, own := none, peer := none, floorw := 0, effw := 0, notify := 0,
    grant := 16, energy := 0, collSeq := 0, hres := 0 }

/-- The state right after device reset (R4): the values the spec gives, and for the rest those of the assumption log. -/
def State.reset : State :=
  { clock := { et := 0, cycle := 0, free := 0, nextId := 1, agenda := [], issue := [], arg := {}, turn := 0 }
    mem := { cells := [], keys := [], poison := [], writes := [], l1 := [], leases := [], tlbC := [], tlbD := [], maps := [], pins := [], lockQ := [],
             eventQ := [], landing := [], groups := [] }
    rows := []
    handlers := []
    slices := []
    clusters := []
    ops := []
    cave := { recs := [], next := 0, queue := List.replicate 8 [], heldOps := [] }
    engine := { kept := [], launches := [], nextId := 0, nextRow := 0, turn := [], pool := [] }
    parts := Vector.replicate 16 Part.reset
    mgmt := { capw := 2400, capStatus := 0, idle := 0, overSince := none, overhead := 0, logCount := 0, log := [], sensors := {},
              slew := List.replicate 128 0, corrected := 0, repairs := [], layout := [], slotA := none, slotB := none,
              activeB := false, staged := false, rollback := 0, spdm := [], key := none, failed := [], heartbeat := [], heard := [], snapOut := [], outbox := [] } }

end Sys2Proof.Machine
end

