-- ==== Sys2Proof/Machine/Ops.lean ====
section
/-! DEFINITION. The named operations over the state: finite maps, rows and threads, memory bytes, translation, the homes, and
the raising of a fault (R37, R305 to R308) with the return from it. -/

namespace Sys2Proof.Machine

/-! Finite maps. -/

/-- The entry at `k`. -/
def FMap.get? {α : Type} : FMap α → Nat → Option α
  | [], _ => none
  | (j, a) :: t, k => if j = k then some a else if k < j then none else FMap.get? t k

/-- The entry at `k`, or `d`. -/
def FMap.getD {α : Type} (m : FMap α) (k : Nat) (d : α) : α := (FMap.get? m k).getD d

/-- Set the entry at `k`, keeping the keys rising. -/
def FMap.set {α : Type} : FMap α → Nat → α → FMap α
  | [], k, a => [(k, a)]
  | (j, b) :: t, k, a => if k < j then (k, a) :: (j, b) :: t else if j = k then (k, a) :: t else (j, b) :: FMap.set t k a

/-- Drop the entry at `k`. -/
def FMap.erase {α : Type} : FMap α → Nat → FMap α
  | [], _ => []
  | (j, b) :: t, k => if j = k then t else (j, b) :: FMap.erase t k

/-- A vector with each entry changed. -/
def mapVec {α β : Type} {n : Nat} (f : α → β) (v : Vector α n) : Vector β n := ⟨(v.toList.map f).toArray, by simp⟩

/-- A vector by its entries. -/
def genVec {α : Type} (n : Nat) (f : Fin n → α) : Vector α n := ⟨((List.finRange n).map f).toArray, by simp⟩

/-- Insert into a rising list without repeats. -/
def insertNat (k : Nat) : List Nat → List Nat
  | [] => [k]
  | j :: t => if k < j then k :: j :: t else if k = j then j :: t else j :: insertNat k t

/-- The greatest of a list, 0 for none. -/
def maxL (l : List Nat) : Nat := l.foldl max 0

/-- The sum of a list. -/
def sumL (l : List Nat) : Nat := l.foldl (· + ·) 0

/-- The unsigned value of the low `n` bits, sign-extended (R75). -/
def sextI (v n : Nat) : Int :=
  let u := v % 2 ^ n
  if n ≠ 0 ∧ 2 ^ (n - 1) ≤ u then (u : Int) - (2 ^ n : Nat) else (u : Int)

/-- The low `n` bits of an integer (R6). -/
def lowBits (x : Int) (n : Nat) : Nat := (x % ((2 ^ n : Nat) : Int)).toNat

/-- The dword of an integer (R6). -/
def wordOf (x : Int) : Word := BitVec.ofInt 64 x

/-- A number from its bytes, least significant first (R1, R69). -/
def leNat : List Byte → Nat
  | [] => 0
  | b :: t => b.toNat + 256 * leNat t

/-- The `n` bytes of a number, least significant first. -/
def leBytes : Nat → Nat → List Byte
  | 0, _ => []
  | n + 1, v => BitVec.ofNat 8 v :: leBytes n (v / 256)

/-! Memory bytes. The canonical form: addresses strictly rising, no listed byte 0. -/

/-- The canonical form of memory: strictly rising places, no entry equal to the byte an unlisted place reads as. -/
def Memory.wf : List Host.Cell → Bool
  | [] => true
  | [(_, b)] => b != 0
  | (a, b) :: (c, d) :: t => b != 0 && decide (a < c) && Memory.wf ((c, d) :: t)

/-- The byte at a place; an unlisted place reads as 0 (DESIGN CHOICE, log 3). -/
def Memory.read : List Host.Cell → Nat → Byte
  | [], _ => 0
  | (a, b) :: t, k => if a = k then b else if k < a then 0 else Memory.read t k

/-- Write a byte, keeping the canonical form. -/
def Memory.write : List Host.Cell → Nat → Byte → List Host.Cell
  | [], k, v => if v = 0 then [] else [(k, v)]
  | (a, b) :: t, k, v =>
    if k < a then (if v = 0 then (a, b) :: t else (k, v) :: (a, b) :: t)
    else if k = a then (if v = 0 then t else (k, v) :: t)
    else (a, b) :: Memory.write t k v

/-- The byte at a physical place. -/
def State.byte (s : State) (k : Nat) : Byte := Memory.read s.mem.cells k

/-- `n` bytes from a physical place. -/
def State.bytesAt (s : State) (k n : Nat) : List Byte := (List.range n).map fun i => s.byte (k + i)

/-- The dword at a physical place. -/
def State.dwordAt (s : State) (k : Nat) : Nat := leNat (s.bytesAt k 8)

/-- Replace memory. -/
def State.setMem (s : State) (m : Mem) : State := { s with mem := m }

/-- Write bytes at a physical place, in plaintext. -/
def State.pokeBytes (s : State) (k : Nat) (bs : List Byte) : State :=
  { s with mem := { s.mem with
      cells := (bs.zipIdx).foldl (fun c p => Memory.write c (k + p.2) p.1) s.mem.cells
      keys := (bs.zipIdx).foldl (fun c p => FMap.erase c (k + p.2)) s.mem.keys } }

/-- Write bytes at offsets from a physical place, in plaintext. -/
def State.fillBytes (s : State) (k : Nat) (f : Nat → Byte) (l : List Nat) : State :=
  { s with mem := { s.mem with
      cells := l.foldl (fun c i => Memory.write c (k + i) (f i)) s.mem.cells
      keys := l.foldl (fun c i => FMap.erase c (k + i)) s.mem.keys } }

/-- First place of core SRAM `c` (R14). -/
def sramAt (c : Nat) : Nat := 2 ^ 52 + c * 2 ^ 22
/-- First place of the scratchpad of cluster `c` (R14). -/
def spadAt (c : Nat) : Nat := 2 ^ 53 + c * 2 ^ 19
/-- First place of the control page of cluster `c` (R323). -/
def ctlPageAt (c : Nat) : Nat := 2 ^ 54 + c * 2 ^ 12

/-! Free values and identities. -/

/-- Take a seed for an undefined value. -/
def State.fresh (s : State) : Nat × State := (s.clock.free, { s with clock := { s.clock with free := s.clock.free + 1 } })

/-- Take an identity for an operation or a write. -/
def State.newId (s : State) : Nat × State :=
  (s.clock.nextId, { s with clock := { s.clock with nextId := s.clock.nextId + 1 } })

/-! Rows, threads, slices, clusters, partitions. -/

/-- The row of a number. -/
def State.row? (s : State) (r : Nat) : Option Row := s.rows.find? (·.id == r)

/-- Replace a row. -/
def State.setRow (s : State) (r : Row) : State := { s with rows := s.rows.map fun q => if q.id = r.id then r else q }

/-- Change a row. -/
def State.modRow (s : State) (r : Nat) (f : Row → Row) : State :=
  { s with rows := s.rows.map fun q => if q.id = r then f q else q }

/-- The handler of a slot number. -/
def State.hnd? (s : State) (h : Nat) : Option HThread := s.handlers.find? (·.slot == h)

/-- Change a handler. -/
def State.modHnd (s : State) (h : Nat) (f : HThread → HThread) : State :=
  { s with handlers := s.handlers.map fun q => if q.slot = h then f q else q }

/-- A cluster; one not listed is as shipped. -/
def State.cluster (s : State) (c : Nat) : Cluster := FMap.getD s.clusters c Cluster.shipped

/-- Change a cluster. -/
def State.modCluster (s : State) (c : Nat) (f : Cluster → Cluster) : State :=
  { s with clusters := FMap.set s.clusters c (f (s.cluster c)) }

/-- Partition `p` (0 to 15). -/
def State.part (s : State) (p : Nat) : Part := s.parts[p]?.getD Part.reset

/-- Change a partition. -/
def State.modPart (s : State) (p : Nat) (f : Part → Part) : State :=
  { s with parts := s.parts.setIfInBounds p (f (s.part p)) }

/-- Dword `d` of a partition descriptor (R365). -/
def State.pdesc (s : State) (p d : Nat) : Nat := ((s.part p).desc[d]?.getD 0).toNat

/-- Partition `p` is enabled (R365). -/
def State.partOn (s : State) (p : Nat) : Bool := bit (s.pdesc p 15) 63

/-- The die of a cluster (R11). -/
def dieOf (c : Nat) : Nat := c / 16

/-- The key of a row's slice set. -/
def sliceKey (cluster ctx : Nat) : Nat := cluster * 16 + ctx

/-- A slice set nothing has used: owner 0, contents undefined. -/
def Slice.fresh (seed : Nat) : Slice :=
  { owner := 0, w := 4, base := 0, nreg := 0, v := Vector.replicate 32 (VReg.fresh seed), m := Vector.replicate 8 MaskV.fresh,
    vl := 0, ew := 2, grp := 0, vestart := 0, vdirty := 0, strip := StripV.closed, parity := [] }

/-- The slices of a resident row. -/
def State.slice (s : State) (r : Row) : Slice :=
  FMap.getD s.slices (sliceKey r.cluster (r.ctx.getD 0)) (Slice.fresh 0)

/-- Replace the slices of a row. -/
def State.setSlice (s : State) (r : Row) (sl : Slice) : State :=
  { s with slices := FMap.set s.slices (sliceKey r.cluster (r.ctx.getD 0)) sl }

/-- Change the slices of a row. -/
def State.modSlice (s : State) (r : Row) (f : Slice → Slice) : State := s.setSlice r (f (s.slice r))

/-- The thread record of a control thread or a handler. -/
def State.thread? (s : State) : Tid → Option Thread
  | .ctl r => (s.row? r).map (·.th)
  | .hnd h => (s.hnd? h).map (·.th)
  | .vp .. => none

/-- Change the thread record of a control thread or a handler. -/
def State.modThread (s : State) (t : Tid) (f : Thread → Thread) : State :=
  match t with
  | .ctl r => s.modRow r fun q => { q with th := f q.th }
  | .hnd h => s.modHnd h fun q => { q with th := f q.th }
  | .vp .. => s

/-- A VP that has never left LOCK (R26). -/
def VP.fresh : VP :=
  { st := .lock, fetch := 0, flags := List.replicate 12 0, gwct := 0, arrival := none, landing := none, wait := none,
    frozen := none, since := 0, mid := none, stepping := none, sign := none }

/-- VP `e` of a row. -/
def Row.vp (r : Row) (e : Nat) : VP := FMap.getD r.vps e VP.fresh

/-- Change a VP. -/
def Row.modVp (r : Row) (e : Nat) (f : VP → VP) : Row := { r with vps := FMap.set r.vps e (f (r.vp e)) }

/-- Change a VP of the state. -/
def State.modVp (s : State) (r e : Nat) (f : VP → VP) : State := s.modRow r fun q => q.modVp e f

/-- The VP is in thread mode (R26). -/
def VPState.inThread : VPState → Bool
  | .lock => false
  | _ => true

/-- Some VP of the row is in thread mode (R26, R44). -/
def Row.threadLive (r : Row) : Bool := r.vps.any fun p => p.2.st.inThread

/-- Register x[n]; x0 reads 0 (R57). -/
def Thread.getX (t : Thread) (n : Reg) : Word := if n = 0 then 0 else t.x[n]

/-- Write x[n]; a write to x0 is discarded (R57). -/
def Thread.setX (t : Thread) (n : Reg) (v : Word) : Thread := if n = 0 then t else { t with x := t.x.set n v }

/-- The 48-bit token of a row's thread (R278); `e` an element of a VP. -/
def Row.token (r : Row) (e : Option Nat) : Word :=
  BitVec.ofNat 64 (r.team % 2 ^ 16 * 2 ^ 32 + r.ltag % 2 ^ 10 * 2 ^ 22 + r.rowid % 2 ^ 6 * 2 ^ 16
    + (match e with | none => 0 | some k => 2 ^ 15 + k % 2 ^ 15))

/-- The token of a thread; a handler's is its slot number in ELEM (R307). -/
def State.token (s : State) : Tid → Word
  | .ctl r => ((s.row? r).map fun q => q.token none).getD 0
  | .vp r e => ((s.row? r).map fun q => q.token (some e)).getD 0
  | .hnd h => BitVec.ofNat 64 (h % 10)

/-- The cluster a thread runs on. -/
def State.clusterOf (s : State) : Tid → Nat
  | .ctl r | .vp r _ => ((s.row? r).map (·.cluster)).getD 0
  | .hnd h => h / 10

/-- The partition a thread runs in. -/
def State.partOf (s : State) : Tid → Nat
  | .ctl r | .vp r _ => ((s.row? r).map (·.part)).getD 0
  | .hnd h => ((s.hnd? h).map (·.part)).getD 0

/-- The row of a thread. -/
def tidRow : Tid → Option Nat
  | .ctl r | .vp r _ => some r
  | .hnd _ => none

/-- The class of a thread (R274). -/
def State.classOf (s : State) : Tid → Cls
  | .ctl r => ((s.row? r).map (·.cls)).getD .weak
  | .vp r e => ((s.row? r).map fun q => if (q.vp e).st.inThread then q.cls else .weak).getD .weak
  | .hnd _ => .conc

/-- What a thread waits for. -/
def State.waitOf (s : State) : Tid → Option Wait
  | .vp r e => (s.row? r).bind fun q => (q.vp e).wait
  | t => (s.thread? t).bind (·.wait)

/-- Set what a thread waits for. A VP whose wait ends outside its bundle is ready from now (R345). -/
def State.setWait (s : State) (t : Tid) (w : Option Wait) : State :=
  match t with
  | .vp r e => s.modVp r e fun v => { v with wait := w, since := if w.isNone && v.mid.isSome then s.clock.cycle else v.since }
  | t => s.modThread t fun th => { th with wait := w }

/-- GWCTMAX of a thread (R65). -/
def State.gwctOf (s : State) : Tid → Nat
  | .vp r e => ((s.row? r).map fun q => (q.vp e).gwct).getD 0
  | t => ((s.thread? t).map (·.gwct)).getD 0

/-- Raise GWCTMAX of a thread (R232). -/
def State.raiseGwct (s : State) (t : Tid) (g : Nat) : State :=
  match t with
  | .vp r e => s.modVp r e fun v => { v with gwct := max v.gwct g }
  | t => s.modThread t fun th => { th with gwct := max th.gwct g }

/-- An event log record (R387): ET, code, partition, cluster, data; the ring keeps 2,048. The codes are the model's (log 8). -/
def State.log (s : State) (code part cluster : Nat) (d2 d3 : Nat := 0) : State :=
  { s with mgmt := { s.mgmt with
      logCount := s.mgmt.logCount + 1
      log := (s.mgmt.log ++ [[s.clock.et, code, part, cluster, d2, d3]]).drop (s.mgmt.log.length + 1 - 2048) } }

/-- The mapped lanes of a cluster: M of R16, R24. In a cluster that retirements have put out of service the count, and with it LMAP, goes on
falling below the 30 of R23 (DESIGN CHOICE, log 83). -/
def Cluster.laneCount (c : Cluster) : Nat := min 32 (33 - (c.retired.filter (· < 33)).length)

/-- Physical lanes in service and compute-capable, ascending (R16). -/
def Cluster.inService (c : Cluster) : List Nat := (List.range 33).filter fun p => !c.retired.contains p

/-- XOROK (R23): the XOR lane is in service. -/
def Cluster.xorOk (c : Cluster) : Bool := !c.retired.contains 33

/-- LMAP of a cluster (R23, R24). -/
def Cluster.lmap (c : Cluster) : Word :=
  let mapped := c.inService.take 32
  let spare := (c.inService.drop 32).headD 0x3F
  BitVec.ofNat 64 (c.laneCount * 2 ^ 40 + spare * 2 ^ 34 + c.xorOk.toNat * 2 ^ 33 + sumL (mapped.map fun p => 2 ^ p))

/-- VREGLEN of a row in bits (R17). -/
def Row.vreglen (r : Row) : Nat := 512 * r.w

/-- The bits an EW code names (R63). -/
def ewBits (ew : Nat) : Nat := 8 * 2 ^ ew

/-- VLMAX of a geometry (R63): VREGLEN × G / EW. -/
def vlmaxOf (w ew g : Nat) : Nat := 512 * w * 2 ^ g / ewBits ew

/-- VLMAX of a row. -/
def State.vlmax (s : State) (r : Row) : Nat := let sl := s.slice r; vlmaxOf r.w sl.ew sl.grp

/-- The number a declared-registers code names (R65). -/
def nregOf (code : Nat) : Nat := 8 * (code % 4 + 1)

/-! Translation (R346 to R353). -/

/-- On whose behalf an access is made: partition, cluster, and whether a handler makes it (R323). -/
structure Acc where
  part : Nat
  cluster : Nat
  hnd : Bool
deriving DecidableEq, Repr

/-- The access rights of a thread. -/
def State.acc (s : State) (t : Tid) : Acc :=
  { part := s.partOf t, cluster := s.clusterOf t, hnd := match t with | .hnd _ => true | _ => false }

/-- Bits [63:55] of a canonical address are equal (R346). -/
def canonical (va : Nat) : Bool := let h := va / 2 ^ 55 % 512; h == 0 || h == 511

/-- A physical range that exists (R346). -/
def physOk (pa : Nat) : Bool := pa < 2 ^ 39 || (2 ^ 51 ≤ pa && pa < 2 ^ 52)

/-- The size of a leaf's page by level (R348). -/
def pageSize : Nat → Nat
  | 3 => 2 ^ 26
  | 2 => 2 ^ 21
  | _ => 2 ^ 16

/-- The index of a level (R348). -/
def ptIndex (lv va : Nat) : Nat :=
  match lv with
  | 4 => bits va 39 17
  | 3 => bits va 26 13
  | 2 => bits va 21 5
  | _ => bits va 16 5

/-- The tests R350 and R352 make of a leaf whatever the access. -/
def leafOk (lv : Nat) (e : Nat) : Bool :=
  bits e 52 12 == 0 && lv ≠ 4 &&
  (if bits e 2 2 = 1 then lv == 1 && !bit e 44 && bits e 30 4 == 0 && bits e 8 18 / 256 == 0 && bits e 8 8 == 0
   else bits e 8 8 == 0 && bits e 16 36 * 2 ^ 16 % pageSize lv == 0)

/-- A walk from level `lv` with the table at `base` (R348, R350): the leaf, its level and its place; or the fault. -/
def walk (s : State) (va : Nat) : Nat → Nat → Except Code (Nat × Nat × Nat)
  | 0, _ => .error .pageflt
  | lv + 1, base =>
    let a := base + 8 * ptIndex (lv + 1) va
    if !physOk a then .error .pageflt
    else if s.mem.poison.contains (a / 64) then .error .memerr
    else
      let e := s.dwordAt a
      if !bit e 0 then .error .pageflt
      else if bit e 1 then (if leafOk (lv + 1) e then .ok (e, lv + 1, a) else .error .pageflt)
      else if bits e 52 12 ≠ 0 ∨ bits e 2 6 ≠ 0 ∨ lv = 0 then .error .pageflt
      else
        let nb := bits e 8 44 * 256
        if lv = 3 ∧ nb % 2 ^ 16 ≠ 0 then .error .pageflt else walk s va lv nb

/-- The TLB entry that maps `va` for a partition. -/
def tlbFind (l : List TlbEnt) (part va : Nat) : Option TlbEnt :=
  l.find? fun e => e.part == part && e.base ≤ va && va < e.base + e.size

/-- Put an entry into a TLB of `n` places, dropping the oldest beyond them and any other for the same page (R353). -/
def tlbPut (l : List TlbEnt) (n : Nat) (e : TlbEnt) : List TlbEnt :=
  (e :: l.filter fun x => !(x.part == e.part && x.base == e.base && x.size == e.size)).take n

/-- Walk and fill the cluster and die TLBs, setting A (R349, R353). -/
def tlbFill (s : State) (a : Acc) (va : Nat) : Except Code (TlbEnt × State) :=
  match tlbFind (FMap.getD s.mem.tlbD (dieOf a.cluster) []) a.part va with
  | some e => .ok (e, { s with mem := { s.mem with
      tlbC := FMap.set s.mem.tlbC a.cluster (tlbPut (FMap.getD s.mem.tlbC a.cluster []) Config.tlbCluster e) } })
  | none =>
    match walk s va 4 (s.pdesc a.part 0) with
    | .error c => .error c
    | .ok (leaf, lv, k) =>
      let leaf' := leaf ||| 64
      let e : TlbEnt := { part := a.part, base := va / pageSize lv * pageSize lv, size := pageSize lv,
                          leaf := BitVec.ofNat 64 leaf', entry := k }
      let s := s.pokeBytes k [BitVec.ofNat 8 leaf']
      .ok (e, { s with mem := { s.mem with
        maps := (e, true) :: s.mem.maps.filter fun m => m.1 != e
        tlbC := FMap.set s.mem.tlbC a.cluster (tlbPut (FMap.getD s.mem.tlbC a.cluster []) Config.tlbCluster e)
        tlbD := FMap.set s.mem.tlbD (dieOf a.cluster) (tlbPut (FMap.getD s.mem.tlbD (dieOf a.cluster) []) Config.tlbDie e) } })

/-- Set D through an entry (R349). -/
def setDirty (s : State) (a : Acc) (e : TlbEnt) : State :=
  if bit e.leaf.toNat 7 then s
  else
    let e' := { e with leaf := e.leaf ||| 128 }
    let s := s.pokeBytes e.entry [s.byte e.entry ||| 128]
    { s with mem := { s.mem with
        tlbC := FMap.set s.mem.tlbC a.cluster (tlbPut (FMap.getD s.mem.tlbC a.cluster []) Config.tlbCluster e')
        tlbD := FMap.set s.mem.tlbD (dieOf a.cluster) (tlbPut (FMap.getD s.mem.tlbD (dieOf a.cluster) []) Config.tlbDie e') } }

/-- The cluster belongs to the partition (R365). -/
def State.clusterIn (s : State) (p c : Nat) : Bool :=
  if c < 64 then bit (s.pdesc p 5) c else c < 128 && bit (s.pdesc p 6) (c - 64)

/-- The place `n` bytes at `va` have under a leaf, with the tests R350, R352, R360 and R364 make of the access; ENC has no effect on host
memory. -/
def leafLoc (s : State) (p va n : Nat) (wr obj : Bool) (e : TlbEnt) : Except Code Loc :=
  let leaf := e.leaf.toNat
  let home := bits leaf 2 2
  let locked := bit leaf 5 && !(s.part p).keyReleased
  if wr && !bit leaf 4 then .error .pageflt
  else if home = 1 then
    let c := bits leaf 45 7
    let o := va % 2 ^ 16
    let k := 4096 * bits leaf 34 10 + o
    if locked || !s.clusterIn p c || 4096 * (bits leaf 26 4 + 1) < o + n || 2 ^ 22 < k + n then .error .pageflt
    else .ok { key := sramAt c + k, enc := 0, home := 1 }
  else
    let pa := bits leaf 16 36 * 2 ^ 16 + va % e.size
    let inH := s.pdesc p 1 ≤ pa && pa + n ≤ s.pdesc p 2 && pa + n ≤ 2 ^ 39
    let inX := s.pdesc p 3 ≤ pa && pa + n ≤ s.pdesc p 4 && 2 ^ 51 ≤ pa && pa + n ≤ 2 ^ 52
    if inH then
      if locked then .error .pageflt
      else .ok { key := pa, enc := if bit leaf 5 then p + 1 else 0, home := home }
    else if inX && !obj then .ok { key := pa, enc := 0, home := 3 }
    else .error .pageflt

/-- The flat places an entry maps its page to (R350, R352): the first, and the one after the last. -/
def TlbEnt.span (e : TlbEnt) : Nat × Nat :=
  let leaf := e.leaf.toNat
  if bits leaf 2 2 = 1 then
    let k := sramAt (bits leaf 45 7) + 4096 * bits leaf 34 10
    (k, k + 2 ^ 16)
  else (bits leaf 16 36 * 2 ^ 16, bits leaf 16 36 * 2 ^ 16 + e.size)

/-- The L2 slice of its die that homes a line of HBM (R347). -/
def sliceOf (pa : Nat) : Nat := bits pa 8 4 ^^^ bits pa 12 4 ^^^ bits pa 16 4 ^^^ bits pa 20 4

/-- Lines a slice pins: 3 MiB (R347). -/
def pinLimit : Nat := 3 * 2 ^ 20 / 64

/-- A line of a HOME 10 page is accessed (R347): its slice pins it, or holds it as HOME 00 where it pins 3 MiB already, which the horologer logs. -/
def State.pinLine (s : State) (p n : Nat) : State :=
  match FMap.get? s.mem.pins n with
  | some _ => s
  | none =>
    let pa := n * 64
    let full := decide (pinLimit ≤ (s.mem.pins.filter fun q => q.2 && q.1 / 2 ^ 30 == n / 2 ^ 30 && sliceOf (q.1 * 64) == sliceOf pa).length)
    let s := { s with mem := { s.mem with pins := FMap.set s.mem.pins n (!full) } }
    if full then s.log 18 p 0 pa else s

/-- The lines of `n` bytes from a place of a HOME 10 page (R347). -/
def State.pin (s : State) (p n : Nat) (l : Loc) : State :=
  if l.home = 2 then ((List.range ((l.key + n - 1) / 64 + 1 - l.key / 64)).map (l.key / 64 + ·)).foldl (·.pinLine p ·) s else s

/-- First address of the control page a handler sees (R323). -/
def ctlPageVa : Nat := 0xFFFFFFFFFFF7F000
/-- First address of the scratchpad window a handler sees (R323). -/
def spadVa : Nat := 0xFFFFFFFFFFF80000

/-- Translate `n` bytes at `va` that lie in one 64 KiB block: their first place, with the TLBs and the A and D bits set; or the
fault code (R346 to R353). `obj` is set for the accesses R364 forbids in host memory. -/
def xlate (s : State) (a : Acc) (va n : Nat) (wr obj : Bool) : Except Code (Loc × State) :=
  if a.hnd && ctlPageVa ≤ va then
    .ok ({ key := if va < spadVa then ctlPageAt a.cluster + (va - ctlPageVa) else spadAt a.cluster + (va - spadVa),
           enc := 0, home := 1 }, s)
  else if !canonical va then .error .pageflt
  else
    let hit := match tlbFind (FMap.getD s.mem.tlbC a.cluster []) a.part va with
      | some e => Except.ok (e, s)
      | none => tlbFill s a va
    match hit with
    | .error c => .error c
    | .ok (e, s) =>
      match leafLoc s a.part va n wr obj e with
      | .error c => .error c
      | .ok l => .ok (l, (if wr then setDirty s a e else s).pin a.part n l)

/-- A fault an access raises: code, ADDR1, ADDR2 (R198, R350, R358). -/
structure AFault where
  code : Code
  addr1 : Nat
  addr2 : Nat
deriving DecidableEq, Repr

/-- The places of `n` bytes from a first one. -/
def locRun (l : Loc) (n : Nat) : List Loc := (List.range n).map fun i => { l with key := l.key + i }

/-- Translate the `n` bytes at `va`, once for each 64 KiB block they lie in (R198). -/
def xlateN (s : State) (a : Acc) (va n : Nat) (wr obj : Bool) : Except AFault (List Loc × State) :=
  let va := va % 2 ^ 64
  let last := (va + n - 1) % 2 ^ 64
  let n1 := min n (2 ^ 16 - va % 2 ^ 16)
  if n1 = n then
    match xlate s a va n wr obj with
    | .error c => .error { code := c, addr1 := va, addr2 := 0 }
    | .ok (l, s) => .ok (locRun l n, s)
  else
    let f (c : Code) : AFault := { code := c, addr1 := va, addr2 := last / 2 ^ 16 * 2 ^ 16 }
    match xlate s a va n1 wr obj with
    | .error c => .error (f c)
    | .ok (l1, s) =>
      match xlate s a ((va + n1) % 2 ^ 64) (n - n1) wr obj with
      | .error c => .error (f c)
      | .ok (l2, s) => .ok (locRun l1 n1 ++ locRun l2 (n - n1), s)

/-- The pieces of an access that would fault translate in their order up to the one that does not: those that a write reaches set D (R349). -/
def State.touch (a : Acc) (obj : Bool) : List (Nat × Nat) → State → State
  | [], s => s
  | (va, n) :: t, s =>
    match xlateN s a va n true obj with
    | .ok (_, s) => State.touch a obj t s
    | .error _ => (match xlate s a (va % 2 ^ 64) (min n (2 ^ 16 - va % 2 ^ 16)) true obj with
        | .ok (_, s) => s
        | .error _ => s)

/-- What the translation of an access that writes leaves where the access then faults (R349). -/
def State.touchOne (s : State) (a : Acc) (va n : Nat) (wr : Bool) : State := if wr then s.touch a true [(va, n)] else s

/-! Bytes at their homes. -/

/-- The byte a page's reader gets (R360). -/
def State.readLoc (s : State) (l : Loc) : Byte :=
  let k := FMap.getD s.mem.keys l.key 0
  let b := s.byte l.key
  if k = l.enc then b else Config.cipherByte l.enc k l.key b

/-- Write a byte under the page's key (R360). -/
def Mem.put (m : Mem) (l : Loc) (b : Byte) : Mem :=
  { m with cells := Memory.write m.cells l.key b
           keys := if l.enc = 0 then FMap.erase m.keys l.key else FMap.set m.keys l.key l.enc }

/-- The first place whose line is poisoned (R358). -/
def State.poisoned (s : State) (ls : List Loc) : Option Nat :=
  ls.findIdx? fun l => s.mem.poison.contains (l.key / 64)

/-- The line-aligned virtual address R358 reports for byte `i` of an access at `va`. -/
def lineVa (va i : Nat) : Nat := (va + i) % 2 ^ 64 / 64 * 64

/-- A cluster's copies take the lines' present bytes, as a read at the home brings them (R228). -/
def State.refresh (s : State) (c : Nat) (ls : List Loc) : State :=
  let lines := ls.map fun l => l.key / 64
  { s with mem := { s.mem with l1 := s.mem.l1.map fun k =>
      if k.cluster = c ∧ lines.contains k.line then { k with bytes := s.bytesAt (k.line * 64) 64 } else k } }

/-- Lines a list of items writes. -/
def itemLocs : WItem → List Loc
  | .byte l _ _ => [l]
  | .add ls _ _ => ls

/-- Items and places meet. -/
def itemsHit (items : List WItem) (keys : List Nat) : Bool :=
  items.any fun i => (itemLocs i).any fun l => keys.contains l.key

/-- The latest lease end on the lines granted to other clusters (R232). -/
def State.lmax (s : State) (c : Nat) (lines : List Nat) : Nat :=
  maxL (s.mem.leases.map fun p => if lines.contains (p.1 / 128) ∧ p.1 % 128 ≠ c then p.2 else 0)

/-- The GWCT of a write applied now (R232; R323, R364 for windows and host memory). -/
def State.gwctFor (s : State) (c : Nat) (ls : List Loc) : Nat :=
  max s.clock.et (s.lmax c (ls.map fun l => l.key / 64)) + 1

/-! Outstanding operations (R32, R33, R140). -/

/-- Lower one entry of a list of counts. -/
def decAt (l : List Nat) (i : Nat) : List Nat := l.set i (l.getD i 0 - 1)

/-- Raise one entry of a list of counts. -/
def incAt (l : List Nat) (i : Nat) : List Nat := l.set i (l.getD i 0 + 1)

/-- Change the count of a flag of a thread (R32, R33). -/
def State.modFlag (s : State) (t : Tid) (n : Nat) (f : List Nat → Nat → List Nat) : State :=
  match t with
  | .ctl r => s.modRow r fun q => { q with cf := f q.cf n }
  | .vp r e => s.modVp r e fun v => { v with flags := f v.flags n }
  | .hnd _ => s

/-- The operation of a number. -/
def State.op? (s : State) (k : Nat) : Option Op := s.ops.find? (·.id == k)

/-- Change an operation. -/
def State.modOp (s : State) (k : Nat) (f : Op → Op) : State :=
  { s with ops := s.ops.map fun o => if o.id = k then f o else o }

/-- The word at address `p` of a thread with binding `b` on a cluster, from the overlay bytes it holds (R130, R324); none is OVLMISS. -/
def fetchWord (code : List Host.Cell) (cluster : Nat) (b : Nat × Nat × Nat) (p : Word) : Option Nat :=
  let a := p.toNat
  if b.1 ≤ a ∧ a < b.1 + b.2.1 ∧ b.2.2 + b.2.1 ≤ Config.spadBytes then
    some (leNat ((List.range 4).map fun i => Memory.read code (spadAt cluster + b.2.2 + (a - b.1) + i)))
  else none

/-- The word a row fetches at an address. -/
def Row.fetchWord (r : Row) (p : Word) : Option Nat := Machine.fetchWord r.code r.cluster r.bind p

/-- The address of word `idx` of the block at `header` (R27). -/
def wordAddr (header : Word) (idx : Nat) : Word := header + BitVec.ofNat 64 (4 * (idx + 1))

/-- The flags a header's WAIT names are clear (R27, R31, R40). -/
def flagsClear (hd : Header) (cf : List Nat) : Bool := (List.range 12).all fun n => !hd.wait.getLsbD n || cf.getD n 0 == 0

/-- The flags are clear that the block at a VP's fetch address waits for (R40). -/
def Row.waitHolds (r : Row) (v : VP) : Bool :=
  match (r.fetchWord v.fetch).bind decodeHeader with
  | some hd => flagsClear hd v.flags
  | none => true

/-- A flag of a thread falls by one (R32). A VP whose WAIT condition holds by it is ready from now (R42, R345). -/
def State.dropFlag (s : State) (t : Tid) (n : Nat) : State :=
  let u := s.modFlag t n decAt
  match t with
  | .vp row e =>
    (match s.row? row, u.row? row with
     | some q, some r =>
       if (r.vp e).mid.isNone && !q.waitHolds (q.vp e) && r.waitHolds (r.vp e) then
         u.modVp row e fun v => { v with since := s.clock.cycle }
       else u
     | _, _ => u)
  | _ => u

/-- An operation completes or is cancelled: its flags and its class counter fall (R32, R140), and it leaves the list. -/
def State.endOp (s : State) (o : Op) : State :=
  let s := o.flags.foldl (fun s p => s.dropFlag p.1 p.2) s
  let s := match o.cls with
    | some c => s.modRow o.row fun r => { r with cnt := decAt r.cnt c }
    | none => s
  { s with ops := s.ops.filter (·.id != o.id) }

/-- Cancel the operations that satisfy a test (R37, R321), with the writes they have under way. -/
def State.cancelOps (s : State) (p : Op → Bool) : State :=
  let gone := s.ops.filter p
  let s := gone.foldl State.endOp s
  { s with mem := { s.mem with writes := s.mem.writes.filter fun w => !(match w.op with
      | some k => gone.any (·.id == k)
      | none => false) } }

/-- A matrix operation (R251). -/
def OpKind.isMatrix : OpKind → Bool
  | .mzero | .mlat .. | .mlatg .. | .mlatv .. | .mlut _ | .mop .. | .mband .. | .mfold | .mdrain .. | .mrow _ => true
  | _ => false

/-- The operation is a drain in the midst of a row: it is at no stop point (R271). -/
def Op.midRow (o : Op) : Bool :=
  match o.kind with
  | .mdrain _ _ blk => decide (0 < blk.pos)
  | _ => false

/-- A remote operation (R222). -/
def OpKind.isRemote : OpKind → Bool
  | .rput .. | .rget .. | .ramo .. => true
  | _ => false

/-- A remote write or remote atomic, whose target acknowledges it (R244). -/
def OpKind.writesAway : OpKind → Bool
  | .rput .. | .ramo .. => true
  | _ => false

/-- The class an operation counts in (R140). -/
def OpKind.cls : OpKind → Option Nat
  | .cpy .. | .cflush _ => some 0
  | .mlat .. | .mlatg .. | .mop .. | .mdrain .. => some 1
  | .vfg .. => some 2
  | .rput .. | .rget .. | .ramo .. | .coll .. => some 3
  | _ => none

/-- A lane operation of a strip, which a strip restart cancels (R37, R206). -/
def OpKind.ofStrip : OpKind → Bool
  | .vpld .. | .marker _ | .vfg .. => true
  | _ => false

/-! Strips (R35, R36). -/

/-- Set STRIP.NR with a cause, unless it is set or no strip is open (R36). -/
def StripV.setNr (v : StripV) (cause : Nat) : StripV :=
  if v.opn && !v.nr then { v with nr := true, cause := cause } else v

/-- STRIP of a row: none is open while its slices hold another row's contents (R327). -/
def State.stripOf (s : State) (r : Row) : StripV := if r.vvalid then (s.slice r).strip else StripV.closed

/-- Set STRIP.NR of a row's strip (R36). -/
def State.stripNr (s : State) (row cause : Nat) : State :=
  match s.row? row with
  | some r => if r.vvalid then s.modSlice r fun sl => { sl with strip := sl.strip.setNr cause } else s
  | none => s

/-- Send the buffered stores of a row toward their homes (R35, R237): one write, in program order. -/
def State.commitBuf (s : State) (row : Nat) : State :=
  match s.row? row with
  | none => s
  | some r =>
    if r.buf.isEmpty then s
    else
      let (k, s) := s.newId
      let s := s.modRow row fun q => { q with buf := [], bufCnt := [] }
      { s with mem := { s.mem with writes := s.mem.writes ++
          [{ id := k, thread := .ctl row, cluster := r.cluster, part := r.part, scalar := false, op := none, items := r.buf }] } }

/-- Close the row's strip (R35): commit, and forget the rind, the tracking of R36 and the stream entries already consumed. -/
def State.closeStrip (s : State) (row : Nat) : State :=
  let s := (s.commitBuf row).modRow row fun q =>
    { q with rind := none, srd := [], swr := []
             streams := q.streams.map fun o => o.map fun st => { st with got := st.got.filter fun p => st.pos ≤ p.1 } }
  match s.row? row with
  | some r => s.modSlice r fun sl => { sl with strip := { sl.strip with opn := false } }
  | none => s

/-- Record the rind at a strip's opening (R35). -/
def State.openStrip (s : State) (row : Nat) (vl : Nat) (pc : Word) : State :=
  match s.row? row with
  | none => s
  | some r =>
    let s := s.modSlice r fun sl => { sl with vl := vl, vestart := 0, strip := { opn := true, nr := false, cause := 0 } }
    let sl := s.slice r
    s.modRow row fun q => { q with
      srd := [], swr := []
      rind := some { pc := pc, x := q.th.x, vl := vl, tags := mapVec (·.tag) sl.v, ew := sl.ew, grp := sl.grp, m := sl.m,
                     seedQ := q.seedQ, drainQ := q.drainQ, recvQ := q.recvQ,
                     spos := q.streams.map fun o => (o.map (·.pos)).getD 0, first := s.clock.nextId } }

/-- Strip restart (R37): buffered stores discarded, the rind restored, written registers undefined, operations cancelled. The
strip stays open and restartable. A register whose tag is put back is marked in VDIRTY (R72), and keeps the HWM counted under its other tag:
the rind holds no HWM (DESIGN CHOICE, log 72). -/
def State.restartStrip (s : State) (row : Nat) : State :=
  match s.row? row with
  | none => s
  | some r =>
    match r.rind with
    | none => s
    | some k =>
      let s := s.cancelOps fun o => o.row == row && o.kind.ofStrip && decide (k.first ≤ o.id)
      let (seed, s) := s.fresh
      let written := r.swr.filter (· < 32)
      let s := s.modSlice r fun sl => { sl with
        vl := k.vl, ew := k.ew, grp := k.grp, m := k.m, vestart := 0
        strip := { opn := true, nr := false, cause := 0 }
        vdirty := sl.vdirty ||| BitVec.ofNat 32 (sumL (((List.finRange 32).filter fun i => sl.v[i].tag != k.tags[i]).map fun i => 2 ^ i.val))
        v := genVec 32 fun i => let q := sl.v[i]
          { q with tag := k.tags[i], fill := if written.contains i.val then .undef seed else q.fill,
                   bytes := if written.contains i.val then [] else q.bytes } }
      s.modRow row fun q => { q with
        th := { q.th with x := k.x, pc := k.pc, wait := none }
        buf := [], bufCnt := [], srd := [], swr := [], blocks := [], held := none
        seedQ := k.seedQ, drainQ := k.drainQ, recvQ := k.recvQ
        streams := q.streams.zipIdx.map fun p => p.1.map fun st => { st with pos := k.spos.getD p.2 st.pos } }

/-! Waits and freezes (R281, R285, R305). -/

/-- A thread gives up its wait: a queued lock or event request leaves its home, and the instruction executes again (R285). -/
def State.abandon (s : State) (t : Tid) : State :=
  let w : Option Wait := s.waitOf t
  let s := s.setWait t none
  let s : State := match t with
    | .ctl r =>
      if w = some Wait.mxon ∧ (s.ops.any fun o => o.row == r && o.kind.isMatrix) = false then
        s.modCluster (s.clusterOf t) fun c => { c with mx := { c.mx with waiting := c.mx.waiting.filter (· != r) } }
      else s
    | _ => s
  { s with mem := { s.mem with
      lockQ := s.mem.lockQ.filter fun q => q.2.1 != t
      eventQ := s.mem.eventQ.filter fun q => q.2 != t
      groups := s.mem.groups.map fun g => { g with threads := g.threads.filter (· != t) } } }

/-- What a fault reports (R307). -/
structure FInfo where
  code : Code
  pc : Word
  /-- Faulting element; none for a fault at no element (f = VL). -/
  f : Option Nat := none
  addr1 : Nat := 0
  addr2 : Nat := 0
  field : Nat := 0
  pos : Nat := 0
  unit : Nat := 0
  header : Word := 0
  /-- RESUME where it is not the course's own (R122, R105). -/
  resume : Option Word := none
  /-- The vector-fetched block whose word faulted as it executed (BLK), or the thread block of a VP. -/
  run : Option LaneRun := none
deriving DecidableEq, Repr

/-- The record of a number. -/
def State.fr? (s : State) (k : Nat) : Option FRec := s.cave.recs.find? (·.id == k)

/-- Change a record. -/
def State.modRec (s : State) (k : Nat) (f : FRec → FRec) : State :=
  { s with cave := { s.cave with recs := s.cave.recs.map fun r => if r.id = k then f r else r } }

/-- The fault queue of a die is full (R308). -/
def State.queueFull (s : State) (die : Nat) : Bool := Config.faultQueue ≤ (s.cave.queue.getD die []).length

/-- Put a record at the tail of its die's queue, logging the moment it fills (R308, R322). -/
def State.enqueue (s : State) (k cluster : Nat) : State :=
  let d := dieOf cluster
  let q := s.cave.queue.getD d [] ++ [k]
  let s := { s with cave := { s.cave with queue := s.cave.queue.set d q } }
  if q.length = Config.faultQueue then s.log 1 0 cluster else s

/-- The handlers whose `fstep` waits for a record's step go on (R320). -/
def State.endStepWait (s : State) (k : Nat) : State :=
  { s with handlers := s.handlers.map fun h =>
      if h.th.wait = some (.fstep k) then { h with th := { h.th with wait := none } } else h }

/-- Set the freeze mark of a thread. -/
def State.setFrozen (s : State) (t : Tid) (k : Option Nat) : State :=
  match t with
  | .vp r e => s.modVp r e fun v => { v with frozen := k }
  | t => s.modThread t fun th => { th with frozen := k }

/-- The freeze mark of a thread. -/
def State.frozenOf (s : State) : Tid → Option Nat
  | .vp r e => (s.row? r).bind fun q => (q.vp e).frozen
  | t => (s.thread? t).bind (·.frozen)

/-- The record of an `fstep` under way for a thread (R320). -/
def State.steppingOf (s : State) : Tid → Option Nat
  | .ctl r => (s.row? r).bind (·.stepping)
  | .vp r e => (s.row? r).bind fun q => (q.vp e).stepping
  | .hnd h => (s.hnd? h).bind (·.stepping)

/-- End the `fstep` of a thread (R320). -/
def State.clearStepping (s : State) : Tid → State
  | .ctl r => s.modRow r fun q => { q with stepping := none, stepVf := none }
  | .vp r e => s.modVp r e fun v => { v with stepping := none }
  | .hnd h => s.modHnd h fun q => { q with stepping := none }

/-- File a record (R305, R308, R320): in the place of the record being stepped, behind the record its party is already frozen
under, or in the fault queue; and freeze the party. -/
def State.fileRec (s : State) (fr : FRec) : State :=
  match s.steppingOf fr.who, s.frozenOf fr.who with
  | some k, _ =>
    let st := ((s.fr? k).map (·.st)).getD .queued
    let s := (s.modRec k fun _ => { fr with id := k, st := st }).clearStepping fr.who
    (s.setFrozen fr.who (some k)).endStepWait k
  | none, some _ =>
    { s with cave := { s.cave with recs := s.cave.recs ++ [{ fr with id := s.cave.next, st := .behind }]
                                   next := s.cave.next + 1 } }
  | none, none =>
    let k := s.cave.next
    let s := { s with cave := { s.cave with recs := s.cave.recs ++ [{ fr with id := k, st := .queued }], next := k + 1 } }
    (s.enqueue k fr.cluster).setFrozen fr.who (some k)

/-- STRIP as R63 lays it out. -/
def StripV.bits (v : StripV) : Nat := v.opn.toNat * 16 + v.nr.toNat * 8 + v.cause % 8

/-- The record of a fault of a row's thread, before its course is known: STRIP is the one held with the slices, whoever owns their contents
(R307), and F is VL where no element faults, 0 where the slices' VL is not the row's. -/
def State.baseRec (s : State) (r : Row) (who : Tid) (fi : FInfo) : FRec :=
  let sl := s.slice r
  { id := 0, who := who, part := r.part, cluster := r.cluster, st := .queued, code := fi.code, party := 0, course := 4, level := 0
    token := s.token who, pc := fi.pc, resume := fi.resume.getD fi.pc, header := fi.header, pos := fi.pos, blk := false
    unit := fi.unit, strip := sl.strip.bits, field := fi.field, f := fi.f.getD (if r.vvalid then sl.vl else 0)
    addr1 := BitVec.ofNat 64 fi.addr1, addr2 := BitVec.ofNat 64 fi.addr2, vvalid := r.vvalid, sowner := sl.owner
    run := fi.run, op := none }

/-- A fault of a control thread or of its LOCK elements (R37, R113, R305, R306): held while the fault queue is full; otherwise
its course is applied and its record filed. This is the one operation by which a row takes an exception. -/
def State.raiseRow (s : State) (row : Nat) (fi : FInfo) : State :=
  match s.row? row with
  | none => s
  | some r =>
    if s.queueFull (dieOf r.cluster) && r.stepping.isNone then s.setWait (.ctl row) (some .faultHeld)
    else
      let strip := s.stripOf r
      let fr := s.baseRec r (.ctl row) fi
      let s := s.abandon (.ctl row)
      if fi.code = .vown then s.fileRec fr
      else if strip.opn && !strip.nr then
        let s := match fi.run with
          | some k => s.modRow row fun q => { q with sb := k.sb }
          | none => s
        let s := s.restartStrip row
        s.fileRec { fr with party := 1, course := 0, resume := ((r.rind).map (·.pc)).getD fi.pc, run := none }
      else if strip.opn then
        let s := (s.commitBuf row).modSlice r fun sl =>
          { sl with vestart := match fi.f with | some f => if f < sl.vl then f else 0 | none => 0 }
        match fi.run with
        | some k =>
          let s := s.modRow row fun q =>
            { q with blocks := [], held := none, sb := k.sb, th := { q.th with x := k.xs, pc := k.vfpc + 4 } }
          s.fileRec { fr with party := 1, course := 1, blk := true, resume := k.vfpc + 4 }
        | none => s.fileRec { fr with party := 1, course := 1 }
      else s.fileRec fr

/-- Change the member `e` of whichever bundle of a row holds it. -/
def Row.modMember (r : Row) (e : Nat) (f : BMem → BMem) : Row :=
  { r with bundles := r.bundles.map fun b => { b with mem := b.mem.map fun m => if m.e = e then f m else m } }

/-- Take member `e` out of its bundle. -/
def Row.dropMember (r : Row) (e : Nat) : Row :=
  { r with bundles := (r.bundles.map fun b => { b with mem := b.mem.filter (·.e != e) }).filter fun b => !b.mem.isEmpty }

/-- The bundle that holds VP `e`. -/
def Row.bundleOf (r : Row) (e : Nat) : Option Bundle := r.bundles.find? fun b => b.mem.any (·.e == e)

/-- Where a member of a bundle is in its block. -/
def BMem.mid (b : Bundle) (m : BMem) : Mid :=
  { header := b.header, hd := b.hd, words := b.words, idx := if m.fin then b.words.length else m.idx, ops := m.ops, stale := false }

/-- A VP gives up its bundle place in the midst of its block (R281). -/
def Row.giveUp (r : Row) (e : Nat) : Row :=
  match r.bundleOf e with
  | none => r
  | some b =>
    match b.mem.find? (·.e == e) with
    | none => r
    | some m => (r.dropMember e).modVp e fun v => { v with mid := some (m.mid b) }

/-- A fault of a VP in THR (R37, R105): element-precise. -/
def State.raiseVp (s : State) (row e : Nat) (fi : FInfo) : State :=
  match s.row? row with
  | none => s
  | some r =>
    if s.queueFull (dieOf r.cluster) && (r.vp e).stepping.isNone then
      (s.setWait (.vp row e) (some .faultHeld)).modRow row fun q => q.giveUp e
    else
      let who := Tid.vp row e
      let fr := { s.baseRec r who fi with party := 2, course := 2, f := e }
      let s := s.abandon who
      let s := s.modRow row fun q => { (q.modVp e fun v => { v with st := .froz, mid := none }) with
        bundles := (q.bundles.map fun b => { b with mem := b.mem.filter (·.e != e) }).filter fun b => !b.mem.isEmpty }
      s.fileRec fr

/-- The records naming rows of a launch on a cluster. -/
def State.ownersOn (s : State) (c : Nat) : List Nat :=
  (s.cave.recs.filter (·.cluster == c)).filterMap fun r => ((tidRow r.who).bind s.row?).map (·.launch)

/-- A fault of a handler thread (R311). A level-2 handler's fault is a machine check, which `machineCheck` of the handler
events completes: here its record is filed like the others, with level 2. -/
def State.raiseHnd (s : State) (h : Nat) (fi : FInfo) : State :=
  match s.hnd? h with
  | none => s
  | some t =>
    if s.queueFull (dieOf t.cluster) && t.stepping.isNone then s.setWait (.hnd h) (some .faultHeld)
    else
      let fr : FRec :=
        { id := 0, who := .hnd h, part := t.part, cluster := t.cluster, st := .queued, code := fi.code, party := 3, course := 4
          level := t.level, token := s.token (.hnd h), pc := fi.pc, resume := fi.resume.getD fi.pc, header := 0, pos := 0
          blk := false, unit := 0, strip := 0, field := 0, f := 0, addr1 := BitVec.ofNat 64 fi.addr1
          addr2 := BitVec.ofNat 64 fi.addr2, vvalid := false, sowner := 0, run := none, op := none }
      (s.abandon (.hnd h)).fileRec fr

/-- Take an exception: the one entry for every party (R8, R305). -/
def State.raise (s : State) (t : Tid) (fi : FInfo) : State :=
  match t with
  | .ctl r => s.raiseRow r fi
  | .vp r e => s.raiseVp r e fi
  | .hnd h => s.raiseHnd h fi

/-- File the record of a stopped operation (R216, R252, R307): its class counter falls, and the control thread freezes before its
next instruction. -/
def State.fileOp (s : State) (o : Op) (r : Row) (fr : FRec) : State :=
  let s := s.modOp o.id fun q => { q with stopped := true, f := fr.f, cls := none }
  let s := match o.cls with
    | some c => s.modRow o.row fun r => { r with cnt := decAt r.cnt c }
    | none => s
  let sl := s.slice r
  (s.abandon (.ctl o.row)).fileRec
    { fr with resume := r.th.pc, strip := sl.strip.bits, vvalid := r.vvalid, sowner := sl.owner }

/-- The asynchronous course (R216, R252): the operation stops at `f`; while the queue is full it stays stopped and outstanding, and its
record waits (R308). -/
def State.raiseOp (s : State) (o : Op) (fi : FInfo) : State :=
  match s.row? o.row with
  | none => s
  | some r =>
    let fr := { s.baseRec r (.ctl o.row) fi with
      party := 4, course := 3, unit := o.cls.getD (if o.kind.isMatrix then 1 else 0), pos := o.seq, op := some o.id }
    if s.queueFull (dieOf r.cluster) then
      { s.modOp o.id (fun q => { q with stopped := true, f := fr.f }) with cave := { s.cave with heldOps := s.cave.heldOps ++ [fr] } }
    else s.fileOp o r fr

/-- A place has freed in the fault queue of a die (R308): the oldest held record of an operation is filed, or else the held instructions
execute again; none where nothing is held or no place is free. -/
def State.freeEntry (s : State) (die : Nat) : Option State :=
  if s.queueFull die then none
  else
    match s.cave.heldOps.find? fun k => dieOf k.cluster == die with
    | some fr =>
      let s := { s with cave := { s.cave with heldOps := s.cave.heldOps.filter fun k => k.op != fr.op } }
      (match fr.op.bind s.op?, (tidRow fr.who).bind s.row? with
       | some o, some r => some (s.fileOp o r fr)
       | _, _ => some s)
    | none =>
      let held (t : Tid) : Bool := s.waitOf t == some .faultHeld && dieOf (s.clusterOf t) == die
      let ts := (s.rows.flatMap fun r => Tid.ctl r.id :: r.vps.map fun p => Tid.vp r.id p.1) ++ s.handlers.map fun h => Tid.hnd h.slot
      match ts.filter held with
      | [] => none
      | l => some (l.foldl (fun s t => s.setWait t none) s)

/-! Return from a freeze (R319), and its end (R308, R321). -/

/-- A binding read from the control page (R323): VBASE, LEN, SPOFF. -/
def State.binding (s : State) (cluster c : Nat) : Nat × Nat × Nat :=
  let k := ctlPageAt cluster + 32 * c
  (s.dwordAt k, s.dwordAt (k + 8), s.dwordAt (k + 16))

/-- The bytes of an overlay as the scratchpad of a cluster holds them. -/
def State.overlay (s : State) (cluster : Nat) (b : Nat × Nat × Nat) : List Host.Cell :=
  let k := spadAt cluster + b.2.2
  s.mem.cells.filter fun p => decide (k ≤ p.1) && decide (p.1 < k + b.2.1 + 3)

/-- What a row fetched for its blocks is discarded (R130, R319): its bundles are formed again, and every block under way is fetched again
from its next word. -/
def Row.refetch (r : Row) : Row :=
  let r := (r.bundles.flatMap fun b => b.mem.map (·.e)).foldl Row.giveUp r
  { r with
    blocks := r.blocks.map fun k => { k with late := true }
    vps := r.vps.map fun p => (p.1, { p.2 with mid := p.2.mid.map fun q => { q with stale := q.stale || decide (q.idx < q.words.length) } }) }

/-- Discard the fetched words of a thread: its overlay binding and the overlay's bytes take effect as they stand (R130, R319, R324). -/
def State.rebind (s : State) (t : Tid) : State :=
  match t with
  | .hnd h => s.modHnd h fun q => let b := s.binding q.cluster 16; { q with bind := b, code := s.overlay q.cluster b }
  | .ctl r | .vp r _ => s.modRow r fun q => match q.ctx with
      | some c => let b := s.binding q.cluster c; { q.refetch with bind := b, code := s.overlay q.cluster b }
      | none => q

/-- A record is resolved: it leaves the cave and every capability naming it empties (R308, R312); the next record waiting behind
it freezes the party again and enters the queue, with the RESUME of this freeze (R307, R308). -/
def State.dropRec (s : State) (fr : FRec) (again : Bool) : State :=
  let s := { s with
    cave := { s.cave with recs := s.cave.recs.filter (·.id != fr.id), queue := s.cave.queue.map fun (q : List Nat) => q.filter (· != fr.id) }
    handlers := s.handlers.map fun (h : HThread) => { h with k := h.k.map fun o => if o = some fr.id then none else o } }
  let s := s.setFrozen fr.who none
  if again then
    match s.cave.recs.find? fun r => r.who == fr.who && r.st == .behind with
    | some n =>
      let pc := ((s.thread? fr.who).map (·.pc)).getD n.resume
      ((s.modRec n.id fun r => { r with st := .queued, resume := if r.course = 3 then pc else r.resume }).enqueue n.id n.cluster).setFrozen fr.who (some n.id)
    | none => s
  else s

/-- The entry is poisoned (R56). -/
def SEnt.bad : SEnt → Bool
  | .poison .. => true
  | .ok .. => false

/-- A resumed stream fetches again from its poisoned entry (R211). -/
def Stream.retry (st : Stream) : Stream :=
  match st.got.find? fun p => p.2.bad with
  | some p => { st with got := st.got.filter fun q => q.1 != p.1, fetched := p.1 }
  | none => st

/-- The operation of a number is outstanding. -/
def State.opLive (s : State) (k : Nat) : Bool := s.ops.any (·.id == k)

/-- The rejoin entry of the row's image at an address (R45): the lowest number. -/
def State.rejoinAt (s : State) (r : Row) (p : Word) : Option Nat :=
  let js := ((s.cluster r.cluster).rejoin.filter fun q => q.1 == r.image && q.2.2 == p.toNat).map (·.2.1)
  match js with
  | [] => none
  | j :: t => some (t.foldl min j)

/-- A VP in thread mode takes its next fetch address (R26, R30): it parks at a rejoin entry of its image (R45), and elsewhere fetches. -/
def State.vpFetch (s : State) (row e : Nat) (p : Word) : State :=
  match s.row? row with
  | none => s
  | some r => s.modVp row e fun v =>
      { v with st := (s.rejoinAt r p).elim .thr .park, fetch := p, mid := none, since := s.clock.cycle }

/-- The effect of `fresume` and `fresume.t` on the thread of a record (R319); the record itself is left to the caller. A VOWN fault of a
block's word goes on with the block, which stands as it did (R306). -/
def State.resumeThread (s : State) (fr : FRec) (trunc : Bool) : State :=
  let s := s.rebind fr.who
  let s : State := match tidRow fr.who with
    | some row => s.modRow row fun q => { q with streams := q.streams.map fun (o : Option Stream) => o.map Stream.retry }
    | none => s
  match fr.who with
  | .hnd h => s.modHnd h fun q => { q with th := { q.th with pc := fr.resume } }
  | .vp row e =>
    let off := (fr.resume - fr.header).toNat
    (match fr.run with
     | some k =>
       if off % 4 = 0 ∧ 4 ≤ off ∧ off ≤ 128 then
         s.modVp row e fun v => { v with
           st := .thr, since := s.clock.cycle
           mid := some { header := fr.header, hd := k.hd, words := k.words, idx := off / 4 - 1, ops := k.ops.filter s.opLive, stale := true } }
       else s.vpFetch row e fr.resume
     | none => s.vpFetch row e fr.resume)
  | .ctl row =>
    match s.row? row with
    | none => s
    | some r =>
      let setPc (s : State) (pc : Word) : State := s.modRow row fun q => { q with th := { q.th with pc := pc } }
      match fr.course with
      | 0 =>
        let s := setPc s fr.resume
        if trunc then
          (s.modSlice r fun sl => { sl with vl := fr.f }).modRow row fun q =>
            { q with rind := q.rind.map fun k => { k with vl := fr.f } }
        else s
      | 1 =>
        let s := s.modSlice r fun sl =>
          if trunc then { sl with vl := fr.f, vestart := 0 }
          else { sl with vestart := if fr.f < sl.vl then fr.f else 0 }
        if fr.blk then
          match fr.run with
          | some k =>
            let k := { k with idx := if trunc then k.idx + 1 else k.idx, xs := r.th.x, vfpc := fr.resume - 4
                              ops := k.ops.filter s.opLive, flagged := k.flagged.filter s.opLive, seeded := [] }
            let k := { k with late := decide (k.idx < k.words.length) }
            let s := setPc s fr.resume
            s.modRow row fun q =>
              if k.idx < k.words.length ∨ k.ops ≠ [] then { q with blocks := [k] }
              else { q with blocks := [], recvQ := q.recvQ.filter fun p => !p.2.blk }
          | none => setPc s fr.resume
        else setPc s (if trunc && fr.resume = fr.pc then fr.pc + 4 else fr.resume)
      | 3 =>
        let s := setPc s fr.resume
        match fr.op with
        | some o =>
          match s.op? o with
          | some q =>
            match q.kind.cls with
            | some c =>
              let s := s.modOp o fun q => { q with stopped := false, cls := some c, seq := r.seqs.getD c 0, since := s.clock.et }
              s.modRow row fun q => { q with cnt := incAt q.cnt c, seqs := incAt q.seqs c }
            | none => s.modOp o fun q => { q with stopped := false, since := s.clock.et }
          | none => s
        | none => s
      | _ => if fr.header ≠ 0 ∧ r.blocks ≠ [] ∧ fr.resume = fr.pc then s else setPc s fr.resume

/-- `fresume`, `fresume.t` (R319): the thread goes on and the record leaves the cave. -/
def State.resume (s : State) (fr : FRec) (trunc : Bool) : State :=
  (s.resumeThread fr trunc).dropRec fr true

/-- The matrix unit loses its holder (R246), and the row's waiting request is dropped. -/
def State.dropUnit (s : State) (cluster row : Nat) : State :=
  s.modCluster cluster fun c => { c with mx := { c.mx with
    holder := if c.mx.holder = some row then none else c.mx.holder
    waiting := c.mx.waiting.filter (· != row) } }

/-- End a row (R124, R321, R327, R340): its operations and records end, its unit, context, slices, images and context-pool slot
are released, and its launch takes account of it. -/
def State.endRow (s : State) (row : Nat) (killed : Bool) : State :=
  match s.row? row with
  | none => s
  | some r =>
    let s := s.dropUnit r.cluster row
    let away := s.ops.filter fun o => o.row == row && o.kind.writesAway && !o.stopped
    let s := s.cancelOps fun o => o.row == row
    let recs := s.cave.recs.filter fun k => tidRow k.who == some row
    let s := recs.foldl (fun s k => (s.dropRec k false).endStepWait k.id) s
    let g := maxL (r.th.gwct :: r.vps.map fun p => p.2.gwct)
    let s := { s with slices := s.slices.map fun (q : Nat × Slice) =>
      if q.1 / 16 = r.cluster ∧ q.2.owner = r.owner then (q.1, { q.2 with owner := 0, strip := StripV.closed }) else q }
    let s := { s with cave := { s.cave with heldOps := s.cave.heldOps.filter fun k => tidRow k.who != some row } }
    let last := !(s.rows.any fun q => q.id != row && q.cluster == r.cluster && q.image == r.image)
    let s := if last then s.modCluster r.cluster fun c =>
        { c with images := c.images.filter (·.1 != r.image), rejoin := c.rejoin.filter (·.1 != r.image) } else s
    { s with
      rows := s.rows.filter (·.id != row)
      mem := { s.mem with
        lockQ := s.mem.lockQ.filter fun q => tidRow q.2.1 != some row
        eventQ := s.mem.eventQ.filter fun q => tidRow q.2 != some row
        groups := s.mem.groups.map fun b => { b with threads := b.threads.filter fun t => tidRow t != some row } }
      clock := { s.clock with issue := s.clock.issue.filter fun a => match a with
        | .ctl k | .lanes k | .drain k => k != row
        | .bundle k _ => k != row
        | .hnd _ => true }
      engine := { s.engine with
        pool := s.engine.pool.filter (· != r.part * 1024 + r.pool)
        launches := s.engine.launches.map fun l => if l.id = r.launch then
          { l with killed := l.killed + killed.toNat, forced := l.forced, gwct := max l.gwct g
                   late := l.late ++ (s.mem.writes.filter fun w => tidRow w.thread == some row).map (·.id)
                   remote := l.remote ++ away } else l } }

/-- The rows of a launch end as by `fkill` (R311, R366, R386, R388), those not yet placed with them. -/
def State.killLaunch (s : State) (l : Nat) : State :=
  let rs := (s.rows.filter (·.launch == l)).map (·.id)
  let s := rs.foldl (fun s k => s.endRow k true) s
  { s with engine := { s.engine with launches := s.engine.launches.map fun q =>
      if q.id = l then { q with forced := true, next := q.teams, placed := [] } else q } }

/-- A handler ends (R322): its capabilities return their records to the tail of the queue, and its slot frees. -/
def State.endHandler (s : State) (h : Nat) : State :=
  match s.hnd? h with
  | none => s
  | some t =>
    let ks := t.k.filterMap id
    let s := ks.foldl (fun s k => match s.fr? k with
      | some r => (s.modRec k fun q => { q with st := .queued }).enqueue k r.cluster
      | none => s) s
    { s with handlers := s.handlers.filter (·.slot != h) }

/-- A machine check (R311, R388): logged with the code and token, and every launch that owns a frozen record on the cluster ends
as by `fkill`. -/
def State.machineCheck (s : State) (cluster : Nat) (fr : FRec) (cause : Nat) : State :=
  let owners := s.ownersOn cluster
  let s := s.log 2 fr.part cluster (fr.code.num + 256 * cause) fr.token.toNat
  owners.foldl State.killLaunch s

end Sys2Proof.Machine
end

