-- ==== Sys2Proof/Machine/Flags.lean ====
section
/-! DEFINITION. Number formats and the flags they raise: exact values, the one rounding function of R75, the storage formats of
R76 to R82, fixed-point rounding and saturation (R75, R85). FFLAGS values are the bits of R65: NV 16, DZ 8, OF 4, UF 2, NX 1. -/

namespace Sys2Proof.Machine

/-- A float layout (R77): exponent bits, significand bits, bias; whether it has infinities. -/
structure FFmt where
  eb : Nat
  mb : Nat
  bias : Nat
  hasInf : Bool
deriving DecidableEq, Repr

/-- f32 (R77). -/
def fmtF32 : FFmt := { eb := 8, mb := 23, bias := 127, hasInf := true }
/-- bf16 (R77). -/
def fmtBf16 : FFmt := { eb := 8, mb := 7, bias := 127, hasInf := true }
/-- fp16 (R77). -/
def fmtFp16 : FFmt := { eb := 5, mb := 10, bias := 15, hasInf := true }
/-- e5m2 (R77). -/
def fmtE5m2 : FFmt := { eb := 5, mb := 2, bias := 15, hasInf := true }
/-- e4m3 (R77). -/
def fmtE4m3 : FFmt := { eb := 4, mb := 3, bias := 7, hasInf := false }

/-- Rounding modes (R65, R75). -/
inductive RMode where
  | rne | rtz | rdn | rup | rmm
deriving DecidableEq, Repr

/-- The mode FRM holds (R65). -/
def RMode.ofFrm : Nat → RMode
  | 1 => .rtz | 2 => .rdn | 3 => .rup | 4 => .rmm | _ => .rne

/-- NV, DZ, OF, UF, NX (R65). -/
def fNV : Nat := 16
/-- Division by zero. -/
def fDZ : Nat := 8
/-- Overflow. -/
def fOF : Nat := 4
/-- Underflow. -/
def fUF : Nat := 2
/-- Inexact. -/
def fNX : Nat := 1

/-- canonical_nan (R75). -/
def canonicalNan (f : FFmt) : Nat := if f.hasInf then (2 ^ f.eb - 1) * 2 ^ f.mb + 2 ^ (f.mb - 1) else 0x7F

/-- The number of bits of a format. -/
def FFmt.width (f : FFmt) : Nat := 1 + f.eb + f.mb

/-- The sign bit of a pattern. -/
def FFmt.neg (f : FFmt) (b : Nat) : Bool := bit b (f.eb + f.mb)

/-- The exact value of a pattern (R77). -/
def FFmt.decode (f : FFmt) (b : Nat) : XF :=
  let s := f.neg b
  let e := bits b f.mb f.eb
  let m := bits b 0 f.mb
  if f.hasInf && e == 2 ^ f.eb - 1 then (if m = 0 then .inf s else .nan)
  else if !f.hasInf && e == 2 ^ f.eb - 1 && m == 2 ^ f.mb - 1 then .nan
  else if e = 0 then .fin s m (1 - (f.bias : Int) - f.mb)
  else .fin s (2 ^ f.mb + m) ((e : Int) - f.bias - f.mb)

/-- A signalling NaN (R77). -/
def FFmt.isSnan (f : FFmt) (b : Nat) : Bool := f.hasInf && f.decode b == .nan && !bit b (f.mb - 1)

/-- The E2M1 value of a 4-bit code (R78). -/
def decodeE2m1 (b : Nat) : XF :=
  let e := bits b 1 2
  let m := bits b 0 1
  if e = 0 then .fin (bit b 3) m (-1) else .fin (bit b 3) (2 + m) ((e : Int) - 2)

/-- The E3M5 value of a byte (R77, R78). -/
def decodeE3m5 (b : Nat) : XF :=
  let e := bits b 5 3
  let m := bits b 0 5
  if b % 256 = 255 then .nan else if e = 0 then .fin false m (-7) else .fin false (32 + m) ((e : Int) - 8)

/-- Whether rounding away from zero applies: low bit of the kept part, exactly half dropped, more than half dropped, any
dropped, sign (R75). -/
def roundUp (m : RMode) (odd half more any neg : Bool) : Bool :=
  match m with
  | .rne => more || (half && odd)
  | .rtz => false
  | .rdn => any && neg
  | .rup => any && !neg
  | .rmm => more || half

/-- The integer nearest `(m + δ) / 2^n` under a mode, `0 < δ < 1` when `st`; and whether it is exact. -/
def roundShift (rm : RMode) (neg : Bool) (m n : Nat) (st : Bool) : Nat × Bool :=
  let q := m / 2 ^ n
  let d := m % 2 ^ n
  let h := 2 ^ n / 2
  let any := d != 0 || st
  let half := n != 0 && d == h && !st
  let more := n != 0 && (h < d || (d == h && st))
  (q + (roundUp rm (q % 2 == 1) half more any neg).toNat, !any)

/-- The value nearest `(-1)^neg × (m + δ) × 2^e` in a format, with its flags (R75): tininess after rounding, e4m3 saturating. -/
def roundFin (f : FFmt) (rm : RMode) (neg : Bool) (m : Nat) (e : Int) (st : Bool) : Nat × Nat :=
  let sgn := neg.toNat * 2 ^ (f.eb + f.mb)
  if m = 0 ∧ !st then (sgn, 0)
  else
    let top : Int := (Nat.log2 m : Int) + e
    let emin : Int := 1 - f.bias
    let q : Int := max top emin - f.mb
    let (k, exact) := if q ≤ e then (m * 2 ^ (e - q).toNat, !st) else roundShift rm neg m (q - e).toNat st
    let tiny :=
      top < emin &&
        (let q' : Int := top - f.mb
         let k' := if q' ≤ e then m * 2 ^ (e - q').toNat else (roundShift rm neg m (q' - e).toNat st).1
         !(top == emin - 1 && k' == 2 ^ (f.mb + 1)))
    let biased : Int := if k < 2 ^ f.mb then 0 else q + f.mb + f.bias
    let mag : Nat := if k < 2 ^ f.mb then k else (biased.toNat * 2 ^ f.mb) + (k - 2 ^ f.mb)
    let lim := if f.hasInf then (2 ^ f.eb - 1) * 2 ^ f.mb else 0x7F
    if lim ≤ mag then
      let toInf := f.hasInf && (match rm with
        | .rne | .rmm => true
        | .rtz => false
        | .rdn => neg
        | .rup => !neg)
      (sgn + (if toInf then lim else lim - 1), fOF + fNX)
    else (sgn + mag, (if exact then 0 else fNX + (if tiny then fUF else 0)))

/-- round(x, f, m) of R75. -/
def roundX (f : FFmt) (rm : RMode) : XF → Nat × Nat
  | .nan => (canonicalNan f, 0)
  | .inf n =>
    if f.hasInf then (n.toNat * 2 ^ (f.eb + f.mb) + (2 ^ f.eb - 1) * 2 ^ f.mb, 0)
    else (n.toNat * 2 ^ (f.eb + f.mb) + 0x7E, fOF + fNX)
  | .fin n m e => roundFin f rm n m e false

/-- The signed integer `±m` aligned to exponent `e0 ≤ e`. -/
def alignI (n : Bool) (m : Nat) (e e0 : Int) : Int := (if n then -1 else 1) * (m * 2 ^ (e - e0).toNat : Nat)

/-- The exact sum, with the sign of a zero sum under the mode (R165), and NV for opposite infinities. -/
def xadd (rm : RMode) : XF → XF → XF × Nat
  | .nan, _ => (.nan, 0)
  | _, .nan => (.nan, 0)
  | .inf a, .inf b => if a = b then (.inf a, 0) else (.nan, fNV)
  | .inf a, _ => (.inf a, 0)
  | _, .inf b => (.inf b, 0)
  | .fin a m e, .fin b k g =>
    let e0 := min e g
    let t := alignI a m e e0 + alignI b k g e0
    if t = 0 then (.fin (if a = b then a else rm == .rdn) 0 0, 0) else (.fin (decide (t < 0)) t.natAbs e0, 0)

/-- The exact negation. -/
def xneg : XF → XF
  | .nan => .nan
  | .inf a => .inf (!a)
  | .fin a m e => .fin (!a) m e

/-- The value is a zero. -/
def XF.isZero : XF → Bool
  | .fin _ 0 _ => true
  | _ => false

/-- The exact product, NV for infinity times zero (R165). -/
def xmul : XF → XF → XF × Nat
  | .nan, y => if y.isZero then (.nan, 0) else (.nan, 0)
  | _, .nan => (.nan, 0)
  | .inf a, .inf b => (.inf (a != b), 0)
  | .inf a, .fin b m _ => if m = 0 then (.nan, fNV) else (.inf (a != b), 0)
  | .fin a m _, .inf b => if m = 0 then (.nan, fNV) else (.inf (a != b), 0)
  | .fin a m e, .fin b k g => (.fin (a != b) (m * k) (e + g), 0)

/-- The floor of a square root, bit by bit from bit `b - 1`. -/
def isqrtFrom (x : Nat) : Nat → Nat → Nat
  | 0, r => r
  | b + 1, r => isqrtFrom x b (if (r + 2 ^ b) * (r + 2 ^ b) ≤ x then r + 2 ^ b else r)

/-- The floor of the square root. -/
def isqrt (x : Nat) : Nat := isqrtFrom x (Nat.log2 x / 2 + 1) 0

/-- x / y rounded (R165). -/
def roundDiv (f : FFmt) (rm : RMode) (x y : XF) : Nat × Nat :=
  match x, y with
  | .nan, _ => (canonicalNan f, 0)
  | _, .nan => (canonicalNan f, 0)
  | .inf _, .inf _ => (canonicalNan f, fNV)
  | .inf a, .fin b _ _ => roundX f rm (.inf (a != b))
  | .fin a _ _, .inf b => roundX f rm (.fin (a != b) 0 0)
  | .fin a m e, .fin b k g =>
    if k = 0 then (if m = 0 then (canonicalNan f, fNV) else ((roundX f rm (.inf (a != b))).1, fDZ))
    else if m = 0 then roundX f rm (.fin (a != b) 0 0)
    else
      let sh := 64 + Nat.log2 k
      roundFin f rm (a != b) (m * 2 ^ sh / k) (e - g - sh) (m * 2 ^ sh % k != 0)

/-- √x rounded (R167). -/
def roundSqrt (f : FFmt) (rm : RMode) : XF → Nat × Nat
  | .nan => (canonicalNan f, 0)
  | .inf true => (canonicalNan f, fNV)
  | .inf false => roundX f rm (.inf false)
  | .fin n 0 e => roundX f rm (.fin n 0 e)
  | .fin true _ _ => (canonicalNan f, fNV)
  | .fin false m e =>
    let odd := e % 2 != 0
    let m' := (if odd then 2 * m else m) * 4 ^ 64
    let e' := (if odd then e - 1 else e) / 2 - 64
    let r := isqrt m'
    roundFin f rm false r e' (r * r != m')

/-- 1/x rounded (R167). -/
def roundRcp (f : FFmt) (rm : RMode) (x : XF) : Nat × Nat := roundDiv f rm (.fin false 1 0) x

/-- 1/√x rounded (R167). -/
def roundRsq (f : FFmt) (rm : RMode) : XF → Nat × Nat
  | .nan => (canonicalNan f, 0)
  | .inf true => (canonicalNan f, fNV)
  | .inf false => roundX f rm (.fin false 0 0)
  | .fin n 0 _ => ((roundX f rm (.inf n)).1, fDZ)
  | .fin true _ _ => (canonicalNan f, fNV)
  | .fin false m e =>
    let odd := e % 2 != 0
    let m' := if odd then 2 * m else m
    let e' := (if odd then e - 1 else e) / 2
    let k := 64 + Nat.log2 m'
    let q := 4 ^ k / m'
    let r := isqrt q
    roundFin f rm false r (-e' - k) (!(4 ^ k % m' == 0 && r * r == q))

/-- Bits of the fixed-point fraction of `exp2`. -/
def expPrec : Nat := 192

/-- 2^(frac / 2^n) to `expPrec` fraction bits, rounded down: a product of the square roots of square roots of 2. `c` is
2^(2^-i), `frac` the bits still to use, most significant first of `n`. -/
def exp2Frac : Nat → Nat → Nat → Nat → Nat
  | 0, _, _, acc => acc
  | n + 1, frac, c, acc =>
    let acc := if bit frac n then acc * c / 2 ^ expPrec else acc
    exp2Frac n (frac % 2 ^ n) (isqrt (c * 2 ^ expPrec)) acc

/-- 2^x rounded (R167). Beyond ±2^20 the result overflows or underflows in every format. The fraction's power is computed to 192
bits and never is a rounding boundary, being irrational (log 9). -/
def roundExp2 (f : FFmt) (rm : RMode) : XF → Nat × Nat
  | .nan => (canonicalNan f, 0)
  | .inf true => roundX f rm (.fin false 0 0)
  | .inf false => roundX f rm (.inf false)
  | .fin n m e =>
    if m = 0 then roundX f rm (.fin false 1 0)
    else if 20 < (Nat.log2 m : Int) + e then
      (if n then roundFin f rm false 1 (-4096) true else roundFin f rm false 1 4096 true)
    else
      let k : Nat := if e < 0 then e.natAbs else 0
      let x : Int := alignI n m (if e < 0 then 0 else e) 0
      let ip : Int := x / (2 ^ k : Nat)
      let fr : Nat := (x % (2 ^ k : Nat)).toNat
      if fr = 0 then roundFin f rm false 1 ip false
      else
        let p := exp2Frac k fr (isqrt (2 * 4 ^ expPrec)) (2 ^ expPrec)
        roundFin f rm false p (ip - expPrec) true

/-- The order of two values that are no NaN: -1, 0, 1, with −0 equal to +0. -/
def xcmp : XF → XF → Int
  | .inf a, .inf b => (if a = b then 0 else if a then -1 else 1)
  | .inf a, _ => if a then -1 else 1
  | _, .inf b => if b then 1 else -1
  | .fin a m e, .fin b k g =>
    let e0 := min e g
    let d := alignI a m e e0 - alignI b k g e0
    if d < 0 then -1 else if d = 0 then 0 else 1
  | _, _ => 0

/-- minimumNumber (`wantMax` false) or maximumNumber on patterns, with −0 below +0 (R166). -/
def fminmax (f : FFmt) (wantMax : Bool) (a b : Nat) : Nat × Nat :=
  let fl := if f.isSnan a || f.isSnan b then fNV else 0
  let x := f.decode a
  let y := f.decode b
  if x = .nan ∧ y = .nan then (canonicalNan f, fl)
  else if x = .nan then (b, fl)
  else if y = .nan then (a, fl)
  else
    let c := xcmp x y
    let less := if c = 0 then f.neg a && !f.neg b else c < 0
    (if less = wantMax then b else a, fl)

/-- The flags a signalling input raises (R84). -/
def snanFlag (f : FFmt) (l : List Nat) : Nat := if l.any f.isSnan then fNV else 0

/-- OR of flag sets. -/
def orF (a b : Nat) : Nat := a ||| b

/-- A binary arithmetic result (R164, R165). -/
def fArith2 (f : FFmt) (rm : RMode) (op : XF → XF → XF × Nat) (a b : Nat) : Nat × Nat :=
  let (x, fl) := op (f.decode a) (f.decode b)
  let (r, g) := roundX f rm x
  (r, orF (orF fl g) (snanFlag f [a, b]))

/-- va × src ± vd, once rounded (R165): `np` negates the product, `nc` the addend. -/
def fArith3 (f : FFmt) (rm : RMode) (np nc : Bool) (a b c : Nat) : Nat × Nat :=
  let (p, fl) := xmul (f.decode a) (f.decode b)
  let p := if np then xneg p else p
  let cv := f.decode c
  let (x, g) := xadd rm p (if nc then xneg cv else cv)
  let (r, h) := roundX f rm x
  (r, orF (orF fl g) (orF h (snanFlag f [a, b, c])))

/-- The exact value of an integer. -/
def xint (x : Int) : XF := .fin (decide (x < 0)) x.natAbs 0

/-- A float rounded to an integer under a mode: the integer and whether it is exact; none for NaN or infinity. -/
def xToInt (rm : RMode) : XF → Option (Int × Bool)
  | .fin n m e =>
    if 0 ≤ e then some (alignI n m e 0, true)
    else
      let (q, ex) := roundShift rm n m e.natAbs false
      some ((if n then -(q : Int) else q), ex)
  | _ => none

/-- Convert between float formats (R162, R197): a NaN gives canonical_nan, a signalling one sets NV. -/
def fConvert (src dst : FFmt) (rm : RMode) (b : Nat) : Nat × Nat :=
  let (r, g) := roundX dst rm (src.decode b)
  (r, orF g (if src.isSnan b then fNV else 0))

/-- Saturate (R75): the bound taken and whether VSAT is set. -/
def satI (x lo hi : Int) : Int × Bool := if x < lo then (lo, true) else if hi < x then (hi, true) else (x, false)

/-- rshift_round (R75): VXRM 0 rnu, 1 rne, 2 rdn, 3 rod. -/
def rshiftRound (x : Int) (n mode : Nat) : Int :=
  if n = 0 then x
  else
    let q := x / (2 ^ n : Nat)
    let d := (x % (2 ^ n : Nat)).toNat
    let h := 2 ^ (n - 1)
    if mode = 0 ∧ h ≤ d then q + 1
    else if mode = 1 ∧ (h < d ∨ (d = h ∧ q % 2 = 1)) then q + 1
    else if mode = 3 ∧ d ≠ 0 ∧ q % 2 = 0 then q + 1
    else q

/-- Leading zeros of `v` in `t` bits (R115, R155). -/
def clzN (t v : Nat) : Nat := if v % 2 ^ t = 0 then t else t - 1 - Nat.log2 (v % 2 ^ t)

/-- Trailing zeros of `v` in `t` bits. -/
def ctzN : Nat → Nat → Nat
  | 0, _ => 0
  | t + 1, v => if v % 2 = 1 then 0 else 1 + ctzN t (v / 2)

/-- One bits of `v` in `t` bits. -/
def popN : Nat → Nat → Nat
  | 0, _ => 0
  | t + 1, v => v % 2 + popN t (v / 2)

end Sys2Proof.Machine

namespace Sys2Proof

open Sys2Proof.Machine

/-! Tags and storage formats. -/

/-- The width of a tag (R66). -/
def Tag.width : Tag → Nat
  | .none => 8 | .i8 => 8 | .i16 => 16 | .i32 => 32 | .i64 => 64 | .bf16 => 16 | .f32 => 32 | .macc => 32

/-- Integer tags (R66). -/
def Tag.isInt : Tag → Bool
  | .i8 | .i16 | .i32 | .i64 => true
  | _ => false

/-- Float tags (R66). -/
def Tag.isFloat : Tag → Bool
  | .bf16 | .f32 => true
  | _ => false

/-- Arithmetic tags: integer or float. -/
def Tag.isArith (t : Tag) : Bool := t.isInt || t.isFloat

/-- The integer tag of a width. -/
def intTag (t : Nat) : Tag := if t = 8 then .i8 else if t = 16 then .i16 else if t = 32 then .i32 else .i64

/-- The float layout of a tag. -/
def Tag.ffmt : Tag → FFmt
  | .bf16 => fmtBf16
  | _ => fmtF32

/-- The float layout of a storage format (R77). -/
def Fmt.ffmt? : Fmt → Option FFmt
  | .fp16 => some fmtFp16 | .bf16 => some fmtBf16 | .f32 => some fmtF32 | .e4m3 => some fmtE4m3 | .e5m2 => some fmtE5m2
  | _ => none

/-- Storage bits of one element of an unscaled format (R76, R194). -/
def Fmt.bits : Fmt → Nat
  | .i8 | .e4m3 | .e5m2 | .e4m3b => 8
  | .i16 | .fp16 | .bf16 => 16
  | .i32 | .f32 => 32
  | .i64 => 64
  | .i4 | .q4l | .fp4b => 4
  | .b1 => 1
  | .native => 0

/-- The tag a load of a format gives, for a destination of tag `vd` (R81, R194). -/
def Fmt.resultTag (f : Fmt) (vd : Tag) : Tag :=
  match f with
  | .native => vd
  | .i8 | .i4 => .i8
  | .i16 => .i16
  | .i32 => .i32
  | .i64 => .i64
  | .fp16 | .f32 | .fp4b | .e4m3b => .f32
  | .bf16 | .e4m3 | .e5m2 | .q4l => .bf16
  | .b1 => .none

/-- The format that stores a tag without conversion. -/
def Tag.native : Tag → Fmt
  | .i8 => .i8 | .i16 => .i16 | .i32 => .i32 | .i64 => .i64 | .bf16 => .bf16 | .f32 => .f32 | _ => .native

/-- The storage format is of the integer kind (R82). -/
def Fmt.isIntFmt : Fmt → Bool
  | .i8 | .i16 | .i32 | .i64 | .i4 => true
  | _ => false

/-- Packed formats, whose elements are smaller than a byte or come in records (R195). -/
def Fmt.packed : Fmt → Bool
  | .i4 | .b1 | .q4l | .fp4b | .e4m3b => true
  | _ => false

end Sys2Proof

namespace Sys2Proof.Machine

/-- Widen a stored element pattern of an unscaled format to its result tag, with the flags (R81). -/
def widen (f : Fmt) (raw : Nat) : Nat × Nat :=
  match f with
  | .i4 => (lowBits (sextI raw 4) 8, 0)
  | .fp16 => fConvert fmtFp16 fmtF32 .rne raw
  | .e4m3 => fConvert fmtE4m3 fmtBf16 .rne raw
  | .e5m2 => fConvert fmtE5m2 fmtBf16 .rne raw
  | _ => (raw, 0)

/-- A band-scaled element (R81): E2M1 × E3M5 or e4m3, times the bf16 band scale, rounded once to f32. -/
def widenBand (x : XF) (scale : Option XF) (band : Nat) : Nat × Nat :=
  let b := fmtBf16.decode band
  let sn := if fmtBf16.isSnan band then fNV else 0
  let inner := match scale with
    | some s => xmul x s
    | none => (x, 0)
  let nanIn := inner.1 == .nan
  let (p, fl) := xmul inner.1 b
  let (r, g) := roundX fmtF32 .rne p
  (r, orF sn (if nanIn || b == .nan then 0 else orF fl g))

/-- Narrow or widen a register element of a tag into a storage format, with the flags (R82, R197). -/
def narrow (tag : Tag) (f : Fmt) (rm : RMode) (v : Nat) : Nat × Nat :=
  match f.ffmt? with
  | some g => if f = tag.native then (v, 0) else fConvert tag.ffmt g rm v
  | none =>
    match f with
    | .native => (v, 0)
    | _ => (lowBits (sextI v tag.width) f.bits, 0)

/-- A format may store a tag (R82, R194). -/
def storeKindOk (tag : Tag) (f : Fmt) : Bool :=
  match f with
  | .native => tag.isArith
  | .fp4b | .e4m3b | .q4l | .b1 => false
  | _ => if f.isIntFmt then tag.isInt else tag.isFloat

end Sys2Proof.Machine
end

