-- ==== Sys2Proof/Machine/Operands.lean ====
section
/-! DEFINITION. The operand forms of the lane instructions (R97, R148): vector registers laid out over the lanes (R68 to R72),
masks (R73), scalars, immediates, banks and streams; and the one operation that writes a destination (R149 to R151). -/

namespace Sys2Proof.Machine

/-- The registers an operand of width `t` spans (R68): G_op. -/
def gop (ew grp t : Nat) : Nat := max 1 (2 ^ grp * t / ewBits ew)

/-- R58, R68: the operand at `vB` is aligned, spans at most 8 registers and stays below the declared count. -/
def operandOk (sl : Slice) (nreg vB t : Nat) : Bool :=
  let g := gop sl.ew sl.grp t
  g ≤ 8 && vB % g == 0 && vB + g ≤ nreg

/-- byte_loc (R69): register and key (lane × 64 + byte) of byte `j` of element `e`. -/
def byteLoc (w vB tb e j : Nat) : Nat × Nat :=
  let off := e / w * tb + j
  (vB + off / 64, e % w * 64 + off % 64)

/-- A byte as it reads at place `k`: an undefined one is a free value of its seed and place (R5). -/
def BCell.read (c : BCell) (k : Nat) : Byte :=
  match c with
  | .val b => b
  | .undef n => Config.freeByte n k

/-- A byte of register `n`. -/
def VReg.byte (q : VReg) (n k : Nat) : Byte := ((FMap.get? q.bytes k).getD q.fill).read (n * 4096 + k)

/-- Register `n` of a slice set. -/
def Slice.reg (sl : Slice) (n : Nat) : VReg := sl.v[n]?.getD (VReg.fresh 0)

/-- Change register `n`. -/
def Slice.modReg (sl : Slice) (n : Nat) (f : VReg → VReg) : Slice := { sl with v := sl.v.setIfInBounds n (f (sl.reg n)) }

/-- Mask `n` of a slice set. -/
def Slice.mask (sl : Slice) (n : Nat) : MaskV := sl.m[n]?.getD MaskV.fresh

/-- Element `e` of the operand at `vB`, width `t` bits, in a row of width `w` (R69, R70). -/
def Slice.elem (sl : Slice) (w vB t e : Nat) : Nat :=
  leNat ((List.range (t / 8)).map fun j =>
    let p := byteLoc w vB (t / 8) e j
    (sl.reg p.1).byte p.1 p.2)

/-- Write the bytes of element `e` (R69), with no other effect. -/
def Slice.pokeElem (sl : Slice) (w vB t e : Nat) (v : Nat) : Slice :=
  ((leBytes (t / 8) v).zipIdx).foldl (fun sl p =>
    let k := byteLoc w vB (t / 8) e p.2
    sl.modReg k.1 fun q => { q with bytes := FMap.set q.bytes k.2 (.val p.1) }) sl

/-- Mark the bytes of element `e` undefined of seed `n` (R34). -/
def Slice.undefElem (sl : Slice) (w vB t e n : Nat) : Slice :=
  (List.range (t / 8)).foldl (fun sl j =>
    let k := byteLoc w vB (t / 8) e j
    sl.modReg k.1 fun q => { q with bytes := FMap.set q.bytes k.2 (.undef n) }) sl

/-- Raise HWM for a written element (R71) and set its VDIRTY bit (R72). -/
def Slice.touch (sl : Slice) (w vB t e : Nat) : Slice :=
  let tb := t / 8
  let m := e / w * tb / 64
  let le := e - m * w * (64 / tb)
  { sl.modReg (vB + m) (fun q => { q with hwm := max q.hwm (le + 1) }) with
    vdirty := sl.vdirty ||| BitVec.ofNat 32 (2 ^ (vB + m)) }

/-- Byte `j` of element `e` of an operand is written: a register word with all of its bytes written anew has no parity error (R379). -/
def clearMark (w vB t e : Nat) (ps : List ((Nat × Nat) × Nat)) (j : Nat) : List ((Nat × Nat) × Nat) :=
  let k := byteLoc w vB (t / 8) e j
  ps.filterMap fun q =>
    if q.1 = (k.1 * 8 + k.2 % 64 / 8, k.2 / 64) then (match q.2 &&& (255 - 2 ^ (k.2 % 8)) with | 0 => none | m => some (q.1, m)) else some q

/-- Take the parity marks of the bytes an element covers (R379). -/
def Slice.unmark (sl : Slice) (w vB t e : Nat) : Slice := { sl with parity := (List.range (t / 8)).foldl (clearMark w vB t e) sl.parity }

/-- Write element `e` of an operand with the marks of R71, R72 and R379. -/
def Slice.setElem (sl : Slice) (w vB t e v : Nat) : Slice := ((sl.pokeElem w vB t e v).touch w vB t e).unmark w vB t e

/-- Give a register a tag with HWM 0 (R150); VDIRTY is set where the tag changes (R72). -/
def Slice.giveTag (sl : Slice) (n : Nat) (t : Tag) : Slice :=
  { sl.modReg n (fun q => { q with tag := t, hwm := 0 }) with
    vdirty := if (sl.reg n).tag = t then sl.vdirty else sl.vdirty ||| BitVec.ofNat 32 (2 ^ n) }

/-- Give a register a tag as `vtagw` does (R134): HWM 0 and VDIRTY set. -/
def Slice.setTag (sl : Slice) (n : Nat) (t : Tag) : Slice :=
  { sl.modReg n (fun q => { q with tag := t, hwm := 0 }) with vdirty := sl.vdirty ||| BitVec.ofNat 32 (2 ^ n) }

/-- A mask selects an element: m0 selects every one (R25, R73). -/
def Slice.maskBit (sl : Slice) (m e : Nat) : Bool := m == 0 || (sl.mask m).set.contains e

/-- Set or clear an element of a mask. -/
def maskPut (l : List Nat) (e : Nat) (b : Bool) : List Nat := if b then insertNat e l else l.filter (· != e)

/-- Why a lane instruction does not complete: a fault at an element (R151), or an entry or a sibling it must wait for. -/
inductive LErr where
  | fault (code : Code) (f : Nat) (addr1 pos unit : Nat)
  | stall
  /-- The entries of stream `n` below position `upto` have not all arrived (R148). -/
  | await (n upto : Nat)
deriving DecidableEq, Repr

/-- A fault at element `f` that names no address. -/
def LErr.at (c : Code) (f : Nat) : LErr := .fault c f 0 0 0

/-- What a lane instruction sees and changes: the row and its slices, the elements it may act on, and the captured operands. -/
structure LV where
  r : Row
  sl : Slice
  free : Nat
  /-- Elements from `lo` below `vl` that R25, R44 and R64 make active, before the mask, ascending. -/
  acts : List Nat
  lo : Nat
  vl : Nat
  /-- The element of a VP in thread mode. -/
  thr : Option Nat
  /-- In a drain: first element of the accumulator row and the values D[j] (R265). -/
  drain : Option (Nat × List Nat)
  x : Vector Word 32
  sb : Vector Word 8
  sends : FMap (List QEnt)
  rcvd : FMap Nat
  /-- Registers (0 to 31) and masks (32 + n) read and written, for R36. -/
  rd : List Nat
  wr : List Nat
  /-- Elements read (R379): first register, width, and for each the active element that reads it. -/
  els : List (Nat × Nat × List (Nat × Nat))
  /-- The elements of `acts` before a fault cut the word short (R37). -/
  whole : List Nat
  /-- A stream operand that cannot be had: raised where the tags raise nothing (R151). -/
  pend : Option LErr
deriving DecidableEq, Repr

/-- A lane instruction's effect. -/
abbrev LOp := LV → Except LErr LV

/-- The elements active under a mask (R25). -/
def LV.active (v : LV) (m : MaskReg) : List Nat := v.acts.filter fun e => v.sl.maskBit m e

/-- The lowest active element, where tag faults are reported (R151). -/
def lowest (acts : List Nat) : Nat := acts.headD 0

/-- The declared registers of the row (R58). -/
def LV.nreg (v : LV) : Nat := nregOf v.r.nregCode

/-- The tag an operand is read under: the drain source reads as f32 (R265). -/
def LV.tagOf (v : LV) (r : Reg) : Tag := if v.drain.isSome && r.val == 24 then .f32 else (v.sl.reg r).tag

/-- VLMAX of the row. -/
def LV.vlmax (v : LV) : Nat := vlmaxOf v.r.w v.sl.ew v.sl.grp

/-- The register that holds the first byte of element `e` (R69). -/
def regOf (w vB t e : Nat) : Nat := (byteLoc w vB (t / 8) e 0).1

/-- Note elements read, each as (reader, element), and the registers that hold them (R36, R379). -/
def LV.noteReads (v : LV) (vB t : Nat) (ps : List (Nat × Nat)) : LV :=
  { v with rd := v.rd ++ (ps.map fun p => regOf v.r.w vB t p.2).dedup, els := v.els ++ [(vB, t, ps)] }

/-- Note elements that the elements of the same numbers read. -/
def LV.noteEls (v : LV) (vB t : Nat) (es : List Nat) : LV := v.noteReads vB t (es.map fun e => (e, e))

/-- Note elements that the lowest active element reads for the word. -/
def LV.noteFor (v : LV) (f vB t : Nat) (es : List Nat) : LV := v.noteReads vB t (es.map fun e => (f, e))

/-- Note a mask read (R36). -/
def LV.noteMask (v : LV) (m : MaskReg) : LV := if m = 0 then v else { v with rd := v.rd ++ [32 + m.val] }

/-- Element `e` of a register under the tag it is read with. -/
def LV.elem (v : LV) (r : Reg) (e : Nat) : Nat :=
  match v.drain with
  | some (b, d) => if r.val = 24 then d.getD (e - b) 0 else v.sl.elem v.r.w r (v.tagOf r).width e
  | none => v.sl.elem v.r.w r (v.tagOf r).width e

/-- The register limits of an operand, tested as the word executes (R104 step 5). -/
def LV.limits (v : LV) (r : Reg) (t : Nat) (acts : List Nat) : Except LErr Unit :=
  if (v.drain.isSome && r.val == 24) || operandOk v.sl v.nreg r t then .ok () else .error (.at .illop (lowest acts))

/-- A fetched operand: its tag where it has one, and a value for each active element. -/
structure Opd where
  tag : Option Tag
  imm : Bool
  vals : List Nat
deriving DecidableEq, Repr

/-- A vector operand (kind 0). -/
def LV.vec (v : LV) (r : Reg) (acts : List Nat) : Except LErr (Opd × LV) := do
  let t := v.tagOf r
  v.limits r t.width acts
  .ok ({ tag := some t, imm := false, vals := acts.map (v.elem r) }, v.noteEls r t.width acts)

/-- Other elements of a vector operand than the active ones (R179, R181), read for the word. -/
def LV.vecAt (v : LV) (r : Reg) (acts es : List Nat) : Except LErr (Opd × LV) := do
  let t := v.tagOf r
  v.limits r t.width acts
  .ok ({ tag := some t, imm := false, vals := es.map (v.elem r) }, v.noteFor (lowest acts) r t.width es)

/-- Take the next entries of a stream, one for each active element in ascending order (R148, R210, R211). -/
def takeStream (st : Stream) (n : Nat) : List Nat → Nat → List Nat → Nat → Except LErr (List Nat × Nat × Nat)
  | [], pos, vals, fl => .ok (vals, pos, fl)
  | e :: es, pos, vals, fl =>
    if st.total ≤ pos then .error (.at .streamend e)
    else
      match FMap.get? st.got pos with
      | none => .error (.await n (pos + 1 + es.length))
      | some (.poison c a) => .error (.fault c e a pos n)
      | some (.ok x g) => takeStream st n es (pos + 1) (vals ++ [x]) (fl ||| g)

/-- The [15:11] operand under its kind (R148). A stream entry that faults or has not arrived is left pending, so that a tag the word
does not allow is found first (R151). -/
def LV.src (v : LV) (s : Src) (acts : List Nat) : Except LErr (Opd × LV) :=
  match s with
  | .vec r => v.vec r acts
  | .scal r => .ok ({ tag := none, imm := false, vals := acts.map fun _ => if r = 0 then 0 else v.x[r].toNat }, v)
  | .imm i => .ok ({ tag := none, imm := true, vals := acts.map fun _ => (i.signExtend 64).toNat }, v)
  | .bank n => .ok ({ tag := none, imm := false, vals := acts.map fun _ => v.sb[n].toNat }, v)
  | .stream n =>
    match v.r.streams.getD n none with
    | none => .error (.at .illop (lowest acts))
    | some st =>
      match takeStream st n acts st.pos [] 0 with
      | .ok (vals, pos, fl) =>
        .ok ({ tag := some st.tag, imm := false, vals := vals },
             { v with r := { v.r with streams := v.r.streams.set n (some { st with pos := pos }), fflags := v.r.fflags ||| fl } })
      | .error x =>
        .ok ({ tag := some st.tag, imm := false, vals := acts.map fun _ => 0 }, { v with pend := some (v.pend.getD x) })

/-- Raise what a stream operand left pending (R151). -/
def LV.settled (v : LV) : Except LErr LV :=
  match v.pend with
  | none => .ok v
  | some x => .error x

/-- The operating type of two source tags (R67); none is TAGMIX. -/
def combine (a b : Tag) : Option Tag :=
  if a.isInt && b.isInt then some (intTag (max a.width b.width))
  else if a.isFloat && b.isFloat then some (if a = .bf16 ∧ b = .bf16 then .bf16 else .f32)
  else none

/-- The operating type from a vector tag and an operand (R67). -/
def opType (a : Tag) (o : Opd) : Option Tag := combine a (o.tag.getD a)

/-- A source value taken into the operating type (R59, R67, R148): integers sign- or zero-extended, bf16 widened exactly, an
immediate converted, the low bits of a scalar or bank value. -/
def convTo (T : Tag) (signed : Bool) (tag : Option Tag) (imm : Bool) (x : Nat) : Nat :=
  match tag with
  | some g =>
    if T.isInt then (if signed then lowBits (sextI x g.width) T.width else x % 2 ^ g.width)
    else if g = .bf16 ∧ T = .f32 then x % 2 ^ 16 * 2 ^ 16 else x
  | none =>
    if imm ∧ T.isFloat then (roundX T.ffmt .rne (xint (sextI x 64))).1 else x % 2 ^ T.width

/-- The values of an operand in the operating type. -/
def Opd.as (o : Opd) (T : Tag) (signed : Bool) : List Nat := o.vals.map (convTo T signed o.tag o.imm)

/-- The tag rules of a destination (R150): the registers that change tag, or the fault. -/
def LV.retag (v : LV) (vd : Nat) (T : Tag) (f : Nat) : Except LErr LV :=
  let regs := (List.range (gop v.sl.ew v.sl.grp T.width)).map (vd + ·)
  let ch := regs.filter fun n => (v.sl.reg n).tag != T
  if ch.isEmpty then .ok v
  else if v.thr.isSome then .error (.at .tagmix f)
  else if v.r.threadLive then .error (.at .threadlive f)
  else .ok { v with sl := regs.foldl (fun sl n => sl.giveTag n T) v.sl, wr := v.wr ++ ch }

/-- Write elements of a destination operand of tag `T`, with `f` the lowest active element (R149 to R151); with no element to write it
changes nothing. -/
def LV.putAt (v : LV) (f : Nat) (vd : Reg) (T : Tag) (l : List (Nat × Nat)) : Except LErr LV :=
  if l.isEmpty then v.settled
  else if !operandOk v.sl v.nreg vd T.width then .error (.at .illop f)
  else do
    let v ← v.retag vd T f
    let v ← v.settled
    .ok { v with
      sl := l.foldl (fun sl p => sl.setElem v.r.w vd T.width p.1 p.2) v.sl
      wr := v.wr ++ (l.map fun p => regOf v.r.w vd T.width p.1).dedup }

/-- Write elements of a destination of which the first is the lowest active one (R149 to R151). -/
def LV.put (v : LV) (vd : Reg) (T : Tag) (l : List (Nat × Nat)) : Except LErr LV :=
  v.putAt (lowest (l.map (·.1))) vd T l

/-- Write bits of a mask (R157): the result is in bitmask form whether or not a bit is written (R73); a thread may not write a mask in list
form (R152). -/
def LV.putMask (v : LV) (md : MaskReg) (l : List (Nat × Bool)) : Except LErr LV :=
  if md = 0 then (if l.isEmpty then v.settled else .error (.at .illop (lowest (l.map (·.1)))))
  else if v.thr.isSome && l.isEmpty then v.settled
  else if v.thr.isSome && (v.sl.mask md).list then .error (.at .illop (lowest (l.map (·.1))))
  else do
      let v ← v.settled
      if l.isEmpty && !(v.sl.mask md).list then .ok v
      else .ok { v with
        sl := { v.sl with m := v.sl.m.set md { list := false, set := l.foldl (fun s p => maskPut s p.1 p.2) (v.sl.mask md).set } }
        wr := v.wr ++ (if l.isEmpty then [] else [32 + md.val]) }

/-- OR flags into FFLAGS (R83). -/
def LV.orFlags (v : LV) (fl : Nat) : LV := { v with r := { v.r with fflags := v.r.fflags ||| fl } }

/-- Set VSAT (R75). -/
def LV.orSat (v : LV) (b : Bool) : LV := if b then { v with r := { v.r with vsat := true } } else v

/-- R152, R40: an instruction that acts across elements is ILLOP in thread mode. -/
def LV.lockstep (v : LV) : Except LErr Unit :=
  match v.thr with
  | some e => .error (.at .illop e)
  | none => .ok ()

/-- R44: a lockstep instruction that reads or writes other elements faults while a VP is in thread mode; with no active element too, and then
with f = 0 (DESIGN CHOICE, log 73). -/
def LV.cross (v : LV) (acts : List Nat) : Except LErr Unit := do
  v.lockstep
  if v.r.threadLive then .error (.at .threadlive (lowest acts)) else .ok ()

/-- A tag the rule does not allow (R67, R151). -/
def tagmix {α : Type} (acts : List Nat) : Except LErr α := .error (.at .tagmix (lowest acts))

/-- What the limits of a word are tested against: tags, the tags of bound streams, and the registers an operand of a width spans. -/
structure LimEnv where
  tag : Nat → Tag
  stream : Nat → Option Tag
  span : Nat → Nat

/-- The limits of a row's words, with given tags (R104 step 5). -/
def limEnv (r : Row) (sl : Slice) (tagOf : Nat → Tag) : LimEnv :=
  { tag := tagOf, stream := fun n => (r.streams.getD n none).map (·.tag), span := gop sl.ew sl.grp }

/-- The register of a source. -/
def LimEnv.src (e : LimEnv) (s : Src) : List (Nat × Nat) :=
  match s with
  | .vec r => [(r.val, (e.tag r).width)]
  | _ => []

/-- The tag a source brings to R67; none where it takes the other's. -/
def LimEnv.srcTag (e : LimEnv) (s : Src) : Option Tag :=
  match s with
  | .vec r => some (e.tag r)
  | .stream n => e.stream n
  | _ => none

/-- A destination of tag `T`; one whose tag is not known is tested for its number alone (width 0). -/
def limDst (vd : Reg) (T : Option Tag) : Nat × Nat := (vd.val, match T with | some t => t.width | none => 0)

/-- Operating type of a class B word (R67). -/
def LimEnv.op2 (e : LimEnv) (va : Reg) (s : Src) : Option Tag :=
  match e.srcTag s with
  | some b => combine (e.tag va) b
  | none => some (e.tag va)

/-- A class B word. -/
def LimEnv.b (e : LimEnv) (f : Tag → Option Tag) (vd va : Reg) (s : Src) : List (Nat × Nat) :=
  (va.val, (e.tag va).width) :: e.src s ++ [limDst vd ((e.op2 va s).bind f)]

/-- A class U word: without a vector or stream source it takes the tag of vd. -/
def LimEnv.u (e : LimEnv) (f : Tag → Option Tag) (vd : Reg) (s : Src) : List (Nat × Nat) :=
  e.src s ++ [limDst vd (f ((e.srcTag s).getD (e.tag vd)))]

/-- The register of a register under its own tag. -/
def LimEnv.own (e : LimEnv) (v : Reg) : Nat × Nat := (v.val, (e.tag v).width)

/-- Twice an integer width. -/
def tagTwice (t : Tag) : Option Tag := if t.isInt && t != .i64 then some (intTag (2 * t.width)) else none

/-- Half an integer width. -/
def tagHalf (t : Tag) : Option Tag := if t.isInt && t != .i8 then some (intTag (t.width / 2)) else none

/-- The vector operands of a word: first register and width in bits (R58, R68); those of 0x32 are vector registers in a thread block, where
alone they stand (R101). -/
def laneLimits (e : LimEnv) (i : Instr) : List (Nat × Nat) :=
  match i with
  | .vadd vd va s _ | .vsub vd va s _ | .vmul vd va s _ | .vmulhS vd va s _ | .vmulhN vd va s _ | .vminS vd va s _
  | .vminN vd va s _ | .vmaxS vd va s _ | .vmaxN vd va s _ | .vand vd va s _ | .vor vd va s _ | .vxor vd va s _
  | .vsll vd va s _ | .vsrl vd va s _ | .vsra vd va s _ | .vsaddS vd va s _ | .vsaddN vd va s _ | .vssubS vd va s _
  | .vssubN vd va s _ | .vavg vd va s _ | .vfadd vd va s _ | .vfsub vd va s _ | .vfmul vd va s _ | .vfmin vd va s _
  | .vfmax vd va s _ | .vfdiv vd va s _ | .vfsgnj vd va s _ | .vxsect vd va s _ | .vredsum vd va s _ | .vredmax vd va s _
  | .vredmin vd va s _ => e.b some vd va s
  | .vfma vd va s _ | .vfms vd va s _ | .vfnma vd va s _ =>
    e.own vd :: e.b (fun t => combine t (e.tag vd)) vd va s
  | .vwmulS vd va s _ | .vwmulN vd va s _ | .vwmacS vd va s _ | .vwmacN vd va s _ | .vwmacSn vd va s _ => e.b tagTwice vd va s
  | .vnsr vd va s _ | .vnsra vd va s _ => e.own va :: e.src s ++ [limDst vd (tagHalf (e.tag va))]
  | .vclz vd s _ | .vpop vd s _ | .vabs vd s _ | .vneg vd s _ | .vpopx vd s _ | .vsegl vd s _ | .vscan vd s _ =>
    e.u some vd s
  | .vmv vd s _ => e.src s ++ [match s with | .vec r => limDst vd (some (e.tag r)) | _ => e.own vd]
  | .vfclass vd s _ => e.u (fun t => if t = .bf16 then some .i16 else if t = .f32 then some .i32 else none) vd s
  | .vsel vd va s _ | .vslup vd va s _ | .vsldn vd va s _ | .vperm vd va s _ =>
    e.own va :: e.src s ++ [limDst vd (some (e.tag va))]
  | .vcmpEq _ va s _ | .vcmpNe _ va s _ | .vcmpLtS _ va s _ | .vcmpLtN _ va s _ | .vcmpLeS _ va s _ | .vcmpLeN _ va s _
  | .vfcmpEq _ va s _ | .vfcmpLt _ va s _ | .vfcmpLe _ va s _ => e.own va :: e.src s
  | .vidx vd _ | .vimm vd _ _ | .mpop vd _ | .mfirst vd _ | .qrcv vd _ => [e.own vd]
  | .vcvt vd _ vb _ => [e.own vb, e.own vd]
  | .vfsqrt vd _ vb _ | .vfrcp vd _ vb _ | .vfrsq vd _ vb _ | .vfexp2 vd _ vb _ => [e.own vb, limDst vd (some (e.tag vb))]
  | .vretag vd tag => [limDst vd (some tag)]
  | .vcompress vd va _ | .vexpand vd va _ => [e.own va, limDst vd (some (e.tag va))]
  | .vmatch vd va s _ => e.own va :: e.src s ++ [e.own vd]
  | .qswpH vd vs _ | .qswpV vd vs _ | .qswpD vd vs _ => [e.own vs, limDst vd (some (e.tag vs))]
  | .qbc vd va _ _ => [e.own va, limDst vd (some (e.tag va))]
  | .qsnd s _ => e.src s
  | .vpld vd va s _ => e.own va :: e.src s ++ [e.own vd]
  | .vpst vd va s _ => e.own va :: e.src s ++ [e.own vd]
  | .vpamo vd va op _ _ _ =>
    [e.own va, e.own vd] ++ if op = .cas then [(vd.val + e.span (e.tag vd).width, (e.tag vd).width)] else []
  | .barArrive a | .barWait a | .lkrel a => [e.own a]
  | .barInit a b _ | .barBytes a b | .lkacq a b _ | .clsq a b => [e.own a, e.own b]
  | .waitm d a b _ => [e.own d, e.own a, e.own b]
  | _ => []

/-- The limits of R58 and R68 hold of a word, with the tags and VGRP of the slices (R104 step 5). -/
def limitsOk (r : Row) (sl : Slice) (tagOf : Nat → Tag) (skip : Nat → Bool) (i : Instr) : Bool :=
  (laneLimits (limEnv r sl tagOf) i).all fun p => skip p.1 || operandOk sl (nregOf r.nregCode) p.1 p.2

/-- The mask that says where a lane word acts; none for a word that acts on elements whatever a mask says (R156, R163, R171 to R173). -/
def laneMask (i : Instr) : Option MaskReg :=
  match i with
  | .vadd _ _ _ m | .vsub _ _ _ m | .vmul _ _ _ m | .vmulhS _ _ _ m | .vmulhN _ _ _ m | .vminS _ _ _ m | .vminN _ _ _ m
  | .vmaxS _ _ _ m | .vmaxN _ _ _ m | .vand _ _ _ m | .vor _ _ _ m | .vxor _ _ _ m | .vsll _ _ _ m | .vsrl _ _ _ m
  | .vsra _ _ _ m | .vsaddS _ _ _ m | .vsaddN _ _ _ m | .vssubS _ _ _ m | .vssubN _ _ _ m | .vavg _ _ _ m | .vfadd _ _ _ m
  | .vfsub _ _ _ m | .vfmul _ _ _ m | .vfmin _ _ _ m | .vfmax _ _ _ m | .vfdiv _ _ _ m | .vfsgnj _ _ _ m | .vxsect _ _ _ m
  | .vredsum _ _ _ m | .vredmax _ _ _ m | .vredmin _ _ _ m | .vfma _ _ _ m | .vfms _ _ _ m | .vfnma _ _ _ m | .vwmulS _ _ _ m
  | .vwmulN _ _ _ m | .vwmacS _ _ _ m | .vwmacN _ _ _ m | .vwmacSn _ _ _ m | .vnsr _ _ _ m | .vnsra _ _ _ m
  | .vslup _ _ _ m | .vsldn _ _ _ m | .vperm _ _ _ m | .vcmpEq _ _ _ m | .vcmpNe _ _ _ m | .vcmpLtS _ _ _ m | .vcmpLtN _ _ _ m
  | .vcmpLeS _ _ _ m | .vcmpLeN _ _ _ m | .vfcmpEq _ _ _ m | .vfcmpLt _ _ _ m | .vfcmpLe _ _ _ m | .vmatch _ _ _ m
  | .vpld _ _ _ m | .vpst _ _ _ m => some m
  | .vclz _ _ m | .vpop _ _ m | .vabs _ _ m | .vneg _ _ m | .vmv _ _ m | .vpopx _ _ m | .vsegl _ _ m | .vscan _ _ m
  | .vfclass _ _ m | .vimm _ _ m | .vcompress _ _ m | .vexpand _ _ m | .qswpH _ _ m | .qswpV _ _ m | .qswpD _ _ m => some m
  | .vcvt _ _ _ m | .vfsqrt _ _ _ m | .vfrcp _ _ _ m | .vfrsq _ _ _ m | .vfexp2 _ _ _ m | .qbc _ _ _ m => some m
  | .vidx _ m | .qrcv _ m | .qsnd _ m => some m
  | .vpamo _ _ _ _ _ m => some m
  | _ => none

/-- The element at which a lane word outside the register limits faults: the lowest active one; none where the word acts on no element
(R104, R151). With no active element a reduction, which is checked all the same, takes f = 0, and vretag f = VL (DESIGN CHOICE, log 73). -/
def LV.limitAt (v : LV) (i : Instr) : Option Nat :=
  match i with
  | .vredsum _ _ _ m | .vredmax _ _ _ m | .vredmin _ _ _ m => if v.sl.vl = 0 then none else some (lowest (v.active m))
  | .vretag .. => some (v.acts.headD v.vl)
  | i =>
    match laneMask i with
    | some m => (v.active m).head?
    | none => v.acts.head?

/-- The register limits of R58 and R68 are tested again as a word executes, with the tags then current, before any fault of its own rule
(R104 step 5). -/
def LV.within (v : LV) (i : Instr) : Except LErr Unit :=
  match v.limitAt i with
  | none => .ok ()
  | some f => if limitsOk v.r v.sl (fun n => (v.sl.reg n).tag) (fun _ => false) i then .ok () else .error (.at .illop f)

/-- A lane operation behind its limits. -/
def LOp.limited (i : Instr) (op : LOp) : LOp := fun v => do
  v.within i
  op v

end Sys2Proof.Machine
end

