-- ==== Sys2Proof/Machine/LaneExec.lean ====
section
/-! DEFINITION. How one lane word is run: over the active elements of a vector-fetched block (R25, R49, R151), or over the
members of a bundle (R40, R42); the end of a block (R30, R39); fetching words through an overlay binding (R324). -/

namespace Sys2Proof.Machine

/-- A step of the machine's outcome. -/
abbrev Out := Host.Outcome State Fault Refusal

/-- Take the actor at the head of the issue list off it. -/
def State.popIssue (s : State) : State := { s with clock := { s.clock with issue := s.clock.issue.drop 1 } }

/-- The elements from `lo` below `vl` in LOCK (R25, R44). -/
def lockActs (r : Row) (lo vl : Nat) : List Nat :=
  ((List.range vl).drop lo).filter fun e => !(r.vp e).st.inThread

/-- The view of a vector-fetched block's word. -/
def State.lockLV (s : State) (r : Row) (k : LaneRun) : LV :=
  let sl := s.slice r
  { r := r, sl := sl, free := s.clock.free, acts := lockActs r sl.vestart sl.vl, lo := sl.vestart, vl := sl.vl, thr := none
    drain := none, x := k.x, sb := k.sb, sends := k.sends, rcvd := k.rcvd, rd := [], wr := [], els := []
    whole := lockActs r sl.vestart sl.vl, pend := none }

/-- The view of a VP's word. -/
def State.thrLV (s : State) (r : Row) (e : Nat) : LV :=
  let sl := s.slice r
  { r := r, sl := sl, free := s.clock.free, acts := [e], lo := e, vl := e + 1, thr := some e, drain := none, x := r.th.x, sb := r.sb
    sends := [], rcvd := [], rd := [], wr := [], els := [], whole := [e], pend := none }

/-- The word of a register and the lane from the row's base that hold element `e` (R69, R379): register × 8 + word, lane. -/
def wordOfElem (w vB t e : Nat) : Nat × Nat :=
  let p := byteLoc w vB (t / 8) e 0
  (p.1 * 8 + p.2 % 64 / 8, p.2 / 64)

/-- The bad words a view has read, each with the active element that read it (R151, R379). -/
def LV.badReads (v : LV) : List (Nat × (Nat × Nat)) :=
  if v.sl.parity.isEmpty then []
  else v.els.flatMap fun q => q.2.2.filterMap fun e =>
    let p := wordOfElem v.r.w q.1 q.2.1 e.2
    if v.sl.parity.any (·.1 == p) then some (e.1, p) else none

/-- A word has no parity error any longer (R379). -/
def Slice.fixParity (sl : Slice) (gone : List (Nat × Nat)) : Slice :=
  if sl.parity.isEmpty then sl else { sl with parity := sl.parity.filter fun q => !gone.contains q.1 }

/-- Parity of the words read (R379): corrected from the other lanes and the XOR lane and logged; or MEMERR at the lowest active element that
reads a word whose lane cannot be rebuilt, as that lane is out of service or another lane holds an error in the same word. Entries of
`Slice.parity` are register × 8 + word, and the lane from the row's base; lanes from 64 on are the XOR lane (64) and the mapped lanes outside
the row (R15). -/
def LV.parity (v : LV) (xorOk : Bool) (base : Nat) : Except LErr (LV × List Nat) :=
  let bad := v.badReads
  if bad.isEmpty then .ok (v, [])
  else
    let stuck := bad.filter fun p => !xorOk || 2 ≤ (v.sl.parity.filter (·.1.1 == p.2.1)).length
    match stuck with
    | [] => .ok ({ v with sl := v.sl.fixParity (bad.map (·.2)) }, ((bad.map (·.2)).dedup).map fun q => base + q.2)
    | p :: t =>
      let p := t.foldl (fun a b => if b.1 < a.1 then b else a) p
      .error (.fault .memerr p.1 (p.2.1 / 8 * 256 + (base + p.2.2)) 0 0)

/-- Run a lane operation with the parity check of its reads (R379). -/
def LOp.checked (op : LOp) (xorOk : Bool) (v : LV) : Except LErr (LV × List Nat) := do
  let v' ← op v
  let (_, lanes) ← ({ v with els := v'.els }).parity xorOk v.r.base
  .ok ({ v' with sl := v'.sl.fixParity ((LV.badReads { v with els := v'.els }).map fun p => p.2) }, lanes)

/-- Put a view's row and slices back; the reads and writes are tracked for OVERWRITE (R36). -/
def State.putLV (s : State) (v : LV) : State :=
  let sl := v.sl
  let srd := v.r.srd ++ (v.rd.filter fun n => !v.r.swr.contains n)
  let ovr := v.wr.any srd.contains
  let r := if sl.strip.opn then { v.r with srd := srd.dedup, swr := (v.r.swr ++ v.wr).dedup } else v.r
  let sl := if ovr then { sl with strip := sl.strip.setNr 2 } else sl
  ({ s with clock := { s.clock with free := v.free } }.setRow r).setSlice r sl

/-- Corrected parity events of a partition's reads are logged and counted by physical lane (R16, R379, R387). -/
def State.logParity (s : State) (part cluster : Nat) (lanes : List Nat) : State :=
  lanes.foldl (fun s l =>
    let p := (s.cluster cluster).inService.getD l 33
    (s.log 3 part cluster p).modCluster cluster fun c => { c with events := c.events ++ [(p, s.clock.et)] }) s

/-- Change the oldest vector-fetched block of a row. -/
def Row.setRun (r : Row) (k : LaneRun) : Row := { r with blocks := match r.blocks with | [] => [] | _ :: t => k :: t }


/-- A record with code STEP (R320), in the place of the one stepped: no course of R37 was taken, so COURSE is 4, and 2 for a VP. -/
def State.stepRec (s : State) (who : Tid) (k : Nat) (pc resume : Word) (header : Word := 0) (run : Option LaneRun := none) :
    State :=
  let own (q : FRec) : FRec :=
    match (tidRow who).bind s.row? with
    | some r =>
      let sl := s.slice r
      { q with strip := sl.strip.bits, vvalid := r.vvalid, sowner := sl.owner, f := if r.vvalid then sl.vl else 0 }
    | none => q
  let s := s.modRec k fun q =>
    let q := { own q with
      code := .step, pc := pc, resume := resume, header := header, pos := 0, unit := 0, field := 0, blk := false, addr1 := 0, addr2 := 0
      run := run, op := none }
    match who with
    | .ctl _ => { q with party := (bit q.strip 4).toNat, course := 4 }
    | .vp _ e => { q with party := 2, course := 2, f := e }
    | .hnd _ => { q with party := 3, course := 4 }
  ((s.clearStepping who).setFrozen who (some k)).endStepWait k

/-- A row without its oldest block: what the block sent to receive queues and no VP received is discarded (R185), and the entries of a `qseed`
that followed its `vf` enter the seed queue (R142). -/
def Row.dropRun (r : Row) : Row :=
  { r with blocks := r.blocks.drop 1
           recvQ := r.recvQ.filter fun q => !q.2.blk
           seedQ := r.seedQ ++ (r.blocks.head?.map (·.seeded)).getD [] }

/-- The oldest vector-fetched block of a row ends (R31); with it ends the `fstep` of its `vf` (R320). -/
def State.endRun (s : State) (row : Nat) : State :=
  let s := s.modRow row Row.dropRun
  match s.row? row with
  | none => s
  | some r =>
    match r.stepping, r.stepVf with
    | some k, some pc => if r.blocks.isEmpty then s.stepRec (.ctl row) k pc r.th.pc else s
    | _, _ => s

/-- Move the oldest block of a row past its word, and end it when its last word and its unflagged operations are done (R31, R32). -/
def State.advanceRun (s : State) (row : Nat) (k : LaneRun) : State :=
  let k := { k with idx := k.idx + 1, since := s.clock.cycle }
  if k.words.length ≤ k.idx ∧ k.ops.isEmpty then s.endRun row else s.modRow row fun r => r.setRun k

/-- What a lane fault reports for a vector-fetched block (R151, R307). -/
def runFault (k : LaneRun) (c : Code) (f a p u : Nat) : FInfo :=
  { code := c, pc := wordAddr k.header k.idx, f := some f, addr1 := a, pos := p, unit := u, header := k.header, run := some k }

/-- A word waits for entries of a stream: the engine fetches as far as the word needs (R56, R148). -/
def State.wantStream (s : State) (row n upto : Nat) : State :=
  s.modRow row fun r =>
    { r with streams := r.streams.zipIdx.map fun p => if p.2 = n then p.1.map fun st => { st with want := max st.want upto } else p.1 }

/-- The count of a flag of a thread (R32). -/
def State.flagCount (s : State) (t : Tid) (n : Nat) : Nat :=
  match t with
  | .ctl r => ((s.row? r).map fun q => q.cf.getD n 0).getD 0
  | .vp r e => ((s.row? r).map fun q => (q.vp e).flags.getD n 0).getD 0
  | .hnd _ => 0

/-- A vector word of a block whose row's slices hold another row's contents (R306, R327): the control thread freezes before it, and the block
stays to be run. -/
def State.blockVown (s : State) (r : Row) (k : LaneRun) : State :=
  s.raise (.ctl r.id) { code := .vown, pc := wordAddr k.header k.idx, header := k.header }

/-- The fault a word takes (R37, R151): `x` is the first one found in running it over all elements, at an element `el` gives, and `run f` runs it
over the active elements below `f`. While those fault as well, it is theirs, so that its element is the lowest that faults; with what the
elements below it make of the state. -/
def lowestFault {ε α : Type} (el : ε → Option Nat) (run : Nat → Except ε α) : Nat → ε → ε × Option α
  | 0, x => (x, none)
  | n + 1, x =>
    match el x with
    | none => (x, none)
    | some f =>
      match run f with
      | .ok w => (x, some w)
      | .error y => if ((el y).map fun g => decide (g < f)).getD false then lowestFault el run n y else (x, none)

/-- The element of a fault. -/
def LErr.elem? : LErr → Option Nat
  | .fault _ f _ _ _ => some f
  | .stall | .await _ _ => none

/-- The view of the elements below `f` (R37). -/
def LV.below (v : LV) (f : Nat) : LV := { v with acts := v.acts.filter (· < f), vl := min v.vl f }

/-- The slices and row a word of a block leaves, with the parity errors it corrected (R379). -/
def State.putRun (s : State) (r : Row) (q : LV × List Nat) : State := (s.putLV q.1).logParity r.part r.cluster q.2

/-- One word of the oldest vector-fetched block of a row (R49): over all its active elements; a fault at `f` leaves the effect
on the elements below it where the strip is not restartable (R37). -/
def laneLock (op : LOp) (row : Nat) (s : State) : Out :=
  match s.row? row with
  | none => .refused .noActor
  | some r =>
    match r.blocks with
    | [] => .refused .noActor
    | k :: _ =>
      let v := s.lockLV r k
      let x := (s.cluster r.cluster).xorOk
      if !r.vvalid then .next (s.blockVown r k)
      else match op.checked x v with
      | .ok (v, lanes) =>
        let s := s.putRun r ({ v with sl := { v.sl with vestart := 0 } }, lanes)
        .next (s.advanceRun row { k with sends := v.sends, rcvd := v.rcvd })
      | .error .stall => .next s
      | .error (.await n upto) => .next (s.wantStream row n upto)
      | .error e =>
        match lowestFault LErr.elem? (fun f => op.checked x (v.below f)) v.acts.length e with
        | (.fault c f a p u, w) =>
          let held := s.queueFull (dieOf r.cluster) && r.stepping.isNone
          .next (match (if v.sl.strip.nr && !held then w else none) with
            | some w => (s.putRun r w).raiseRow row (runFault { k with sends := w.1.sends, rcvd := w.1.rcvd } c f a p u)
            | none => s.raiseRow row (runFault k c f a p u))
        | _ => .next s

/-- A step that ends with no record (R320): the record is resolved and its capability empties. -/
def State.stepGone (s : State) (who : Tid) (k : Nat) : State :=
  let s := (s.clearStepping who).endStepWait k
  match s.fr? k with
  | some fr => s.dropRec fr true
  | none => s

/-- A VP reaches a block boundary with its next fetch address (R30, R45, R320). -/
def State.vpBoundary (s : State) (row e : Nat) (next : Word) : State :=
  match s.row? row with
  | none => s
  | some r =>
    let v := r.vp e
    let old := v.fetch
    match s.rejoinAt r next with
    | some _ =>
      let s := s.vpFetch row e next
      match v.stepping with
      | some k => s.stepGone (.vp row e) k
      | none => s
    | none =>
      let s := s.vpFetch row e next
      match v.stepping with
      | some k => (s.modVp row e fun v => { v with st := .froz }).stepRec (.vp row e) k old next
      | none => s

/-- The address after a block (R30). -/
def Bundle.after (b : Bundle) : Word := wordAddr b.header b.words.length

/-- Change bundle `b` of a row; a bundle with no member left is gone (R345). -/
def Row.modBundle (r : Row) (b : Nat) (f : Bundle → Bundle) : Row :=
  { r with bundles := ((r.bundles.zipIdx.map fun p => if p.2 = b then f p.1 else p.1)).filter fun q => !q.mem.isEmpty }

/-- Move VP `e` past its word; at the end of the block it waits for its unflagged operations (R32) and then reaches its boundary
(R30). -/
def State.advanceVp (s : State) (row e : Nat) : State :=
  match s.row? row with
  | none => s
  | some r =>
    match r.bundleOf e with
    | none =>
      (match (r.vp e).mid with
       | none => s
       | some q =>
         if q.words.length ≤ q.idx + 1 ∧ q.ops.isEmpty then
           (s.modVp row e fun v => { v with mid := none }).vpBoundary row e (wordAddr q.header q.words.length)
         else s.modVp row e fun v => { v with mid := some { q with idx := q.idx + 1 }, since := s.clock.cycle })
    | some b =>
      let n := b.words.length
      match b.mem.find? (·.e == e) with
      | none => s
      | some m =>
        if n ≤ m.idx + 1 then
          if m.ops.isEmpty then (s.modRow row fun r => r.dropMember e).vpBoundary row e b.after
          else s.modRow row fun r => r.modMember e fun m => { m with idx := m.idx + 1, fin := true }
        else s.modRow row fun r => { r.modMember e (fun m => { m with idx := m.idx + 1 }) with
          bundles := (r.modMember e fun m => { m with idx := m.idx + 1 }).bundles.map fun b =>
            if b.mem.any (·.e == e) then { b with since := s.clock.cycle } else b }

/-- What a VP's fault reports (R105, R307), with the unflagged operations of its block (R32). -/
def vpFault (b : Bundle) (idx : Nat) (c : Code) (a p u : Nat) (ops : List Nat := []) : FInfo :=
  { code := c, pc := wordAddr b.header idx, addr1 := a, pos := p, unit := u, header := b.header
    run := some { vfpc := 0, header := b.header, hd := b.hd, words := b.words, idx := idx, started := true
                  x := Vector.replicate 32 0, sb := Vector.replicate 8 0, xs := Vector.replicate 32 0, ops := ops, flagged := [], sends := []
                  rcvd := [], late := false, since := 0 } }

/-- Entries of a finite map that differ between two others are taken over (R152). -/
def joinMap {α : Type} [DecidableEq α] (old new acc : FMap α) : FMap α :=
  new.foldl (fun m p => if FMap.get? old p.1 = some p.2 then m else FMap.set m p.1 p.2) acc

/-- What one VP's word made of the slices `old` all members read is joined to what the members before it made of them, if they changed them
(R149, R152): the bytes and mask bits it changed, the greater HWM, and every VDIRTY bit. -/
def Slice.join (old new acc : Slice) : Slice :=
  if acc = old then new
  else { acc with
    v := genVec 32 fun i =>
      let a := acc.v[i]
      let n := new.v[i]
      { a with tag := n.tag, hwm := max a.hwm n.hwm, bytes := joinMap old.v[i].bytes n.bytes a.bytes }
    m := genVec 8 fun i =>
      let a := acc.m[i]
      let o := old.m[i].set
      let n := new.m[i].set
      { a with set := (n.filter fun e => !o.contains e).foldl (fun l e => insertNat e l) (a.set.filter fun e => n.contains e || !o.contains e) }
    vdirty := acc.vdirty ||| new.vdirty
    parity := acc.parity.filterMap fun q => (new.parity.find? (·.1 == q.1)).map fun n => (q.1, q.2 &&& n.2) }

/-- One word for one VP of a bundle (R40, R151), which reads the slices `sl` as they stand before any member writes (R149). `onStall` is what
a queue that holds the VP does; a stream entry that has not arrived only makes it wait (R148). Thread-mode words neither read nor change
VESTART: R64 speaks of the elements of a strip (DEDUCED, log 61). -/
def laneVp (op : LOp) (onStall : State → State) (row : Nat) (b : Bundle) (sl : Slice) (s : State) (m : BMem) : State :=
  match s.row? row with
  | none => s
  | some r =>
    let v := { s.thrLV r m.e with sl := sl }
    match op.checked (s.cluster r.cluster).xorOk v with
    | .ok (v, lanes) => ((s.putLV { v with sl := Slice.join sl v.sl (s.slice r) }).logParity r.part r.cluster lanes).advanceVp row m.e
    | .error .stall => onStall s
    | .error (.await n upto) => s.wantStream row n upto
    | .error (.fault c _ a p u) => s.raiseVp row m.e (vpFault b m.idx c a p u m.ops)

/-- The members that run the next word of a bundle: those at the lowest place that do not wait and have not ended. -/
def State.dueMembers (r : Row) (b : Bundle) : List BMem :=
  let l := b.mem.filter fun m => !m.fin && (r.vp m.e).wait.isNone && (r.vp m.e).frozen.isNone
  let i := l.foldl (fun a m => min a m.idx) (l.headD { e := 0, idx := 0, fin := false, ops := [] }).idx
  l.filter (·.idx == i)

/-- A VP begins to wait at a word, and gives up its bundle place (R281). A step ends there: the VP freezes with CODE STEP, and executes the
wait again on resume (R320). -/
def State.vpWait (s : State) (row : Nat) (b : Bundle) (m : BMem) (w : Wait) : State :=
  match s.steppingOf (.vp row m.e) with
  | some k =>
    let pc := wordAddr b.header m.idx
    ((s.modRow row fun r => r.dropMember m.e).modVp row m.e fun v => { v with st := .froz }).stepRec (.vp row m.e) k pc pc b.header
      (vpFault b m.idx .step 0 0 0 m.ops).run
  | none => (s.setWait (.vp row m.e) (some w)).modRow row fun r => r.giveUp m.e

/-- The wait of a VP that a thread-mode queue use begins (R50), with the check of R276: the row's own class, own team. -/
def classWaitOk (own tag : Cls) (sameTeam : Bool) : Bool :=
  match own, tag with
  | .weak, _ => false
  | _, .conc => true
  | _, .par => sameTeam
  | _, .weak => false

/-- A lane word: for the block or the bundle at the head of the issue list. `thr` is the operation's form in thread mode; `may` says which
members of a bundle may issue it. -/
def execLaneIf (may : State → Tid → Bundle → Bool) (op thr : LOp) (s : State) : Out :=
  match s.clock.issue with
  | .lanes row :: _ => laneLock op row s.popIssue
  | .bundle row n :: _ =>
    match s.row? row with
    | none => .refused .noActor
    | some r =>
      match r.bundles[n]? with
      | none => .refused .noActor
      | some b =>
        let onStall (m : BMem) (s : State) : State :=
          if classWaitOk r.cls r.cls true then s.vpWait row b m .queue
          else s.raiseVp row m.e (vpFault b m.idx .illwait 0 0 0 m.ops)
        let sl := s.slice r
        .next (((State.dueMembers r b).filter fun m => may s (.vp row m.e) b).foldl (fun s m => laneVp thr (onStall m) row b sl s m) s.popIssue)
  | _ => .refused .noActor

/-- A lane word that nothing but its operands holds. -/
def execLane2 (op thr : LOp) (s : State) : Out := execLaneIf (fun _ _ _ => true) op thr s

/-- A lane word `i` with one form for both modes. -/
def execLane (i : Instr) (op : LOp) (s : State) : Out := execLane2 (op.limited i) (op.limited i) s

end Sys2Proof.Machine
end

