-- ==== Sys2Proof/Machine/LaneInt.lean ====
section
/-! DEFINITION. Lane integer instructions, major opcode 0x20 (R154 to R158). -/

namespace Sys2Proof.Machine

/-- A binary integer instruction (R154): the operating type under R67, the operands extended, one result an element. -/
def lvInt2 (signed : Bool) (f : Nat → Nat → Nat → Nat) (vd va : Reg) (s : Src) (m : MaskReg) : LOp := fun v => do
  let acts := v.active m
  let v := v.noteMask m
  if acts.isEmpty then .ok v
  else
    let (a, v) ← v.vec va acts
    let (b, v) ← v.src s acts
    match opType (a.tag.getD .none) b with
    | none => tagmix acts
    | some T =>
      if !T.isInt then tagmix acts
      else
        let t := T.width
        let r := List.zipWith (fun x y => f t x y % 2 ^ t) (a.as T signed) (b.as T signed)
        v.put vd T (acts.zip r)

/-- A unary integer instruction, class U (R155). A scalar, bank or immediate source is read under the tag of vd (DEDUCED, log 10). -/
def lvInt1 (f : Nat → Nat → Nat) (vd : Reg) (s : Src) (m : MaskReg) : LOp := fun v => do
  let acts := v.active m
  let v := v.noteMask m
  if acts.isEmpty then .ok v
  else
    let (b, v) ← v.src s acts
    let T := b.tag.getD (v.sl.reg vd).tag
    if !T.isInt then tagmix acts
    else v.put vd T (acts.zip ((b.as T true).map fun x => f T.width x % 2 ^ T.width))

/-- A comparison (R157). -/
def lvCmp (signed : Bool) (f : Int → Int → Bool) (md : MaskReg) (va : Reg) (s : Src) (m : MaskReg) : LOp := fun v => do
  let acts := v.active m
  let v := v.noteMask m
  if acts.isEmpty then v.putMask md []
  else
    let (a, v) ← v.vec va acts
    let (b, v) ← v.src s acts
    match opType (a.tag.getD .none) b with
    | none => tagmix acts
    | some T =>
      if !T.isInt then tagmix acts
      else
        let g (x : Nat) : Int := if signed then sextI x T.width else x
        let r := List.zipWith (fun x y => f (g x) (g y)) (a.as T signed) (b.as T signed)
        v.putMask md (acts.zip r)

/-- The sign-extended high half of a product (R154). -/
def mulhS (t a b : Nat) : Nat := lowBits (sextI a t * sextI b t / (2 ^ t : Nat)) t

/-- vadd (R154). -/
def laneVadd (vd va : Reg) (s : Src) (m : MaskReg) : LOp := lvInt2 true (fun _ a b => a + b) vd va s m
/-- vsub (R154). -/
def laneVsub (vd va : Reg) (s : Src) (m : MaskReg) : LOp := lvInt2 true (fun t a b => a + 2 ^ t - b) vd va s m
/-- vmul (R154). -/
def laneVmul (vd va : Reg) (s : Src) (m : MaskReg) : LOp := lvInt2 true (fun _ a b => a * b) vd va s m
/-- vmulh.s (R154). -/
def laneVmulhS (vd va : Reg) (s : Src) (m : MaskReg) : LOp := lvInt2 true mulhS vd va s m
/-- vmulh.n (R154). -/
def laneVmulhN (vd va : Reg) (s : Src) (m : MaskReg) : LOp := lvInt2 false (fun t a b => a * b / 2 ^ t) vd va s m
/-- vmin.s (R154). -/
def laneVminS (vd va : Reg) (s : Src) (m : MaskReg) : LOp :=
  lvInt2 true (fun t a b => if sextI a t ≤ sextI b t then a else b) vd va s m
/-- vmin.n (R154). -/
def laneVminN (vd va : Reg) (s : Src) (m : MaskReg) : LOp := lvInt2 false (fun _ a b => min a b) vd va s m
/-- vmax.s (R154). -/
def laneVmaxS (vd va : Reg) (s : Src) (m : MaskReg) : LOp :=
  lvInt2 true (fun t a b => if sextI a t ≤ sextI b t then b else a) vd va s m
/-- vmax.n (R154). -/
def laneVmaxN (vd va : Reg) (s : Src) (m : MaskReg) : LOp := lvInt2 false (fun _ a b => max a b) vd va s m
/-- vand (R154). -/
def laneVand (vd va : Reg) (s : Src) (m : MaskReg) : LOp := lvInt2 true (fun _ a b => a &&& b) vd va s m
/-- vor (R154). -/
def laneVor (vd va : Reg) (s : Src) (m : MaskReg) : LOp := lvInt2 true (fun _ a b => a ||| b) vd va s m
/-- vxor (R154). -/
def laneVxor (vd va : Reg) (s : Src) (m : MaskReg) : LOp := lvInt2 true (fun _ a b => a ^^^ b) vd va s m
/-- vsll (R154). -/
def laneVsll (vd va : Reg) (s : Src) (m : MaskReg) : LOp := lvInt2 true (fun t a b => a * 2 ^ (b % t)) vd va s m
/-- vsrl (R154). -/
def laneVsrl (vd va : Reg) (s : Src) (m : MaskReg) : LOp := lvInt2 true (fun t a b => a / 2 ^ (b % t)) vd va s m
/-- vsra (R154). -/
def laneVsra (vd va : Reg) (s : Src) (m : MaskReg) : LOp :=
  lvInt2 true (fun t a b => lowBits (sextI a t / (2 ^ (b % t) : Nat)) t) vd va s m
/-- vclz (R155). -/
def laneVclz (vd : Reg) (s : Src) (m : MaskReg) : LOp := lvInt1 (fun t b => clzN t b) vd s m
/-- vpop (R155). -/
def laneVpop (vd : Reg) (s : Src) (m : MaskReg) : LOp := lvInt1 (fun t b => popN t b) vd s m
/-- vabs (R155). -/
def laneVabs (vd : Reg) (s : Src) (m : MaskReg) : LOp := lvInt1 (fun t b => (sextI b t).natAbs) vd s m
/-- vneg (R155). -/
def laneVneg (vd : Reg) (s : Src) (m : MaskReg) : LOp := lvInt1 (fun t b => 2 ^ t - b) vd s m

/-- vmv (R155): a vector source is copied bit for bit with its tag; any other source is written under the tag of vd, a stream's entry of another
tag converted to it as a source is to an operating type (DESIGN CHOICE, log 68). -/
def laneVmv (vd : Reg) (s : Src) (m : MaskReg) : LOp := fun v => do
  let acts := v.active m
  let v := v.noteMask m
  if acts.isEmpty then .ok v
  else
    let (b, v) ← v.src s acts
    match s with
    | .vec r => v.put vd (v.tagOf r) (acts.zip b.vals)
    | _ =>
      let T := (v.sl.reg vd).tag
      if T = .none ∨ T = .macc then tagmix acts
      else v.put vd T (acts.zip ((b.as T true).map fun x => x % 2 ^ T.width))

/-- The elements R156, R171 and R173 write whatever the mask: from VESTART below VL and not in thread mode. -/
def LV.every (v : LV) : List Nat := v.acts

/-- vsel (R156). A stream source gives an entry for every element written, whatever mK says of it, its low bits under the tag of va; the f of a
TAGMIX is the lowest element written (DESIGN CHOICE, log 68). -/
def laneVsel (vd va : Reg) (s : Src) (m : MaskReg) : LOp := fun v => do
  let acts := v.every
  let v := v.noteMask m
  if acts.isEmpty then .ok v
  else
    let (a, v) ← v.vec va acts
    let (b, v) ← v.src s acts
    let T := a.tag.getD .none
    if (match s with | .vec _ => b.tag != a.tag | _ => false) then tagmix acts
    else
      let bs := b.vals.map fun x => (if b.tag.isSome then x else convTo T true none b.imm x) % 2 ^ T.width
      let r := List.zipWith (fun e p => (e, if v.sl.maskBit m e then p.1 else p.2)) acts (a.vals.zip bs)
      v.put vd T r

/-- vcmp.eq (R157). -/
def laneVcmpEq (md : MaskReg) (va : Reg) (s : Src) (m : MaskReg) : LOp := lvCmp true (fun a b => a == b) md va s m
/-- vcmp.ne (R157). -/
def laneVcmpNe (md : MaskReg) (va : Reg) (s : Src) (m : MaskReg) : LOp := lvCmp true (fun a b => a != b) md va s m
/-- vcmp.lt.s (R157). -/
def laneVcmpLtS (md : MaskReg) (va : Reg) (s : Src) (m : MaskReg) : LOp := lvCmp true (fun a b => decide (a < b)) md va s m
/-- vcmp.lt.n (R157). -/
def laneVcmpLtN (md : MaskReg) (va : Reg) (s : Src) (m : MaskReg) : LOp := lvCmp false (fun a b => decide (a < b)) md va s m
/-- vcmp.le.s (R157). -/
def laneVcmpLeS (md : MaskReg) (va : Reg) (s : Src) (m : MaskReg) : LOp := lvCmp true (fun a b => decide (a ≤ b)) md va s m
/-- vcmp.le.n (R157). -/
def laneVcmpLeN (md : MaskReg) (va : Reg) (s : Src) (m : MaskReg) : LOp := lvCmp false (fun a b => decide (a ≤ b)) md va s m

/-- vidx (R158). -/
def laneVidx (vd : Reg) (m : MaskReg) : LOp := fun v =>
  let acts := v.active m
  let v := v.noteMask m
  let T := (v.sl.reg vd).tag
  if acts.isEmpty then .ok v
  else if !T.isInt then tagmix acts
  else v.put vd T (acts.map fun e => (e, e % 2 ^ T.width))

/-- vimm (R158). -/
def laneVimm (vd : Reg) (imm : BitVec 10) (m : MaskReg) : LOp := fun v =>
  let acts := v.active m
  let v := v.noteMask m
  let T := (v.sl.reg vd).tag
  let x := sextI imm.toNat 10
  if acts.isEmpty then .ok v
  else if T.isInt then v.put vd T (acts.map fun e => (e, lowBits x T.width))
  else if T.isFloat then
    let (r, fl) := roundX T.ffmt (RMode.ofFrm v.r.frm) (xint x)
    (v.put vd T (acts.map fun e => (e, r))).map fun v => v.orFlags fl
  else tagmix acts

/-- VADD (R154). -/
def execVadd (vd : Reg) (va : Reg) (src : Src) (m : MaskReg) (s : State) : Out := execLane (.vadd vd va src m) (laneVadd vd va src m) s
/-- VSUB (R154). -/
def execVsub (vd : Reg) (va : Reg) (src : Src) (m : MaskReg) (s : State) : Out := execLane (.vsub vd va src m) (laneVsub vd va src m) s
/-- VMUL (R154). -/
def execVmul (vd : Reg) (va : Reg) (src : Src) (m : MaskReg) (s : State) : Out := execLane (.vmul vd va src m) (laneVmul vd va src m) s
/-- VMULH_S (R154). -/
def execVmulhS (vd : Reg) (va : Reg) (src : Src) (m : MaskReg) (s : State) : Out := execLane (.vmulhS vd va src m) (laneVmulhS vd va src m) s
/-- VMULH_N (R154). -/
def execVmulhN (vd : Reg) (va : Reg) (src : Src) (m : MaskReg) (s : State) : Out := execLane (.vmulhN vd va src m) (laneVmulhN vd va src m) s
/-- VMIN_S (R154). -/
def execVminS (vd : Reg) (va : Reg) (src : Src) (m : MaskReg) (s : State) : Out := execLane (.vminS vd va src m) (laneVminS vd va src m) s
/-- VMIN_N (R154). -/
def execVminN (vd : Reg) (va : Reg) (src : Src) (m : MaskReg) (s : State) : Out := execLane (.vminN vd va src m) (laneVminN vd va src m) s
/-- VMAX_S (R154). -/
def execVmaxS (vd : Reg) (va : Reg) (src : Src) (m : MaskReg) (s : State) : Out := execLane (.vmaxS vd va src m) (laneVmaxS vd va src m) s
/-- VMAX_N (R154). -/
def execVmaxN (vd : Reg) (va : Reg) (src : Src) (m : MaskReg) (s : State) : Out := execLane (.vmaxN vd va src m) (laneVmaxN vd va src m) s
/-- VAND (R154). -/
def execVand (vd : Reg) (va : Reg) (src : Src) (m : MaskReg) (s : State) : Out := execLane (.vand vd va src m) (laneVand vd va src m) s
/-- VOR (R154). -/
def execVor (vd : Reg) (va : Reg) (src : Src) (m : MaskReg) (s : State) : Out := execLane (.vor vd va src m) (laneVor vd va src m) s
/-- VXOR (R154). -/
def execVxor (vd : Reg) (va : Reg) (src : Src) (m : MaskReg) (s : State) : Out := execLane (.vxor vd va src m) (laneVxor vd va src m) s
/-- VSLL (R154). -/
def execVsll (vd : Reg) (va : Reg) (src : Src) (m : MaskReg) (s : State) : Out := execLane (.vsll vd va src m) (laneVsll vd va src m) s
/-- VSRL (R154). -/
def execVsrl (vd : Reg) (va : Reg) (src : Src) (m : MaskReg) (s : State) : Out := execLane (.vsrl vd va src m) (laneVsrl vd va src m) s
/-- VSRA (R154). -/
def execVsra (vd : Reg) (va : Reg) (src : Src) (m : MaskReg) (s : State) : Out := execLane (.vsra vd va src m) (laneVsra vd va src m) s
/-- VCLZ (R155). -/
def execVclz (vd : Reg) (src : Src) (m : MaskReg) (s : State) : Out := execLane (.vclz vd src m) (laneVclz vd src m) s
/-- VPOP (R155). -/
def execVpop (vd : Reg) (src : Src) (m : MaskReg) (s : State) : Out := execLane (.vpop vd src m) (laneVpop vd src m) s
/-- VABS (R155). -/
def execVabs (vd : Reg) (src : Src) (m : MaskReg) (s : State) : Out := execLane (.vabs vd src m) (laneVabs vd src m) s
/-- VNEG (R155). -/
def execVneg (vd : Reg) (src : Src) (m : MaskReg) (s : State) : Out := execLane (.vneg vd src m) (laneVneg vd src m) s
/-- VMV (R155). -/
def execVmv (vd : Reg) (src : Src) (m : MaskReg) (s : State) : Out := execLane (.vmv vd src m) (laneVmv vd src m) s
/-- VSEL (R156). -/
def execVsel (vd : Reg) (va : Reg) (src : Src) (m : MaskReg) (s : State) : Out := execLane (.vsel vd va src m) (laneVsel vd va src m) s
/-- VCMP_EQ (R157). -/
def execVcmpEq (md : MaskReg) (va : Reg) (src : Src) (m : MaskReg) (s : State) : Out := execLane (.vcmpEq md va src m) (laneVcmpEq md va src m) s
/-- VCMP_NE (R157). -/
def execVcmpNe (md : MaskReg) (va : Reg) (src : Src) (m : MaskReg) (s : State) : Out := execLane (.vcmpNe md va src m) (laneVcmpNe md va src m) s
/-- VCMP_LT_S (R157). -/
def execVcmpLtS (md : MaskReg) (va : Reg) (src : Src) (m : MaskReg) (s : State) : Out := execLane (.vcmpLtS md va src m) (laneVcmpLtS md va src m) s
/-- VCMP_LT_N (R157). -/
def execVcmpLtN (md : MaskReg) (va : Reg) (src : Src) (m : MaskReg) (s : State) : Out := execLane (.vcmpLtN md va src m) (laneVcmpLtN md va src m) s
/-- VCMP_LE_S (R157). -/
def execVcmpLeS (md : MaskReg) (va : Reg) (src : Src) (m : MaskReg) (s : State) : Out := execLane (.vcmpLeS md va src m) (laneVcmpLeS md va src m) s
/-- VCMP_LE_N (R157). -/
def execVcmpLeN (md : MaskReg) (va : Reg) (src : Src) (m : MaskReg) (s : State) : Out := execLane (.vcmpLeN md va src m) (laneVcmpLeN md va src m) s
/-- VIDX (R158). -/
def execVidx (vd : Reg) (m : MaskReg) (s : State) : Out := execLane (.vidx vd m) (laneVidx vd m) s
/-- VIMM (R158). -/
def execVimm (vd : Reg) (imm : BitVec 10) (m : MaskReg) (s : State) : Out := execLane (.vimm vd imm m) (laneVimm vd imm m) s

end Sys2Proof.Machine
end

