-- ==== Sys2Proof/Machine/LaneFix.lean ====
section
/-! DEFINITION. Fixed point, widening and conversion, major opcode 0x21 (R159 to R163). -/

namespace Sys2Proof.Machine

/-- A value read as signed or unsigned in `t` bits. -/
def asInt (signed : Bool) (x t : Nat) : Int := if signed then sextI x t else (x % 2 ^ t : Nat)

/-- The widening group (R159): `ra`, `rb` the extension of each operand, `sg` that of R67, `acc` for vwmac. -/
def lvWiden (sg ra rb acc : Bool) (vd va : Reg) (s : Src) (m : MaskReg) : LOp := fun v => do
  let acts := v.active m
  let v := v.noteMask m
  if acts.isEmpty then .ok v
  else
    let (a, v) ← v.vec va acts
    let (b, v) ← v.src s acts
    match opType (a.tag.getD .none) b with
    | none => tagmix acts
    | some T =>
      let t := T.width
      if !T.isInt || t == 64 then tagmix acts
      else
        let D := intTag (2 * t)
        let as := a.vals.map (convTo T (if sg then ra else false) a.tag false)
        let bs := b.vals.map (convTo T (if sg then rb else false) b.tag b.imm)
        let p := List.zipWith (fun x y => asInt ra x t * asInt rb y t) as bs
        if acc then
          if (v.sl.reg vd).tag != D then tagmix acts
          else
            v.limits vd D.width acts
            let v := v.noteEls vd D.width acts
            let old := acts.map (v.elem vd)
            v.put vd D (acts.zip (List.zipWith (fun (o : Nat) (q : Int) => lowBits (o + q) (2 * t)) old p))
        else v.put vd D (acts.zip (p.map fun q => lowBits q (2 * t)))

/-- vwmul.s (R159). -/
def laneVwmulS (vd va : Reg) (s : Src) (m : MaskReg) : LOp := lvWiden true true true false vd va s m
/-- vwmul.n (R159). -/
def laneVwmulN (vd va : Reg) (s : Src) (m : MaskReg) : LOp := lvWiden false false false false vd va s m
/-- vwmac.s (R159). -/
def laneVwmacS (vd va : Reg) (s : Src) (m : MaskReg) : LOp := lvWiden true true true true vd va s m
/-- vwmac.n (R159). -/
def laneVwmacN (vd va : Reg) (s : Src) (m : MaskReg) : LOp := lvWiden false false false true vd va s m
/-- vwmac.sn (R159). -/
def laneVwmacSn (vd va : Reg) (s : Src) (m : MaskReg) : LOp := lvWiden true true false true vd va s m

/-- The narrowing shifts (R160). -/
def lvNarrow (signed : Bool) (vd va : Reg) (s : Src) (m : MaskReg) : LOp := fun v => do
  let acts := v.active m
  let v := v.noteMask m
  if acts.isEmpty then .ok v
  else
    let (a, v) ← v.vec va acts
    let (b, v) ← v.src s acts
    let A := a.tag.getD .none
    let t := A.width
    if !A.isInt || t == 8 || (opType A b).isNone then tagmix acts
    else
      let lo : Int := if signed then -(2 ^ (t / 2 - 1) : Nat) else 0
      let hi : Int := if signed then (2 ^ (t / 2 - 1) : Nat) - 1 else (2 ^ (t / 2) : Nat) - 1
      let r := List.zipWith (fun x n => satI (rshiftRound (asInt signed x t) (n % t) v.r.vxrm) lo hi) a.vals b.vals
      let v ← v.put vd (intTag (t / 2)) (acts.zip (r.map fun q => lowBits q.1 (t / 2)))
      .ok (v.orSat (r.any (·.2)))

/-- vnsr (R160). -/
def laneVnsr (vd va : Reg) (s : Src) (m : MaskReg) : LOp := lvNarrow false vd va s m
/-- vnsra (R160). -/
def laneVnsra (vd va : Reg) (s : Src) (m : MaskReg) : LOp := lvNarrow true vd va s m

/-- Saturating and averaging members (R161). -/
def lvSat (signed : Bool) (f : Nat → Int → Int → Int × Bool) (vd va : Reg) (s : Src) (m : MaskReg) : LOp := fun v => do
  let acts := v.active m
  let v := v.noteMask m
  if acts.isEmpty then .ok v
  else
    let (a, v) ← v.vec va acts
    let (b, v) ← v.src s acts
    match opType (a.tag.getD .none) b with
    | none => tagmix acts
    | some T =>
      if !T.isInt then tagmix acts
      else
        let t := T.width
        let r := List.zipWith (fun x y => f t (asInt signed x t) (asInt signed y t)) (a.as T signed) (b.as T signed)
        let v ← v.put vd T (acts.zip (r.map fun q => lowBits q.1 t))
        .ok (v.orSat (r.any (·.2)))

/-- sat to the signed range of `t` bits. -/
def satS (t : Nat) (x : Int) : Int × Bool := satI x (-(2 ^ (t - 1) : Nat)) ((2 ^ (t - 1) : Nat) - 1)
/-- sat to the unsigned range of `t` bits. -/
def satU (t : Nat) (x : Int) : Int × Bool := satI x 0 ((2 ^ t : Nat) - 1)

/-- vsadd.s (R161). -/
def laneVsaddS (vd va : Reg) (s : Src) (m : MaskReg) : LOp := lvSat true (fun t a b => satS t (a + b)) vd va s m
/-- vsadd.n (R161). -/
def laneVsaddN (vd va : Reg) (s : Src) (m : MaskReg) : LOp := lvSat false (fun t a b => satU t (a + b)) vd va s m
/-- vssub.s (R161). -/
def laneVssubS (vd va : Reg) (s : Src) (m : MaskReg) : LOp := lvSat true (fun t a b => satS t (a - b)) vd va s m
/-- vssub.n (R161). -/
def laneVssubN (vd va : Reg) (s : Src) (m : MaskReg) : LOp := lvSat false (fun t a b => satU t (a - b)) vd va s m
/-- vavg (R161). -/
def laneVavg (vd va : Reg) (s : Src) (m : MaskReg) : LOp := fun v =>
  lvSat true (fun _ a b => (rshiftRound (a + b) 1 v.r.vxrm, false)) vd va s m v

/-- The rounding mode of a class UR word (R98). -/
def rmMode (rm : Rm) (frm : Nat) : RMode :=
  match rm with
  | .frm => RMode.ofFrm frm
  | .rne => .rne | .rtz => .rtz | .rdn => .rdn | .rup => .rup | .rmm => .rmm

/-- One conversion of R162: result, flags, VSAT. -/
def cvtOne (S D : Tag) (rm : RMode) (x : Nat) : Nat × Nat × Bool :=
  if S.isInt then
    let i := sextI x S.width
    if D.isInt then (let q := satS D.width i; (lowBits q.1 D.width, 0, q.2))
    else (let q := roundX D.ffmt rm (xint i); (q.1, q.2, false))
  else if D.isFloat then (let q := fConvert S.ffmt D.ffmt rm x; (q.1, q.2, false))
  else
    let w := D.width
    let hi : Int := (2 ^ (w - 1) : Nat) - 1
    let lo : Int := -(2 ^ (w - 1) : Nat)
    match S.ffmt.decode x with
    | .nan => (0, fNV, false)
    | .inf n => (lowBits (if n then lo else hi) w, fNV, false)
    | y =>
      match xToInt rm y with
      | some (i, ex) => if i < lo then (lowBits lo w, fNV, false) else if hi < i then (lowBits hi w, fNV, false)
                        else (lowBits i w, if ex then 0 else fNX, false)
      | none => (0, fNV, false)

/-- vcvt (R162). -/
def laneVcvt (vd : Reg) (rm : Rm) (vb : Reg) (m : MaskReg) : LOp := fun v => do
  let acts := v.active m
  let v := v.noteMask m
  if acts.isEmpty then .ok v
  else
    let (b, v) ← v.vec vb acts
    let S := b.tag.getD .none
    let D := (v.sl.reg vd).tag
    if !S.isArith || !D.isArith then tagmix acts
    else
      let r := b.vals.map (cvtOne S D (rmMode rm v.r.frm))
      let v ← v.put vd D (acts.zip (r.map (·.1)))
      .ok ((v.orFlags (r.foldl (fun a q => a ||| q.2.1) 0)).orSat (r.any (·.2.2)))

/-- HWM after a retag (R71). -/
def retagHwm (w hwm tbo tbn : Nat) : Nat := min (64 * w / tbn) (w * ((((hwm + w - 1) / w) * tbo + tbn - 1) / tbn))

/-- vretag (R163): the registers of the operand under the new tag, with VL = 0 too; a fault with no active element then has f = VL (DESIGN CHOICE,
log 73). -/
def laneVretag (vd : Reg) (tag : Tag) : LOp := fun v => do
  v.lockstep
  let f := v.acts.headD v.vl
  if v.r.threadLive then .error (.at .threadlive f)
  else if !operandOk v.sl v.nreg vd tag.width then .error (.at .illop f)
  else
    let regs := (List.range (gop v.sl.ew v.sl.grp tag.width)).map (vd.val + ·)
    .ok { v with sl := regs.foldl (fun sl n =>
      let q := sl.reg n
      { sl.modReg n (fun q => { q with tag := tag, hwm := retagHwm v.r.w q.hwm (q.tag.width / 8) (tag.width / 8) }) with
        vdirty := if q.tag = tag then sl.vdirty else sl.vdirty ||| BitVec.ofNat 32 (2 ^ n) }) v.sl }

/-- VWMUL_S (R159). -/
def execVwmulS (vd : Reg) (va : Reg) (src : Src) (m : MaskReg) (s : State) : Out := execLane (.vwmulS vd va src m) (laneVwmulS vd va src m) s
/-- VWMUL_N (R159). -/
def execVwmulN (vd : Reg) (va : Reg) (src : Src) (m : MaskReg) (s : State) : Out := execLane (.vwmulN vd va src m) (laneVwmulN vd va src m) s
/-- VWMAC_S (R159). -/
def execVwmacS (vd : Reg) (va : Reg) (src : Src) (m : MaskReg) (s : State) : Out := execLane (.vwmacS vd va src m) (laneVwmacS vd va src m) s
/-- VWMAC_N (R159). -/
def execVwmacN (vd : Reg) (va : Reg) (src : Src) (m : MaskReg) (s : State) : Out := execLane (.vwmacN vd va src m) (laneVwmacN vd va src m) s
/-- VWMAC_SN (R159). -/
def execVwmacSn (vd : Reg) (va : Reg) (src : Src) (m : MaskReg) (s : State) : Out := execLane (.vwmacSn vd va src m) (laneVwmacSn vd va src m) s
/-- VNSR (R160). -/
def execVnsr (vd : Reg) (va : Reg) (src : Src) (m : MaskReg) (s : State) : Out := execLane (.vnsr vd va src m) (laneVnsr vd va src m) s
/-- VNSRA (R160). -/
def execVnsra (vd : Reg) (va : Reg) (src : Src) (m : MaskReg) (s : State) : Out := execLane (.vnsra vd va src m) (laneVnsra vd va src m) s
/-- VSADD_S (R161). -/
def execVsaddS (vd : Reg) (va : Reg) (src : Src) (m : MaskReg) (s : State) : Out := execLane (.vsaddS vd va src m) (laneVsaddS vd va src m) s
/-- VSADD_N (R161). -/
def execVsaddN (vd : Reg) (va : Reg) (src : Src) (m : MaskReg) (s : State) : Out := execLane (.vsaddN vd va src m) (laneVsaddN vd va src m) s
/-- VSSUB_S (R161). -/
def execVssubS (vd : Reg) (va : Reg) (src : Src) (m : MaskReg) (s : State) : Out := execLane (.vssubS vd va src m) (laneVssubS vd va src m) s
/-- VSSUB_N (R161). -/
def execVssubN (vd : Reg) (va : Reg) (src : Src) (m : MaskReg) (s : State) : Out := execLane (.vssubN vd va src m) (laneVssubN vd va src m) s
/-- VAVG (R161). -/
def execVavg (vd : Reg) (va : Reg) (src : Src) (m : MaskReg) (s : State) : Out := execLane (.vavg vd va src m) (laneVavg vd va src m) s
/-- VCVT (R162). -/
def execVcvt (vd : Reg) (rm : Rm) (vb : Reg) (m : MaskReg) (s : State) : Out := execLane (.vcvt vd rm vb m) (laneVcvt vd rm vb m) s
/-- VRETAG (R163). -/
def execVretag (vd : Reg) (tag : Tag) (s : State) : Out := execLane (.vretag vd tag) (laneVretag vd tag) s

end Sys2Proof.Machine
end

