-- ==== Sys2Proof/Machine/LaneFloat.lean ====
section
/-! DEFINITION. Lane float instructions, major opcode 0x22 (R164 to R170). -/

namespace Sys2Proof.Machine

/-- A binary float instruction (R164): operating type under R67, one result and its flags an element. -/
def lvFloat2 (f : FFmt → RMode → Nat → Nat → Nat × Nat) (vd va : Reg) (s : Src) (m : MaskReg) : LOp := fun v => do
  let acts := v.active m
  let v := v.noteMask m
  if acts.isEmpty then .ok v
  else
    let (a, v) ← v.vec va acts
    let (b, v) ← v.src s acts
    match opType (a.tag.getD .none) b with
    | none => tagmix acts
    | some T =>
      if !T.isFloat then tagmix acts
      else
        let r := List.zipWith (f T.ffmt (RMode.ofFrm v.r.frm)) (a.as T true) (b.as T true)
        let v ← v.put vd T (acts.zip (r.map (·.1)))
        .ok (v.orFlags (r.foldl (fun x q => x ||| q.2) 0))

/-- The fused forms (R165): T over va, src and vd. A scalar or bank source is read in T, the type of all three, where the tags of va and vd
differ: R67 does not say which of the two it takes (DESIGN CHOICE, log 65). -/
def lvFma (np nc : Bool) (vd va : Reg) (s : Src) (m : MaskReg) : LOp := fun v => do
  let acts := v.active m
  let v := v.noteMask m
  if acts.isEmpty then .ok v
  else
    let (a, v) ← v.vec va acts
    let (b, v) ← v.src s acts
    let (c, v) ← v.vec vd acts
    let T? := (opType (a.tag.getD .none) b).bind fun t => combine t (c.tag.getD .none)
    match T? with
    | none => tagmix acts
    | some T =>
      if !T.isFloat then tagmix acts
      else
        let r := List.zipWith (fun x p => fArith3 T.ffmt (RMode.ofFrm v.r.frm) np nc x p.1 p.2) (a.as T true)
          ((b.as T true).zip (c.as T true))
        let v ← v.put vd T (acts.zip (r.map (·.1)))
        .ok (v.orFlags (r.foldl (fun x q => x ||| q.2) 0))

/-- A class UR function (R167). -/
def lvFloat1 (f : FFmt → RMode → XF → Nat × Nat) (vd : Reg) (rm : Rm) (vb : Reg) (m : MaskReg) : LOp := fun v => do
  let acts := v.active m
  let v := v.noteMask m
  if acts.isEmpty then .ok v
  else
    let (b, v) ← v.vec vb acts
    let T := b.tag.getD .none
    if !T.isFloat then tagmix acts
    else
      let g := T.ffmt
      let r := b.vals.map fun x => (let q := f g (rmMode rm v.r.frm) (g.decode x); (q.1, q.2 ||| snanFlag g [x]))
      let v ← v.put vd T (acts.zip (r.map (·.1)))
      .ok (v.orFlags (r.foldl (fun x q => x ||| q.2) 0))

/-- A float comparison (R168): `anyNan` when every NaN is invalid. -/
def lvFcmp (anyNan : Bool) (f : Int → Bool) (md : MaskReg) (va : Reg) (s : Src) (m : MaskReg) : LOp := fun v => do
  let acts := v.active m
  let v := v.noteMask m
  if acts.isEmpty then v.putMask md []
  else
    let (a, v) ← v.vec va acts
    let (b, v) ← v.src s acts
    match opType (a.tag.getD .none) b with
    | none => tagmix acts
    | some T =>
      if !T.isFloat then tagmix acts
      else
        let g := T.ffmt
        let r := List.zipWith (fun x y =>
          let X := g.decode x
          let Y := g.decode y
          let isNan := X == .nan || Y == .nan
          (!isNan && f (xcmp X Y), if anyNan && isNan then fNV else snanFlag g [x, y])) (a.as T true) (b.as T true)
        let v ← v.putMask md (acts.zip (r.map (·.1)))
        .ok (v.orFlags (r.foldl (fun x q => x ||| q.2) 0))

/-- The class code of a pattern (R169). -/
def fclass (g : FFmt) (x : Nat) : Nat :=
  let n := g.neg x
  match g.decode x with
  | .nan => if g.isSnan x then 256 else 512
  | .inf _ => if n then 1 else 128
  | .fin _ m _ =>
    if m = 0 then (if n then 8 else 16)
    else if bits x g.mb g.eb = 0 then (if n then 4 else 32)
    else (if n then 2 else 64)

/-- vfadd (R165). -/
def laneVfadd (vd va : Reg) (s : Src) (m : MaskReg) : LOp := lvFloat2 (fun g rm a b => fArith2 g rm (xadd rm) a b) vd va s m
/-- vfsub (R165). -/
def laneVfsub (vd va : Reg) (s : Src) (m : MaskReg) : LOp :=
  lvFloat2 (fun g rm a b => fArith2 g rm (fun x y => xadd rm x (xneg y)) a b) vd va s m
/-- vfmul (R165). -/
def laneVfmul (vd va : Reg) (s : Src) (m : MaskReg) : LOp := lvFloat2 (fun g rm a b => fArith2 g rm xmul a b) vd va s m
/-- vfma (R165). -/
def laneVfma (vd va : Reg) (s : Src) (m : MaskReg) : LOp := lvFma false false vd va s m
/-- vfms (R165). -/
def laneVfms (vd va : Reg) (s : Src) (m : MaskReg) : LOp := lvFma false true vd va s m
/-- vfnma (R165). -/
def laneVfnma (vd va : Reg) (s : Src) (m : MaskReg) : LOp := lvFma true false vd va s m
/-- vfmin (R166). -/
def laneVfmin (vd va : Reg) (s : Src) (m : MaskReg) : LOp := lvFloat2 (fun g _ a b => fminmax g false a b) vd va s m
/-- vfmax (R166). -/
def laneVfmax (vd va : Reg) (s : Src) (m : MaskReg) : LOp := lvFloat2 (fun g _ a b => fminmax g true a b) vd va s m
/-- vfdiv (R165). -/
def laneVfdiv (vd va : Reg) (s : Src) (m : MaskReg) : LOp :=
  lvFloat2 (fun g rm a b => (let q := roundDiv g rm (g.decode a) (g.decode b); (q.1, q.2 ||| snanFlag g [a, b]))) vd va s m
/-- vfsqrt (R167). -/
def laneVfsqrt (vd : Reg) (rm : Rm) (vb : Reg) (m : MaskReg) : LOp := lvFloat1 roundSqrt vd rm vb m
/-- vfrcp (R167). -/
def laneVfrcp (vd : Reg) (rm : Rm) (vb : Reg) (m : MaskReg) : LOp := lvFloat1 roundRcp vd rm vb m
/-- vfrsq (R167). -/
def laneVfrsq (vd : Reg) (rm : Rm) (vb : Reg) (m : MaskReg) : LOp := lvFloat1 roundRsq vd rm vb m
/-- vfexp2 (R167). -/
def laneVfexp2 (vd : Reg) (rm : Rm) (vb : Reg) (m : MaskReg) : LOp := lvFloat1 roundExp2 vd rm vb m
/-- vfcmp.eq (R168). -/
def laneVfcmpEq (md : MaskReg) (va : Reg) (s : Src) (m : MaskReg) : LOp := lvFcmp false (fun c => c == 0) md va s m
/-- vfcmp.lt (R168). -/
def laneVfcmpLt (md : MaskReg) (va : Reg) (s : Src) (m : MaskReg) : LOp := lvFcmp true (fun c => decide (c < 0)) md va s m
/-- vfcmp.le (R168). -/
def laneVfcmpLe (md : MaskReg) (va : Reg) (s : Src) (m : MaskReg) : LOp := lvFcmp true (fun c => decide (c ≤ 0)) md va s m

/-- vfclass (R169). A scalar, bank or immediate source takes the tag of vd as R67 has no vector source for it (log 10). -/
def laneVfclass (vd : Reg) (s : Src) (m : MaskReg) : LOp := fun v => do
  let acts := v.active m
  let v := v.noteMask m
  if acts.isEmpty then .ok v
  else
    let (b, v) ← v.src s acts
    let T := b.tag.getD (v.sl.reg vd).tag
    if !T.isFloat then tagmix acts
    else v.put vd (if T = .bf16 then .i16 else .i32) (acts.zip ((b.as T true).map (fclass T.ffmt)))

/-- vfsgnj (R170). -/
def laneVfsgnj (vd va : Reg) (s : Src) (m : MaskReg) : LOp :=
  lvFloat2 (fun g _ a b => (a % 2 ^ (g.width - 1) + (g.neg b).toNat * 2 ^ (g.width - 1), 0)) vd va s m

/-- VFADD (R165). -/
def execVfadd (vd : Reg) (va : Reg) (src : Src) (m : MaskReg) (s : State) : Out := execLane (.vfadd vd va src m) (laneVfadd vd va src m) s
/-- VFSUB (R165). -/
def execVfsub (vd : Reg) (va : Reg) (src : Src) (m : MaskReg) (s : State) : Out := execLane (.vfsub vd va src m) (laneVfsub vd va src m) s
/-- VFMUL (R165). -/
def execVfmul (vd : Reg) (va : Reg) (src : Src) (m : MaskReg) (s : State) : Out := execLane (.vfmul vd va src m) (laneVfmul vd va src m) s
/-- VFMA (R165). -/
def execVfma (vd : Reg) (va : Reg) (src : Src) (m : MaskReg) (s : State) : Out := execLane (.vfma vd va src m) (laneVfma vd va src m) s
/-- VFMS (R165). -/
def execVfms (vd : Reg) (va : Reg) (src : Src) (m : MaskReg) (s : State) : Out := execLane (.vfms vd va src m) (laneVfms vd va src m) s
/-- VFNMA (R165). -/
def execVfnma (vd : Reg) (va : Reg) (src : Src) (m : MaskReg) (s : State) : Out := execLane (.vfnma vd va src m) (laneVfnma vd va src m) s
/-- VFMIN (R166). -/
def execVfmin (vd : Reg) (va : Reg) (src : Src) (m : MaskReg) (s : State) : Out := execLane (.vfmin vd va src m) (laneVfmin vd va src m) s
/-- VFMAX (R166). -/
def execVfmax (vd : Reg) (va : Reg) (src : Src) (m : MaskReg) (s : State) : Out := execLane (.vfmax vd va src m) (laneVfmax vd va src m) s
/-- VFDIV (R165). -/
def execVfdiv (vd : Reg) (va : Reg) (src : Src) (m : MaskReg) (s : State) : Out := execLane (.vfdiv vd va src m) (laneVfdiv vd va src m) s
/-- VFSQRT (R167). -/
def execVfsqrt (vd : Reg) (rm : Rm) (vb : Reg) (m : MaskReg) (s : State) : Out := execLane (.vfsqrt vd rm vb m) (laneVfsqrt vd rm vb m) s
/-- VFRCP (R167). -/
def execVfrcp (vd : Reg) (rm : Rm) (vb : Reg) (m : MaskReg) (s : State) : Out := execLane (.vfrcp vd rm vb m) (laneVfrcp vd rm vb m) s
/-- VFRSQ (R167). -/
def execVfrsq (vd : Reg) (rm : Rm) (vb : Reg) (m : MaskReg) (s : State) : Out := execLane (.vfrsq vd rm vb m) (laneVfrsq vd rm vb m) s
/-- VFEXP2 (R167). -/
def execVfexp2 (vd : Reg) (rm : Rm) (vb : Reg) (m : MaskReg) (s : State) : Out := execLane (.vfexp2 vd rm vb m) (laneVfexp2 vd rm vb m) s
/-- VFCMP_EQ (R168). -/
def execVfcmpEq (md : MaskReg) (va : Reg) (src : Src) (m : MaskReg) (s : State) : Out := execLane (.vfcmpEq md va src m) (laneVfcmpEq md va src m) s
/-- VFCMP_LT (R168). -/
def execVfcmpLt (md : MaskReg) (va : Reg) (src : Src) (m : MaskReg) (s : State) : Out := execLane (.vfcmpLt md va src m) (laneVfcmpLt md va src m) s
/-- VFCMP_LE (R168). -/
def execVfcmpLe (md : MaskReg) (va : Reg) (src : Src) (m : MaskReg) (s : State) : Out := execLane (.vfcmpLe md va src m) (laneVfcmpLe md va src m) s
/-- VFCLASS (R169). -/
def execVfclass (vd : Reg) (src : Src) (m : MaskReg) (s : State) : Out := execLane (.vfclass vd src m) (laneVfclass vd src m) s
/-- VFSGNJ (R170). -/
def execVfsgnj (vd : Reg) (va : Reg) (src : Src) (m : MaskReg) (s : State) : Out := execLane (.vfsgnj vd va src m) (laneVfsgnj vd va src m) s

end Sys2Proof.Machine
end

