-- ==== Sys2Proof/Machine/LaneMask.lean ====
section
/-! DEFINITION. Masks and sparsity, major opcode 0x23 (R171 to R176). -/

namespace Sys2Proof.Machine

/-- A mask logical (R171): over every element from VESTART below VL and not in thread mode. -/
def lvMaskLogic (f : Bool → Bool → Bool) (md ma mb : MaskReg) : LOp := fun v =>
  let v := (v.noteMask ma).noteMask mb
  v.putMask md (v.every.map fun e => (e, f (v.sl.maskBit ma e) (v.sl.maskBit mb e)))

/-- mand (R171). -/
def laneMand (md ma mb : MaskReg) : LOp := lvMaskLogic (fun a b => a && b) md ma mb
/-- mor (R171). -/
def laneMor (md ma mb : MaskReg) : LOp := lvMaskLogic (fun a b => a || b) md ma mb
/-- mxor (R171). -/
def laneMxor (md ma mb : MaskReg) : LOp := lvMaskLogic (fun a b => a != b) md ma mb
/-- mnot (R171). -/
def laneMnot (md ma : MaskReg) : LOp := lvMaskLogic (fun a _ => !a) md ma ma

/-- Conversion of a mask's form (R172). -/
def lvMaskForm (toList : Bool) (md : MaskReg) : LOp := fun v => do
  v.cross v.acts
  if md = 0 then .error (.at .illop (lowest v.acts))
  else if (v.sl.mask md).list = toList then .ok v
  else
    let v := v.noteMask md
    .ok { v with sl := { v.sl with m := v.sl.m.set md { list := toList, set := (v.sl.mask md).set.filter (· < v.vlmax) } }
                 wr := v.wr ++ [32 + md.val] }

/-- mlist (R172). -/
def laneMlist (md : MaskReg) : LOp := lvMaskForm true md
/-- mbits (R172). -/
def laneMbits (md : MaskReg) : LOp := lvMaskForm false md

/-- A count over a mask written to every element (R173): it reads other elements, so it faults with a VP in thread mode (R44, R152). -/
def lvMaskCount (f : List Nat → Nat → Nat) (vd : Reg) (ma : MaskReg) : LOp := fun v => do
  v.cross v.every
  let v := v.noteMask ma
  let T := (v.sl.reg vd).tag
  let l := (List.range v.sl.vl).filter fun e => v.sl.maskBit ma e
  if v.every.isEmpty then .ok v
  else if !T.isInt then tagmix v.every
  else v.put vd T (v.every.map fun e => (e, f l T.width % 2 ^ T.width))

/-- mpop (R173). -/
def laneMpop (vd : Reg) (ma : MaskReg) : LOp := lvMaskCount (fun l _ => l.length) vd ma
/-- mfirst (R173). -/
def laneMfirst (vd : Reg) (ma : MaskReg) : LOp := lvMaskCount (fun l t => l.headD (2 ^ t - 1)) vd ma

/-- Running totals before each value. -/
def prefixSums : Nat → List Nat → List Nat
  | _, [] => []
  | a, x :: t => a :: prefixSums (a + x) t

/-- vpopx (R174). A scalar, bank or immediate source is read under the tag of vd (DEDUCED, log 10). -/
def laneVpopx (vd : Reg) (s : Src) (m : MaskReg) : LOp := fun v => do
  let acts := v.active m
  v.cross acts
  let v := v.noteMask m
  if acts.isEmpty then .ok v
  else
    let (b, v) ← v.src s acts
    let T := b.tag.getD (v.sl.reg vd).tag
    if !T.isInt then tagmix acts
    else
      let r := prefixSums 0 ((b.as T true).map (popN T.width))
      v.put vd T (acts.zip (r.map fun x => x % 2 ^ T.width))

/-- The rank within `a` of the lowest bit `a` and `b` share (R175). -/
def xsect (t a b : Nat) : Nat :=
  let c := a &&& b
  if c = 0 then 2 ^ t - 1 else popN t (a % 2 ^ ctzN t c)

/-- vxsect (R175). -/
def laneVxsect (vd va : Reg) (s : Src) (m : MaskReg) : LOp := lvInt2 true xsect vd va s m

/-- vsegl (R176). A scalar, bank or immediate source is the same at every element, read under the tag of vd (DEDUCED, log 10); for a stream, which supplies no element
e + 1 of its own, the neighbour's value is free (log 11). -/
def laneVsegl (vd : Reg) (s : Src) (m : MaskReg) : LOp := fun v => do
  let acts := v.active m
  v.cross acts
  let v := v.noteMask m
  if acts.isEmpty then .ok v
  else
    let (b, v) ← v.src s acts
    let T := b.tag.getD (v.sl.reg vd).tag
    if !T.isInt then tagmix acts
    else
      let t := T.width
      let nxt (e x : Nat) : Nat :=
        match s with
        | .vec r => v.elem r (e + 1)
        | .stream _ => Config.freeNat (v.free + e) % 2 ^ t
        | _ => x
      let r := List.zipWith (fun e x =>
        let d : Int := if e + 1 < v.sl.vl then sextI (nxt e x) t - sextI x t else 0
        satI d 0 ((2 ^ (t - 1) : Nat) - 1)) acts (b.as T true)
      let v := match s with
        | .vec q => v.noteReads q t ((acts.filter fun e => e + 1 < v.sl.vl).map fun e => (e, e + 1))
        | _ => v
      let v ← v.put vd T (acts.zip (r.map fun q => lowBits q.1 t))
      .ok ({ v with free := v.free + 1 }.orSat (r.any (·.2)))

/-- MAND (R171). -/
def execMand (md : MaskReg) (ma : MaskReg) (mb : MaskReg) (s : State) : Out := execLane (.mand md ma mb) (laneMand md ma mb) s
/-- MOR (R171). -/
def execMor (md : MaskReg) (ma : MaskReg) (mb : MaskReg) (s : State) : Out := execLane (.mor md ma mb) (laneMor md ma mb) s
/-- MXOR (R171). -/
def execMxor (md : MaskReg) (ma : MaskReg) (mb : MaskReg) (s : State) : Out := execLane (.mxor md ma mb) (laneMxor md ma mb) s
/-- MNOT (R171). -/
def execMnot (md : MaskReg) (ma : MaskReg) (s : State) : Out := execLane (.mnot md ma) (laneMnot md ma) s
/-- MLIST (R172). -/
def execMlist (md : MaskReg) (s : State) : Out := execLane (.mlist md) (laneMlist md) s
/-- MBITS (R172). -/
def execMbits (md : MaskReg) (s : State) : Out := execLane (.mbits md) (laneMbits md) s
/-- MPOP (R173). -/
def execMpop (vd : Reg) (ma : MaskReg) (s : State) : Out := execLane (.mpop vd ma) (laneMpop vd ma) s
/-- MFIRST (R173). -/
def execMfirst (vd : Reg) (ma : MaskReg) (s : State) : Out := execLane (.mfirst vd ma) (laneMfirst vd ma) s
/-- VPOPX (R174). -/
def execVpopx (vd : Reg) (src : Src) (m : MaskReg) (s : State) : Out := execLane (.vpopx vd src m) (laneVpopx vd src m) s
/-- VXSECT (R175). -/
def execVxsect (vd : Reg) (va : Reg) (src : Src) (m : MaskReg) (s : State) : Out := execLane (.vxsect vd va src m) (laneVxsect vd va src m) s
/-- VSEGL (R176). -/
def execVsegl (vd : Reg) (src : Src) (m : MaskReg) (s : State) : Out := execLane (.vsegl vd src m) (laneVsegl vd src m) s

end Sys2Proof.Machine
end

