-- ==== Sys2Proof/Machine/LanePerm.lean ====
section
/-! DEFINITION. Permutes and reductions, major opcode 0x24 (R86, R177 to R182). -/

namespace Sys2Proof.Machine

/-- A slide (R177): `pick` gives the source element, or none with the value that takes its place, or no write. -/
def lvSlide (pick : Nat → Nat → Nat → Option (Option Nat)) (vd va : Reg) (s : Src) (m : MaskReg) : LOp := fun v => do
  let acts := v.active m
  v.cross acts
  let v := v.noteMask m
  if acts.isEmpty then .ok v
  else
    let (_, v) ← v.vecAt va acts []
    let (n, v) ← v.src s acts
    let T := v.tagOf va
    let l := (acts.zip n.vals).filterMap fun p =>
      (pick v.vlmax p.1 p.2).map fun o => (p.1, match o with | some e => v.elem va e | none => 0)
    let from_ := (acts.zip n.vals).filterMap fun p => ((pick v.vlmax p.1 p.2).bind id).map fun e => (p.1, e)
    (v.noteReads va T.width from_).putAt (lowest acts) vd T l

/-- vslup (R177). -/
def laneVslup (vd va : Reg) (s : Src) (m : MaskReg) : LOp :=
  lvSlide (fun _ e n => if n ≤ e then some (some (e - n)) else none) vd va s m
/-- vsldn (R177). -/
def laneVsldn (vd va : Reg) (s : Src) (m : MaskReg) : LOp :=
  lvSlide (fun mx e n => if e + n < mx then some (some (e + n)) else some none) vd va s m

/-- vperm (R178). -/
def laneVperm (vd va : Reg) (s : Src) (m : MaskReg) : LOp := fun v => do
  let acts := v.active m
  v.cross acts
  let v := v.noteMask m
  if acts.isEmpty then .ok v
  else
    let (_, v) ← v.vecAt va acts []
    let (n, v) ← v.src s acts
    let T := v.tagOf va
    let l := (acts.zip n.vals).map fun p => (p.1, if p.2 < v.vlmax then v.elem va p.2 else 0)
    if n.tag.isSome && !(n.tag.getD .none).isInt then tagmix acts
    else (v.noteReads va T.width ((acts.zip n.vals).filter fun p => decide (p.2 < v.vlmax))).put vd T l

/-- The moves of vcompress and vexpand (R179): pairs of destination and source element, `k` counting from the elements below
VESTART. -/
def packMoves (expand : Bool) : Nat → List Nat → List (Nat × Nat)
  | _, [] => []
  | k, e :: t => (if expand then (e, k) else (k, e)) :: packMoves expand (k + 1) t

/-- vcompress and vexpand (R179). -/
def lvPack (expand : Bool) (vd va : Reg) (m : MaskReg) : LOp := fun v => do
  let acts := v.active m
  v.cross acts
  let v := v.noteMask m
  if acts.isEmpty then .ok v
  else
    let (_, v) ← v.vecAt va acts []
    let T := v.tagOf va
    let k := ((List.range v.lo).filter fun e => v.sl.maskBit m e).length
    let moves := packMoves expand k acts
    (v.noteReads va T.width (acts.zip (moves.map (·.2)))).putAt (lowest acts) vd T (moves.map fun p => (p.1, v.elem va p.2))

/-- vcompress (R179). -/
def laneVcompress (vd va : Reg) (m : MaskReg) : LOp := lvPack false vd va m
/-- vexpand (R179). -/
def laneVexpand (vd va : Reg) (m : MaskReg) : LOp := lvPack true vd va m

/-- vmatch (R180). -/
def laneVmatch (vd va : Reg) (s : Src) (m : MaskReg) : LOp := fun v => do
  let acts := v.active m
  v.cross acts
  let v := v.noteMask m
  if acts.isEmpty then .ok v
  else
    let (a, v) ← v.vecAt va acts acts
    let (b, v) ← v.src s acts
    let A := a.tag.getD .none
    let D := (v.sl.reg vd).tag
    if (b.tag.isSome && b.tag != some A) || !D.isInt || D == .i8 then tagmix acts
    else
      let bs := b.vals.map fun x => if b.tag.isSome then x else convTo A true none b.imm x % 2 ^ A.width
      let all := v.whole.filter fun e => v.sl.maskBit m e
      let keys := all.map fun e => (v.elem va e, e)
      let r := bs.map fun x => match keys.find? fun p => p.1 == x with
        | some p => p.2 % 2 ^ D.width
        | none => 2 ^ D.width - 1
      v.put vd D (acts.zip r)

/-- A combine of R181: value and flags. -/
abbrev Comb := Nat → Nat → Nat × Nat

/-- combine with an empty side (R86). -/
def combO (f : Comb) (x y : Option Nat × Nat) : Option Nat × Nat :=
  match x.1, y.1 with
  | none, _ => (y.1, x.2 ||| y.2)
  | _, none => (x.1, x.2 ||| y.2)
  | some a, some b => (let q := f a b; (some q.1, x.2 ||| y.2 ||| q.2))

/-- One halving of the partial results (R86). -/
def pairUp (f : Comb) : List (Option Nat × Nat) → List (Option Nat × Nat)
  | x :: y :: t => combO f x y :: pairUp f t
  | l => l

/-- The halvings until one partial result is left (R86). -/
def treeUp (f : Comb) : Nat → List (Option Nat × Nat) → Option Nat × Nat
  | n + 1, x :: y :: t => treeUp f n (pairUp f (x :: y :: t))
  | _, l => l.headD (none, 0)

/-- A reduction in the order of R86: over lanes, slots ascending, then the halvings. -/
def reduceOrder (f : Comb) (w : Nat) (els : List (Nat × Nat)) : Option Nat × Nat :=
  let p := (List.range w).map fun l =>
    (els.filter fun q => q.1 % w == l).foldl (fun a q => combO f a (some q.2, 0)) (none, 0)
  treeUp f w p

/-- The combine of a member (R181). -/
def redComb (k : Nat) (T : Tag) (rm : RMode) : Comb :=
  if T.isInt then fun x y => (match k with
    | 0 => ((x + y) % 2 ^ T.width, 0)
    | 1 => (if sextI x T.width ≤ sextI y T.width then y else x, 0)
    | _ => (if sextI x T.width ≤ sextI y T.width then x else y, 0))
  else fun x y => (match k with
    | 0 => fArith2 T.ffmt rm (xadd rm) x y
    | 1 => fminmax T.ffmt true x y
    | _ => fminmax T.ffmt false x y)

/-- vredsum, vredmax, vredmin (R181). A stream as the initial value gives one entry, at the lowest active element, and one where none is active; a
fault found with no active element has f = 0 (DESIGN CHOICE, log 73). -/
def lvReduce (k : Nat) (vd va : Reg) (s : Src) (m : MaskReg) : LOp := fun v => do
  let acts := v.active m
  v.cross acts
  let v := v.noteMask m
  if v.sl.vl = 0 then .ok v
  else
    let (a, v) ← v.vec va acts
    let (b, v) ← match s with
      | .vec r => v.vecAt r acts [0]
      | s => v.src s [lowest acts]
    match opType (a.tag.getD .none) b with
    | none => tagmix acts
    | some T =>
      let f := redComb k T (RMode.ofFrm v.r.frm)
      let red := reduceOrder f v.r.w (acts.zip (a.as T true))
      let r := combO f red (some ((b.as T true).headD 0), 0)
      let v ← v.putAt (lowest acts) vd T [(0, r.1.getD 0)]
      .ok (v.orFlags r.2)

/-- vredsum (R181). -/
def laneVredsum (vd va : Reg) (s : Src) (m : MaskReg) : LOp := lvReduce 0 vd va s m
/-- vredmax (R181). -/
def laneVredmax (vd va : Reg) (s : Src) (m : MaskReg) : LOp := lvReduce 1 vd va s m
/-- vredmin (R181). -/
def laneVredmin (vd va : Reg) (s : Src) (m : MaskReg) : LOp := lvReduce 2 vd va s m

/-- The running combines of a list. -/
def scanFrom (f : Comb) : Nat → List Nat → List (Nat × Nat)
  | _, [] => []
  | a, x :: t => (let q := f a x; q :: scanFrom f q.1 t)

/-- vscan (R182). A scalar, bank or immediate source is read under the tag of vd (DEDUCED, log 10). -/
def laneVscan (vd : Reg) (s : Src) (m : MaskReg) : LOp := fun v => do
  let acts := v.active m
  v.cross acts
  let v := v.noteMask m
  if acts.isEmpty then .ok v
  else
    let (b, v) ← v.src s acts
    let T := b.tag.getD (v.sl.reg vd).tag
    if !T.isArith then tagmix acts
    else
      let f := redComb 0 T (RMode.ofFrm v.r.frm)
      match b.as T true with
      | [] => .ok v
      | x :: t =>
        let r := (x, 0) :: scanFrom f x t
        let v ← v.put vd T (acts.zip (r.map (·.1)))
        .ok (v.orFlags (r.foldl (fun a q => a ||| q.2) 0))

/-- VSLUP (R177). -/
def execVslup (vd : Reg) (va : Reg) (src : Src) (m : MaskReg) (s : State) : Out := execLane (.vslup vd va src m) (laneVslup vd va src m) s
/-- VSLDN (R177). -/
def execVsldn (vd : Reg) (va : Reg) (src : Src) (m : MaskReg) (s : State) : Out := execLane (.vsldn vd va src m) (laneVsldn vd va src m) s
/-- VPERM (R178). -/
def execVperm (vd : Reg) (va : Reg) (src : Src) (m : MaskReg) (s : State) : Out := execLane (.vperm vd va src m) (laneVperm vd va src m) s
/-- VCOMPRESS (R179). -/
def execVcompress (vd : Reg) (va : Reg) (m : MaskReg) (s : State) : Out := execLane (.vcompress vd va m) (laneVcompress vd va m) s
/-- VEXPAND (R179). -/
def execVexpand (vd : Reg) (va : Reg) (m : MaskReg) (s : State) : Out := execLane (.vexpand vd va m) (laneVexpand vd va m) s
/-- VMATCH (R180). -/
def execVmatch (vd : Reg) (va : Reg) (src : Src) (m : MaskReg) (s : State) : Out := execLane (.vmatch vd va src m) (laneVmatch vd va src m) s
/-- VREDSUM (R181). -/
def execVredsum (vd : Reg) (va : Reg) (src : Src) (m : MaskReg) (s : State) : Out := execLane (.vredsum vd va src m) (laneVredsum vd va src m) s
/-- VREDMAX (R181). -/
def execVredmax (vd : Reg) (va : Reg) (src : Src) (m : MaskReg) (s : State) : Out := execLane (.vredmax vd va src m) (laneVredmax vd va src m) s
/-- VREDMIN (R181). -/
def execVredmin (vd : Reg) (va : Reg) (src : Src) (m : MaskReg) (s : State) : Out := execLane (.vredmin vd va src m) (laneVredmin vd va src m) s
/-- VSCAN (R182). -/
def execVscan (vd : Reg) (src : Src) (m : MaskReg) (s : State) : Out := execLane (.vscan vd src m) (laneVscan vd src m) s

end Sys2Proof.Machine
end

