-- ==== Sys2Proof/Machine/LaneQuad.lean ====
section
/-! DEFINITION. Quads and queues, major opcode 0x25 (R48 to R52, R183 to R185). -/

namespace Sys2Proof.Machine

/-- A quad exchange (R51, R183, R184): `pick` gives the source element. A source member in thread mode is undefined in lockstep. -/
def lvQuad (pick : Nat → Nat) (vd vs : Reg) (m : MaskReg) : LOp := fun v => do
  let acts := v.active m
  let v := v.noteMask m
  if acts.isEmpty then .ok v
  else
    let (_, v) ← v.vecAt vs acts []
    let T := v.tagOf vs
    let val (e : Nat) : Nat :=
      if v.thr.isNone && (v.r.vp e).st.inThread then Config.freeNat (v.free + e) % 2 ^ T.width else v.elem vs e
    (v.noteReads vs T.width (acts.map fun e => (e, pick e))).put vd T (acts.map fun e => (e, val (pick e))) |>.map fun v => { v with free := v.free + 1 }

/-- qswp.h (R183). -/
def laneQswpH (vd vs : Reg) (m : MaskReg) : LOp := lvQuad (fun e => e ^^^ 1) vd vs m
/-- qswp.v (R183). -/
def laneQswpV (vd vs : Reg) (m : MaskReg) : LOp := lvQuad (fun e => e ^^^ 2) vd vs m
/-- qswp.d (R183). -/
def laneQswpD (vd vs : Reg) (m : MaskReg) : LOp := lvQuad (fun e => e ^^^ 3) vd vs m
/-- qbc (R184). -/
def laneQbc (vd va : Reg) (i : BitVec 5) (m : MaskReg) : LOp := lvQuad (fun e => e / 4 * 4 + i.toNat) vd va m

/-- The entry an element sends (R185): its value in its tag width, or the full dword with tag i64. -/
def sendEnt (tag : Option Tag) (x : Nat) : QEnt :=
  match tag with
  | some t => { v := BitVec.ofNat 64 (x % 2 ^ t.width), tag := t }
  | none => { v := BitVec.ofNat 64 x, tag := .i64 }

/-- The low bits of an entry under a tag (R59, R185). -/
def entLow (q : QEnt) (t : Tag) : Nat := q.v.toNat % 2 ^ t.width

/-- Place of the count of sends element `e` has made in the running block, in the receive map of a block. -/
def sentKey (e : Nat) : Nat := 2 ^ 20 + e
/-- Place of the number of receives element `e` makes in the whole block. -/
def totalKey (e : Nat) : Nat := 2 ^ 21 + e

/-- Entries of the row a lane's receive queue holds (R48). -/
def laneEntries (r : Row) (lane : Nat) : Nat := (r.recvQ.filter fun q => q.1 % r.w == lane).length

/-- Entries a send of element `e` finds in the receive queue of the next element's lane, running in ascending element order (R49): those
tagged for VPs in thread mode, those `e` sent before, which its neighbour takes only after it, and those earlier elements of that lane left
behind. -/
def sendOccupancy (v : LV) (e : Nat) : Nat :=
  laneEntries v.r ((e + 1) % v.r.w) + FMap.getD v.rcvd (sentKey e) 0 +
  sumL (v.sends.map fun q =>
    if q.1 < e ∧ (q.1 + 1) % v.r.w = (e + 1) % v.r.w ∧ (v.r.vp (q.1 + 1)).st.inThread = false then
      q.2.length - FMap.getD v.rcvd (totalKey (q.1 + 1)) 0
    else 0)

/-- Lockstep qsnd over the active elements (R48, R49): the last element sends to the drain queue, the others to their neighbour. The
entries for a neighbour in LOCK stand in the block's table; a neighbour in thread mode takes them from the lane's queue (R48, R50). -/
def sendLock (acts : List Nat) (ents : List QEnt) (v : LV) : Except LErr LV :=
  (acts.zip ents).foldlM (fun (v : LV) (p : Nat × QEnt) =>
    if p.1 + 1 = v.sl.vl then
      if 4 ≤ v.r.drainQ.length then .error (.at .qover p.1)
      else .ok { v with r := { v.r with drainQ := v.r.drainQ ++ [p.2] } }
    else if 4 ≤ sendOccupancy v p.1 then .error (.at .qover p.1)
    else if (v.r.vp (p.1 + 1)).st.inThread then
      .ok { v with r := { v.r with recvQ := v.r.recvQ ++ [(p.1 + 1, { p.2 with blk := true })] } }
    else .ok { v with rcvd := FMap.set v.rcvd (sentKey p.1) (FMap.getD v.rcvd (sentKey p.1) 0 + 1) }) v

/-- qsnd while the table of a block is worked out: the entries go to the table's new half, at element + 2^20. -/
def dryQsnd (s : Src) (m : MaskReg) : LOp := fun v => do
  let acts := v.active m
  let (b, v) ← v.src s acts
  let v ← v.settled
  .ok ((acts.zip (b.vals.map (sendEnt b.tag))).foldl (fun v p =>
    { v with sends := FMap.set v.sends (sentKey p.1) (FMap.getD v.sends (sentKey p.1) [] ++ [p.2]) }) v)

/-- qrcv while the table of a block is worked out: an entry not yet known reads 0, and a later round corrects it. -/
def dryQrcv (vd : Reg) (m : MaskReg) : LOp := fun v =>
  let acts := v.active m
  let T := (v.sl.reg vd).tag
  let (v, l) := acts.foldl (fun (p : LV × List (Nat × Nat)) (e : Nat) =>
    let v := p.1
    if e = 0 then
      match v.r.seedQ with
      | [] => (v, p.2 ++ [(e, 0)])
      | q :: t => ({ v with r := { v.r with seedQ := t } }, p.2 ++ [(e, entLow q T)])
    else
      let k := FMap.getD v.rcvd e 0
      let x := match (FMap.getD v.sends (e - 1) [])[k]? with
        | none => 0
        | some q => entLow q T
      ({ v with rcvd := FMap.set v.rcvd e (k + 1) }, p.2 ++ [(e, x)])) (v, [])
  v.put vd T l

/-- Lockstep qsnd. -/
def laneQsnd (s : Src) (m : MaskReg) : LOp := fun v => do
  let acts := v.active m
  let v := v.noteMask m
  if acts.isEmpty then .ok v
  else
    let (b, v) ← v.src s acts
    let v ← v.settled
    sendLock acts (b.vals.map (sendEnt b.tag)) v

/-- Lockstep qrcv (R49, R185). -/
def laneQrcv (vd : Reg) (m : MaskReg) : LOp := fun v => do
  let acts := v.active m
  let v := v.noteMask m
  let T := (v.sl.reg vd).tag
  if acts.isEmpty then .ok v
  else if T = .none ∨ T = .macc then tagmix acts
  else
    let (v, l) ← acts.foldlM (fun (p : LV × List (Nat × Nat)) (e : Nat) =>
      let v := p.1
      if e = 0 then
        match v.r.seedQ with
        | [] => (.error (.at .qempty e) : Except LErr (LV × List (Nat × Nat)))
        | q :: t => .ok ({ v with r := { v.r with seedQ := t } }, p.2 ++ [(e, entLow q T)])
      else
        let k := FMap.getD v.rcvd e 0
        match (FMap.getD v.sends (e - 1) [])[k]? with
        | none => .error (.at .qempty e)
        | some q => .ok ({ v with rcvd := FMap.set v.rcvd e (k + 1) }, p.2 ++ [(e, entLow q T)])) (v, [])
    v.put vd T l

/-- Thread-mode qsnd (R48, R50): a full queue stalls the VP. -/
def thrQsnd (s : Src) (m : MaskReg) : LOp := fun v => do
  let acts := v.active m
  match acts with
  | [] => .ok v
  | e :: _ =>
    let (b, v) ← v.src s acts
    let v ← v.settled
    let q := sendEnt b.tag (b.vals.headD 0)
    if e + 1 = v.vlmax then
      if 4 ≤ v.r.drainQ.length then .error .stall else .ok { v with r := { v.r with drainQ := v.r.drainQ ++ [q] } }
    else if 4 ≤ laneEntries v.r ((e + 1) % v.r.w) then .error .stall
    else .ok { v with r := { v.r with recvQ := v.r.recvQ ++ [(e + 1, q)] } }

/-- Drop the first entry tagged for `e`. -/
def dropFirst (e : Nat) : List (Nat × QEnt) → List (Nat × QEnt)
  | [] => []
  | p :: t => if p.1 = e then t else p :: dropFirst e t

/-- Thread-mode qrcv (R48, R50): with no entry the VP stalls. -/
def thrQrcv (vd : Reg) (m : MaskReg) : LOp := fun v => do
  let acts := v.active m
  let T := (v.sl.reg vd).tag
  match acts with
  | [] => .ok v
  | e :: _ =>
    if T = .none ∨ T = .macc then tagmix acts
    else if e = 0 then
      match v.r.seedQ with
      | [] => .error .stall
      | q :: t => ({ v with r := { v.r with seedQ := t } }).put vd T [(e, entLow q T)]
    else
      match v.r.recvQ.find? fun p => p.1 == e with
      | none => .error .stall
      | some p => ({ v with r := { v.r with recvQ := dropFirst e v.r.recvQ } }).put vd T [(e, entLow p.2 T)]

/-- The siblings of element `e` in its quad, below VLMAX (R52). -/
def quadSiblings (v : Nat) (e : Nat) : List Nat := (List.range 4).map (e / 4 * 4 + ·) |>.filter fun k => k != e && k < v

/-- A thread-mode exchange may complete for `e` (R52): every sibling in THR stands at the same word of the same bundle, and none
is frozen. -/
def quadReady (r : Row) (vlmax : Nat) (b : Bundle) (m : BMem) : Bool :=
  (quadSiblings vlmax m.e).all fun k =>
    match (r.vp k).st with
    | .thr => b.mem.any fun q => q.e == k && q.idx == m.idx && !q.fin
    | .froz => false
    | _ => true

/-- A quad exchange (R51, R52): in thread mode the members whose quad is complete run it together, each reading before any writes; the
others wait. A fault is its own member's alone (R37). -/
def execQuad (i : Instr) (op : LOp) (s : State) : Out :=
  let op := op.limited i
  match s.clock.issue with
  | .lanes row :: _ => laneLock op row s.popIssue
  | .bundle row n :: _ =>
    match s.row? row with
    | none => .refused .noActor
    | some r =>
      match r.bundles[n]? with
      | none => .refused .noActor
      | some b =>
        let (go, wait) := (State.dueMembers r b).partition (quadReady r (s.vlmax r) b)
        let s := wait.foldl (fun s m =>
          if classWaitOk r.cls r.cls true then s.vpWait row b m .quad else s.raiseVp row m.e (vpFault b m.idx .illwait 0 0 0 m.ops)) s.popIssue
        let sl := s.slice r
        .next (go.foldl (fun s m => laneVp op id row b sl s m) s)
  | _ => .refused .noActor

/-- QSWP_H (R183). -/
def execQswpH (vd : Reg) (vs : Reg) (m : MaskReg) (s : State) : Out := execQuad (.qswpH vd vs m) (laneQswpH vd vs m) s
/-- QSWP_V (R183). -/
def execQswpV (vd : Reg) (vs : Reg) (m : MaskReg) (s : State) : Out := execQuad (.qswpV vd vs m) (laneQswpV vd vs m) s
/-- QSWP_D (R183). -/
def execQswpD (vd : Reg) (vs : Reg) (m : MaskReg) (s : State) : Out := execQuad (.qswpD vd vs m) (laneQswpD vd vs m) s
/-- QBC (R184). -/
def execQbc (vd : Reg) (va : Reg) (i : BitVec 5) (m : MaskReg) (s : State) : Out := execQuad (.qbc vd va i m) (laneQbc vd va i m) s
/-- QSND (R185). -/
def execQsnd (src : Src) (m : MaskReg) (s : State) : Out :=
  execLane2 (LOp.limited (.qsnd src m) (laneQsnd src m)) (LOp.limited (.qsnd src m) (thrQsnd src m)) s
/-- The flag SETB names for the word at the head of the issue list stands at 15 for the thread it counts against: the receive stalls at
issue (R27, R32, R33). -/
def setbFull (s : State) (setb : Nat) (t : Tid) : Bool := decide (setb < 12) && decide (15 ≤ s.flagCount t setb)

/-- QRCV (R185): it counts against the flag of SETB from its issue until its value is written, which is one step here (R32). -/
def execQrcv (vd : Reg) (m : MaskReg) (s : State) : Out :=
  let lock := LOp.limited (.qrcv vd m) (laneQrcv vd m)
  let thr := LOp.limited (.qrcv vd m) (thrQrcv vd m)
  match s.clock.issue with
  | .lanes row :: _ =>
    if (((s.row? row).bind (·.blocks.head?)).map fun k => setbFull s k.hd.setb (.ctl row)).getD false then .next s.popIssue
    else execLane2 lock thr s
  | _ => execLaneIf (fun s t b => !setbFull s b.hd.setb t) lock thr s

end Sys2Proof.Machine
end

