-- ==== Sys2Proof/Machine/LaneSem.lean ====
section
/-! DEFINITION. The effect of a lane word as a value: what a drain block runs (R264, R265), what the table of a block's queue sends is
worked out from (R49), and the register limits of a word when it is decoded (R58, R68, R104 step 5). -/

namespace Sys2Proof.Machine

/-- The effect of a word of 0x20 to 0x25 on a view of the row; none for a word of another group. -/
def laneSem (i : Instr) : Option LOp :=
  match i with
  | .vadd vd va src m => some (laneVadd vd va src m)
  | .vsub vd va src m => some (laneVsub vd va src m)
  | .vmul vd va src m => some (laneVmul vd va src m)
  | .vmulhS vd va src m => some (laneVmulhS vd va src m)
  | .vmulhN vd va src m => some (laneVmulhN vd va src m)
  | .vminS vd va src m => some (laneVminS vd va src m)
  | .vminN vd va src m => some (laneVminN vd va src m)
  | .vmaxS vd va src m => some (laneVmaxS vd va src m)
  | .vmaxN vd va src m => some (laneVmaxN vd va src m)
  | .vand vd va src m => some (laneVand vd va src m)
  | .vor vd va src m => some (laneVor vd va src m)
  | .vxor vd va src m => some (laneVxor vd va src m)
  | .vsll vd va src m => some (laneVsll vd va src m)
  | .vsrl vd va src m => some (laneVsrl vd va src m)
  | .vsra vd va src m => some (laneVsra vd va src m)
  | .vclz vd src m => some (laneVclz vd src m)
  | .vpop vd src m => some (laneVpop vd src m)
  | .vabs vd src m => some (laneVabs vd src m)
  | .vneg vd src m => some (laneVneg vd src m)
  | .vmv vd src m => some (laneVmv vd src m)
  | .vsel vd va src m => some (laneVsel vd va src m)
  | .vcmpEq md va src m => some (laneVcmpEq md va src m)
  | .vcmpNe md va src m => some (laneVcmpNe md va src m)
  | .vcmpLtS md va src m => some (laneVcmpLtS md va src m)
  | .vcmpLtN md va src m => some (laneVcmpLtN md va src m)
  | .vcmpLeS md va src m => some (laneVcmpLeS md va src m)
  | .vcmpLeN md va src m => some (laneVcmpLeN md va src m)
  | .vidx vd m => some (laneVidx vd m)
  | .vimm vd imm m => some (laneVimm vd imm m)
  | .vwmulS vd va src m => some (laneVwmulS vd va src m)
  | .vwmulN vd va src m => some (laneVwmulN vd va src m)
  | .vwmacS vd va src m => some (laneVwmacS vd va src m)
  | .vwmacN vd va src m => some (laneVwmacN vd va src m)
  | .vwmacSn vd va src m => some (laneVwmacSn vd va src m)
  | .vnsr vd va src m => some (laneVnsr vd va src m)
  | .vnsra vd va src m => some (laneVnsra vd va src m)
  | .vsaddS vd va src m => some (laneVsaddS vd va src m)
  | .vsaddN vd va src m => some (laneVsaddN vd va src m)
  | .vssubS vd va src m => some (laneVssubS vd va src m)
  | .vssubN vd va src m => some (laneVssubN vd va src m)
  | .vavg vd va src m => some (laneVavg vd va src m)
  | .vcvt vd rm vb m => some (laneVcvt vd rm vb m)
  | .vretag vd tag => some (laneVretag vd tag)
  | .vfadd vd va src m => some (laneVfadd vd va src m)
  | .vfsub vd va src m => some (laneVfsub vd va src m)
  | .vfmul vd va src m => some (laneVfmul vd va src m)
  | .vfma vd va src m => some (laneVfma vd va src m)
  | .vfms vd va src m => some (laneVfms vd va src m)
  | .vfnma vd va src m => some (laneVfnma vd va src m)
  | .vfmin vd va src m => some (laneVfmin vd va src m)
  | .vfmax vd va src m => some (laneVfmax vd va src m)
  | .vfdiv vd va src m => some (laneVfdiv vd va src m)
  | .vfsqrt vd rm vb m => some (laneVfsqrt vd rm vb m)
  | .vfrcp vd rm vb m => some (laneVfrcp vd rm vb m)
  | .vfrsq vd rm vb m => some (laneVfrsq vd rm vb m)
  | .vfexp2 vd rm vb m => some (laneVfexp2 vd rm vb m)
  | .vfcmpEq md va src m => some (laneVfcmpEq md va src m)
  | .vfcmpLt md va src m => some (laneVfcmpLt md va src m)
  | .vfcmpLe md va src m => some (laneVfcmpLe md va src m)
  | .vfclass vd src m => some (laneVfclass vd src m)
  | .vfsgnj vd va src m => some (laneVfsgnj vd va src m)
  | .mand md ma mb => some (laneMand md ma mb)
  | .mor md ma mb => some (laneMor md ma mb)
  | .mxor md ma mb => some (laneMxor md ma mb)
  | .mnot md ma => some (laneMnot md ma)
  | .mlist md => some (laneMlist md)
  | .mbits md => some (laneMbits md)
  | .mpop vd ma => some (laneMpop vd ma)
  | .mfirst vd ma => some (laneMfirst vd ma)
  | .vpopx vd src m => some (laneVpopx vd src m)
  | .vxsect vd va src m => some (laneVxsect vd va src m)
  | .vsegl vd src m => some (laneVsegl vd src m)
  | .vslup vd va src m => some (laneVslup vd va src m)
  | .vsldn vd va src m => some (laneVsldn vd va src m)
  | .vperm vd va src m => some (laneVperm vd va src m)
  | .vcompress vd va m => some (laneVcompress vd va m)
  | .vexpand vd va m => some (laneVexpand vd va m)
  | .vmatch vd va src m => some (laneVmatch vd va src m)
  | .vredsum vd va src m => some (laneVredsum vd va src m)
  | .vredmax vd va src m => some (laneVredmax vd va src m)
  | .vredmin vd va src m => some (laneVredmin vd va src m)
  | .vscan vd src m => some (laneVscan vd src m)
  | .qswpH vd vs m => some (laneQswpH vd vs m)
  | .qswpV vd vs m => some (laneQswpV vd vs m)
  | .qswpD vd vs m => some (laneQswpD vd vs m)
  | .qbc vd va i m => some (laneQbc vd va i m)
  | .qsnd src m => some (laneQsnd src m)
  | .qrcv vd m => some (laneQrcv vd m)
  | _ => none

/-- The effect of a word while the table of its block is worked out: queue words use the table, any other word is itself. -/
def laneDry (i : Instr) : LOp :=
  match i with
  | .qsnd s m => (dryQsnd s m).limited i
  | .qrcv vd m => (dryQrcv vd m).limited i
  | i => ((laneSem i).getD Except.ok).limited i

/-- The word uses the queues. -/
def usesQueue (i : Instr) : Bool :=
  match i with
  | .qsnd .. | .qrcv .. => true
  | _ => false

/-- The view of the word after one that has run: from element 0, as VESTART is 0 then (R25, R64). -/
def LV.nextWord (v : LV) : LV :=
  let l := lockActs v.r 0 v.sl.vl
  { v with acts := l, lo := 0, whole := l, sl := { v.sl with vestart := 0 } }

/-- One round: the block's words from a view, until one faults; or the stream entries that one waits for. -/
def dryRound : List Instr → LV → Except (Nat × Nat) LV
  | [], v => .ok v
  | i :: t, v =>
    match laneDry i v with
    | .ok v => dryRound t v.nextWord
    | .error (.await n upto) => .error (n, upto)
    | .error _ => .ok v

/-- The sends of a round, by element. -/
def sendsOf (v : LV) : FMap (List QEnt) :=
  (v.sends.filter fun p => 2 ^ 20 ≤ p.1).map fun p => (p.1 - 2 ^ 20, p.2)

/-- Rounds until the table of sends no longer changes: entry k of an element depends on sends of lower elements only, so VL + 1
rounds are enough (R49). `made` are the sends already made, `got` the receives already done. -/
def sendTable (ws : List Instr) (v : LV) (made : FMap (List QEnt)) (got : FMap Nat) :
    Nat → FMap (List QEnt) → Except (Nat × Nat) (FMap (List QEnt) × FMap Nat)
  | 0, tab => .ok (tab, [])
  | n + 1, tab =>
    match dryRound ws { v with sends := tab ++ made, rcvd := got } with
    | .error x => .error x
    | .ok w =>
      let tab' := sendsOf w
      if tab' = tab then .ok (tab, w.rcvd.map fun p => (totalKey p.1, p.2)) else sendTable ws v made got n tab'

/-- The table of sends of a block about to run from its next word, with the receives each element makes; empty where no word uses the
queues; or the stream entries it hangs on. The sends and receives of the words already run stand (R319). -/
def State.blockSends (s : State) (r : Row) (k : LaneRun) : Except (Nat × Nat) (FMap (List QEnt) × FMap Nat) :=
  let ws := (k.words.drop k.idx).filterMap fun w => decodeWord w.toNat
  if ws.any usesQueue then
    let sent := k.rcvd.filter fun p => decide (2 ^ 20 ≤ p.1) && decide (p.1 < 2 ^ 21)
    let got := k.rcvd.filter fun p => decide (p.1 < 2 ^ 20)
    let made := sent.map fun p => (p.1, (FMap.getD k.sends (p.1 - 2 ^ 20) []).take p.2)
    (sendTable ws (s.lockLV r k) made got ((s.slice r).vl + 2) []).map fun q => (q.1, got ++ sent ++ q.2)
  else .ok ([], [])

end Sys2Proof.Machine
end

