-- ==== Sys2Proof/Machine/Home.lean ====
section
/-! DEFINITION. The homes: applying a write with its GWCT (R227, R228, R232), what a write to a dword releases (R295 to R298), the
scalar load path with its leases (R230 to R233), and release conditions (R129, R234). -/

namespace Sys2Proof.Machine

/-- Write a thread's register: x[d], or element e of v[d] for a VP (R101). -/
def State.putX (s : State) (t : Tid) (d : Reg) (v : Word) : State :=
  match t with
  | .vp r e =>
    match s.row? r with
    | some q => s.modSlice q fun sl => sl.setElem q.w d 64 e v.toNat
    | none => s
  | t => s.modThread t fun th => th.setX d v

/-- A thread's step ends with its instruction, one not a `vf` whose block still runs (R320). -/
def State.stepEnd (s : State) (t : Tid) (pc : Word) : State :=
  match t with
  | .ctl row =>
    match s.row? row with
    | some r =>
      (match r.stepping with
       | some k => if r.stepVf.isSome && !r.blocks.isEmpty then s else s.stepRec t k pc r.th.pc
       | none => s)
    | none => s
  | .hnd h =>
    match s.hnd? h with
    | some q =>
      (match q.stepping with
       | some k => s.stepRec t k pc q.th.pc
       | none => s)
    | none => s
  | .vp .. => s

/-- PC holds 56 bits and reads sign-extended (R57). -/
def pcExt (pc : Word) : Word := (pc.truncate 56).signExtend 64

/-- Move a control or handler thread to `pc`. -/
def State.goTo (s : State) (t : Tid) (pc : Word) : State :=
  match s.thread? t with
  | some th => (s.modThread t fun th => { th with pc := pcExt pc }).stepEnd t th.pc
  | none => s

/-- Move a thread past its instruction: PC + 4, or the next word of its block. -/
def State.finish (s : State) (t : Tid) : State :=
  match t with
  | .vp r e => s.advanceVp r e
  | t =>
    match s.thread? t with
    | some th => s.goTo t (th.pc + 4)
    | none => s

/-- A wait ends with a value in the register it names. -/
def State.release (s : State) (t : Tid) (d : Reg) (v : Word) : State := ((s.setWait t none).putX t d v).finish t

/-- Every thread that waits, with its wait. -/
def State.waiters (s : State) : List (Tid × Wait) :=
  s.rows.flatMap (fun r =>
    (match r.th.wait with | some w => [(Tid.ctl r.id, w)] | none => []) ++
    r.vps.filterMap fun p => p.2.wait.map fun w => (Tid.vp r.id p.1, w)) ++
  s.handlers.filterMap fun h => h.th.wait.map fun w => (Tid.hnd h.slot, w)

/-- A held lock dword (R294). -/
def lockWord (c : Cls) (token : Word) : Nat := 2 ^ 63 + c.code * 2 ^ 61 + 2 ^ 59 + token.toNat % 2 ^ 48

/-- Raise or lower the held-lock count of a thread's row (R284). -/
def State.modLocks (s : State) (t : Tid) (f : Nat → Nat) : State :=
  match tidRow t with
  | some r => s.modRow r fun q => { q with locks := f q.locks }
  | none => s

/-- Locks the thread's row holds (R284). -/
def State.lockCount (s : State) (t : Tid) : Nat := (((tidRow t).bind s.row?).map (·.locks)).getD 0

/-- The places of the dword at `k`, under the key it was last written with (R360). -/
def State.dwordLocs (s : State) (k : Nat) : List Loc := locRun { key := k, enc := FMap.getD s.mem.keys k 0, home := 0 } 8

/-- Release the monitored waits whose dword at `k` differs from their value (R298); each value reaches the waiter's cluster (R228). -/
def State.wakeMonitors (s : State) (k : Nat) : State :=
  s.waiters.foldl (fun s p => match p.2 with
    | .waitm d j ref =>
      if j = k ∧ BitVec.ofNat 64 (s.dwordAt k) ≠ ref then
        (s.refresh (s.clusterOf p.1) (s.dwordLocs k)).release p.1 d (BitVec.ofNat 64 (s.dwordAt k))
      else s
    | _ => s) s

/-- A TLBINV request (R354) behind the requester's stores up to `gwct` and those of `after`: kind 3 or a reserved bit is ignored and logged. -/
def State.tlbRequest (s : State) (p v gwct : Nat) (after : List Nat) : State :=
  if bits v 0 2 = 3 ∨ bits v 2 14 ≠ 0 then s.log 4 p 0 v
  else s.modPart p fun q =>
    { q with invReq := q.invReq + 1, invs := q.invs ++ [{ kind := bits v 0 2, page := bits v 16 48, gwct := gwct, after := after }] }

/-- A request no longer waits for the write `w`, whose GWCT is `g` (R354). -/
def InvReq.took (r : InvReq) (w g : Nat) : InvReq :=
  if r.after.contains w then { r with gwct := max r.gwct g, after := r.after.filter (· != w) } else r

/-- The offset in a control page of a place that lies in one. -/
def ctlOffset (k : Nat) : Option Nat := if 2 ^ 54 ≤ k then some (k % 2 ^ 12) else none

/-- A byte read at its home by an access of partition `p`: TLBINV reads zero, TLBSEQ the count of completed requests (R354). -/
def State.homeByte (s : State) (p : Nat) (l : Loc) : Byte :=
  match ctlOffset l.key with
  | some o =>
    if 0x800 ≤ o ∧ o < 0x808 then 0
    else if 0x808 ≤ o ∧ o < 0x810 then BitVec.ofNat 8 ((s.part p).invDone / 256 ^ (o - 0x808))
    else s.byte l.key
  | none => s.readLoc l

/-- The place is of a translation register of a control page, whose bytes the horologer answers (R354). -/
def ctlReg (k : Nat) : Bool :=
  match ctlOffset k with
  | some o => decide (0x800 ≤ o) && decide (o < 0x810)
  | none => false

/-- Bytes read at their homes. -/
def State.homeBytes (s : State) (p : Nat) (ls : List Loc) : List Byte := ls.map (s.homeByte p)

/-- Apply one item to memory (R195, R204). -/
def applyItem (s : State) (i : WItem) : State :=
  match i with
  | .byte l mask b =>
    let old := if mask = 0xFF then 0 else s.readLoc l
    { s with mem := s.mem.put l ((b &&& mask) ||| (old &&& ~~~mask)) }
  | .add ls tag v =>
    let old := leNat (ls.map s.readLoc)
    let new := if tag = .f32 then (fArith2 fmtF32 .rne (xadd .rne) old v).1 else (old + v) % 2 ^ tag.width
    { s with mem := (ls.zip (leBytes (tag.width / 8) new)).foldl (fun m p => m.put p.1 p.2) s.mem }

/-- Lines a whole write of which clears their poison (R358). -/
def wholeLines (items : List WItem) : List Nat :=
  let full := items.filterMap fun i => match i with
    | .byte l m _ => if m = 0xFF then some l.key else none
    | .add .. => none
  ((full.map (· / 64)).dedup).filter fun n => (List.range 64).all fun i => full.contains (n * 64 + i)

/-- The copies a cluster holds of the lines of some places are evicted (R232). -/
def State.evict (s : State) (cluster : Nat) (ls : List Loc) : State :=
  let lines := ls.map fun l => l.key / 64
  { s with mem := { s.mem with l1 := s.mem.l1.filter fun c => !(c.cluster == cluster && lines.contains c.line) } }

/-- A home applies one write of a thread (R232): the bytes, the copies of the writer's cluster, and the GWCT, which raises GWCTMAX of the
owning thread. A write to TLBINV is a request (R354). -/
def State.applyBytes (s : State) (t : Tid) (cluster part : Nat) (scalar : Bool) (items : List WItem) : State × Nat :=
  let locs := items.flatMap itemLocs
  let inv := items.filterMap fun i => match i with
    | .byte l _ b => (match ctlOffset l.key with
        | some o => if 0x800 ≤ o ∧ o < 0x808 then some (b.toNat * 256 ^ (o - 0x800)) else none
        | none => none)
    | .add .. => none
  let plain := items.filter fun i => match i with
    | .byte l _ _ => !ctlReg l.key
    | .add .. => true
  let s := plain.foldl applyItem s
  let s := if inv.isEmpty then s else s.tlbRequest part (sumL inv) (s.gwctOf t) ((s.mem.writes.filter (·.thread == t)).map (·.id))
  let whole := wholeLines items
  let s := { s with mem := { s.mem with poison := s.mem.poison.filter fun n => !whole.contains n } }
  let s := if scalar then s.refresh cluster locs else s.evict cluster locs
  let g := s.gwctFor cluster locs
  (s.raiseGwct t g, g)

/-- Pass a lock dword to the oldest request at its home (R295): the grant is an atomic of its thread, and raises its row's count where
`counted`. The request of a row that holds 255 locks is withdrawn, and its `lkacq` executes again and faults (R284). Whether one was granted. -/
def State.grantNext (counted : Bool) (k : Nat) : Nat → State → State × Bool
  | 0, s => (s, false)
  | n + 1, s =>
    match s.mem.lockQ.find? fun q => q.1 == k with
    | none => (s, false)
    | some (_, t, c) =>
      let s := { s with mem := { s.mem with lockQ := s.mem.lockQ.filter fun q => q.2.1 != t } }
      match s.waitOf t with
      | some (.lock d _) =>
        if counted && decide (255 ≤ s.lockCount t) then State.grantNext counted k n (s.setWait t none)
        else
          let (s, _) := s.applyBytes t (s.clusterOf t) (s.partOf t) false
            (((s.dwordLocs k).zip (leBytes 8 (lockWord c (s.token t)))).map fun p => .byte p.1 0xFF p.2)
          ((if counted then s.modLocks t (· + 1) else s).release t d 0, true)
      | _ => State.grantNext counted k n s

/-- A write has left the dword at `k` free: the oldest lock request takes it, and no held-lock count changes (R297). -/
def State.grantLock (s : State) (k : Nat) : State :=
  if s.dwordAt k ≠ 0 then s else (State.grantNext false k s.mem.lockQ.length s).1

/-- What a write applied to the dword at `k` releases (R297, R298). -/
def State.afterWrite (s : State) (k : Nat) : State := ((s.wakeMonitors k).grantLock k).wakeMonitors k

/-- A home applies one write with the waits its dwords release (R297, R298). -/
def State.applyOne (s : State) (t : Tid) (cluster part : Nat) (scalar : Bool) (items : List WItem) : State × Nat :=
  let (s, g) := s.applyBytes t cluster part scalar items
  ((((items.flatMap itemLocs).map fun l => l.key / 8 * 8).dedup).foldl State.afterWrite s, g)

/-- The writes that a list of items stands for, one after another: an addition is one of its own, and so begins a write that comes to a byte
again (R200, R204, R298). -/
def splitWrites : List WItem → List Nat → List WItem → List (List WItem)
  | [], _, acc => if acc.isEmpty then [] else [acc]
  | .add ls t v :: rest, _, acc => (if acc.isEmpty then [] else [acc]) ++ [.add ls t v] :: splitWrites rest [] []
  | .byte l m b :: rest, seen, acc =>
    if seen.contains l.key then acc :: splitWrites rest [l.key] [.byte l m b]
    else splitWrites rest (l.key :: seen) (acc ++ [.byte l m b])

/-- A home applies the writes of a thread in order (R232): the new state, and the greatest GWCT. -/
def State.applyAt (s : State) (t : Tid) (cluster part : Nat) (scalar : Bool) (items : List WItem) : State × Nat :=
  (splitWrites items [] []).foldl (fun (q : State × Nat) w =>
    let (s, g) := q.1.applyOne t cluster part scalar w
    (s, max q.2 g)) (s, 0)

/-- Apply a travelling write and take it off the list; a `vpst` all of whose writes are applied completes (R32, R190). The launch of a row that
has ended takes the GWCT of its write (R244), and so does a request of TLBINV behind it (R354). -/
def State.applyWrite (s : State) (w : PWrite) : State :=
  let s := { s with mem := { s.mem with writes := s.mem.writes.filter (·.id != w.id) } }
  let n := (s.part w.part).invs.length
  let (s, g) := s.applyAt w.thread w.cluster w.part w.scalar w.items
  let s := s.modPart w.part fun q =>
    { q with invs := (q.invs.take n).map (·.took w.id g) ++ (q.invs.drop n).map fun r => { r with after := r.after.filter (decide <| · < w.id) } }
  let took (l : Launch) : Launch :=
    if l.late.contains w.id then { l with gwct := max l.gwct g, late := l.late.filter (· != w.id) } else l
  { s with engine := { s.engine with launches := s.engine.launches.map took } }

/-- The part of a list up to the last entry that satisfies a test. -/
def upToLast {α : Type} (p : α → Bool) (l : List α) : List α := (l.reverse.dropWhile fun a => !p a).reverse

/-- Apply, in order, the travelling writes that an access of a thread to some places at their homes has to follow (R228, R238, R239): the
last write of its own row or handler that meets them, the last of its cluster's write path, from which the cluster may have read, and every
write of these or of the cluster before it. -/
def State.force (s : State) (t : Tid) (keys : List Nat) : State :=
  let own (w : PWrite) : Bool := w.thread == t || (tidRow w.thread == tidRow t && (tidRow t).isSome)
  let near (w : PWrite) : Bool := w.cluster == s.clusterOf t
  (upToLast (fun w => (own w || w.scalar) && itemsHit w.items keys) (s.mem.writes.filter fun w => own w || near w)).foldl State.applyWrite s

/-- Apply every travelling write of a row and of its cluster before one of the row's words reads memory at the homes (R228, R238, R239). -/
def State.settle (s : State) (row : Nat) : State :=
  let c := s.clusterOf (.ctl row)
  (s.mem.writes.filter fun w => tidRow w.thread == some row || w.cluster == c).foldl State.applyWrite s

/-- The newest travelling scalar store of the cluster to a place: the write path of R232. -/
def writePath (ws : List PWrite) (cluster k : Nat) : Option Byte :=
  (ws.filter fun w => w.scalar && w.cluster == cluster).foldl (fun o w =>
    w.items.foldl (fun o i => match i with
      | .byte l _ b => if l.key = k then some b else o
      | .add .. => o) o) none

/-- The scalar L1 copies with at most `n` of a cluster, the newest (R14). The spec gives no replacement rule: the L1 is taken as fully associative,
and the copy granted first leaves it, counting those whose leases have run out (DESIGN CHOICE, log 82). -/
def l1Bound (cluster : Nat) : Nat → List L1Copy → List L1Copy
  | _, [] => []
  | n, c :: t =>
    if c.cluster = cluster then (match n with
      | 0 => l1Bound cluster 0 t
      | k + 1 => c :: l1Bound cluster k t)
    else c :: l1Bound cluster n t

/-- A lease for a line (R231): its length is the home's choice, at most 512 ns. The scalar L1 holds 128 KiB, and the oldest copy beyond that
leaves it (R14). -/
def State.grantLease (s : State) (cluster line : Nat) : State :=
  let (n, s) := s.fresh
  let le := s.clock.et + min 512 (Config.leaseLength n)
  let k := line * 128 + cluster
  { s with mem := { s.mem with
      l1 := l1Bound cluster 2048 ({ cluster := cluster, line := line, stop := le, bytes := s.bytesAt (line * 64) 64 } ::
        s.mem.l1.filter fun c => !(c.cluster == cluster && c.line == line))
      leases := FMap.set s.mem.leases k (max le (FMap.getD s.mem.leases k 0)) } }

/-- The valid scalar L1 copy of a line (R231). -/
def State.l1Find (s : State) (cluster line : Nat) : Option L1Copy :=
  s.mem.l1.find? fun c => c.cluster == cluster && c.line == line && s.clock.et < c.stop

/-- One byte on the scalar load path (R230 to R232): write path, scalar L1, home. A translation register is read at its home whatever is on its
way to it (R354). -/
def State.loadByte (s : State) (a : Acc) (l : Loc) : Byte :=
  if ctlReg l.key then s.homeByte a.part l else
  match writePath s.mem.writes a.cluster l.key with
  | some b => b
  | none =>
    match s.l1Find a.cluster (l.key / 64) with
    | some c =>
      let b := c.bytes.getD (l.key % 64) 0
      let k := FMap.getD s.mem.keys l.key 0
      if k = l.enc then b else Config.cipherByte l.enc k l.key b
    | none => s.homeByte a.part l

/-- A scalar load of `n` bytes (R125, R228 to R233, R238). -/
def State.scalarLoad (s : State) (t : Tid) (va n : Nat) : Except AFault (List Byte × State) :=
  let a := s.acc t
  match xlateN s a va n false false with
  | .error f => .error f
  | .ok (ls, s) =>
    let keys := ls.map (·.key)
    let s := if s.mem.writes.any fun w => !w.scalar && tidRow w.thread == tidRow t && (tidRow t).isSome && itemsHit w.items keys
      then s.force t keys else s
    let fromHome := ls.filter fun l =>
      (writePath s.mem.writes a.cluster l.key).isNone && (s.l1Find a.cluster (l.key / 64)).isNone
    match s.poisoned fromHome with
    | some _ => .error { code := .memerr, addr1 := lineVa va ((s.poisoned ls).getD 0), addr2 := 0 }
    | none =>
      let bs := ls.map (s.loadByte a)
      let cacheable := ((fromHome.filter fun l => l.key < 2 ^ 39 && (l.home == 0 || l.home == 2)).map (·.key / 64)).dedup
      .ok (bs, cacheable.foldl (fun s n => s.grantLease a.cluster n) s)

/-- A scalar store of bytes (R126, R232): it enters the cluster's write path. -/
def State.scalarStore (s : State) (t : Tid) (va : Nat) (bs : List Byte) : Except AFault State :=
  let a := s.acc t
  match xlateN s a va bs.length true false with
  | .error f => .error f
  | .ok (ls, s) =>
    let (k, s) := s.newId
    .ok { s with mem := { s.mem with writes := s.mem.writes ++
      [{ id := k, thread := t, cluster := a.cluster, part := a.part, scalar := true, op := none
         items := (ls.zip bs).map fun p => .byte p.1 0xFF p.2 }] } }

/-- A read of `n` bytes at their homes for a thread (R230, R239): its own earlier stores are applied first. -/
def State.homeLoad (s : State) (t : Tid) (va n : Nat) (wr obj : Bool) : Except AFault (List Loc × List Byte × State) :=
  let a := s.acc t
  match xlateN s a va n wr obj with
  | .error f => .error f
  | .ok (ls, s) =>
    let s := s.force t (ls.map (·.key))
    match s.poisoned ls with
    | some i => .error { code := .memerr, addr1 := lineVa va i, addr2 := 0 }
    | none => .ok (ls, s.homeBytes a.part ls, s.refresh a.cluster ls)

/-- Bytes written at their homes at once, as an atomic is (R127): no travelling write. -/
def State.homeStore (s : State) (t : Tid) (ls : List Loc) (bs : List Byte) : State × Nat :=
  s.applyAt t (s.clusterOf t) (s.partOf t) false ((ls.zip bs).map fun p => .byte p.1 0xFF p.2)

/-- The new value of an atomic on `w`-bit patterns (R127). -/
def amoNew (op : AmoOp) (w : Nat) (old v exp : Nat) : Nat :=
  match op with
  | .add => (old + v) % 2 ^ w
  | .and => old &&& v
  | .or => old ||| v
  | .xor => old ^^^ v
  | .minS => if sextI old w ≤ sextI v w then old else v
  | .minN => min old v
  | .maxS => if sextI old w ≤ sextI v w then v else old
  | .maxN => max old v
  | .swap => v
  | .cas => if old = exp then v else old
  | .fadd => (fArith2 fmtF32 .rne (xadd .rne) old v).1

/-- An indivisible atomic at the home of `va` (R127, R286, R294): the old value and the new state. On TLBINV the old value is the
request's ticket (R354). -/
def State.amo (s : State) (t : Tid) (op : AmoOp) (w va : Nat) (v exp : Nat) : Except AFault (Nat × State) :=
  match s.homeLoad t va (w / 8) true true with
  | .error f => .error f
  | .ok (ls, bs, s) =>
    let ticket := match ls with
      | l :: _ => (match ctlOffset l.key with
          | some o => 0x800 ≤ o && o < 0x808
          | none => false)
      | [] => false
    let old := if ticket then (s.part (s.partOf t)).invReq else leNat bs
    .ok (old, (s.homeStore t ls (leBytes (w / 8) (amoNew op w old v exp))).1)

/-- A remote atomic of the thread has not returned its value (R224). -/
def State.ramoOut (s : State) (t : Tid) : Bool :=
  s.ops.any fun o => Tid.ctl o.row == t && (match o.kind with
    | .ramo .. => true
    | _ => false)

/-- The order has a release half (R235). -/
def ordRel : Order → Bool
  | .rel | .ar => true
  | _ => false

/-- The order has an acquire half (R235). -/
def ordAcq : Order → Bool
  | .acq | .ar => true
  | _ => false

/-- The condition that ends a release stall (R129, R234): every earlier store has returned its GWCT, and at scope die and wider ET
exceeds GWCTMAX. -/
def State.releaseOk (s : State) (t : Tid) (sc : Scope) : Bool :=
  !(s.mem.writes.any fun w => w.thread == t) &&
  (match sc with
   | .vp | .row | .clu => true
   | .die | .dev | .dom => decide (s.gwctOf t < s.clock.et)) &&
  !s.ramoOut t

end Sys2Proof.Machine
end

