-- ==== Sys2Proof/Machine/Ctl.lean ====
section
/-! DEFINITION. How one control-stream word is run: by the control thread of a row or by a handler thread (R113, R305, R310), in
program order with the vector-fetched blocks before it (R31, R37), and by the members of a bundle for the words R103 lets stand in
a thread block. -/

namespace Sys2Proof.Machine

/-- What a word does to its thread. -/
inductive CRes where
  /-- The instruction is done; the thread goes on at the next word. -/
  | done (s : State)
  /-- The instruction is done; control passes to an address. -/
  | jump (s : State) (pc : Word)
  /-- It is not done and executes again, when its wait ends if it has one. -/
  | stall (s : State)
  /-- It faults in a state. -/
  | fault (s : State) (fi : FInfo)
  /-- The thread has ended or goes on as the state says. -/
  | ended (s : State)
deriving DecidableEq, Repr

/-- A thread faults at an access of `n` bytes: D of a page that an access which writes has translated stays set (R349). -/
def State.accessFault (s : State) (t : Tid) (va n : Nat) (wr : Bool) (fi : FInfo) : CRes := .fault (s.touchOne (s.acc t) va n wr) fi

/-- The fault of a word at its own address. -/
def Thread.flt (th : Thread) (c : Code) (a1 : Nat := 0) (a2 : Nat := 0) : FInfo :=
  { code := c, pc := th.pc, addr1 := a1, addr2 := a2 }

/-- The fault an access raises. -/
def Thread.aflt (th : Thread) (f : AFault) : FInfo := th.flt f.code f.addr1 f.addr2

/-- The control or handler thread at the head of the issue list. -/
def State.ctlActor (s : State) : Option Tid :=
  match s.clock.issue with
  | .ctl r :: _ => some (.ctl r)
  | .hnd h :: _ => some (.hnd h)
  | _ => none

/-- A vector-fetched block of the thread's row has not ended. -/
def State.blocksRun (s : State) (t : Tid) : Bool :=
  match t with
  | .ctl r => (match s.row? r with
      | some q => !q.blocks.isEmpty
      | none => false)
  | _ => false

/-- A block of the row may still fault: it has words to run, or holds elements at its end (R37, R41). -/
def Row.blocksLive (r : Row) : Bool := r.held.isSome || r.blocks.any fun k => !k.started || k.late || decide (k.idx < k.words.length)

/-- A vector-fetched block of the thread's row may still fault. -/
def State.blocksLive (s : State) (t : Tid) : Bool :=
  match t with
  | .ctl r => ((s.row? r).map Row.blocksLive).getD false
  | _ => false

/-- The words of a row's blocks as far as they are known: of one whose words are fetched when it starts, those that a fetch finds now; none
where one of those cannot be had. -/
def Row.blockWords (r : Row) : Option (List (Header × List (BitVec 32))) :=
  r.blocks.mapM fun k =>
    if k.late then
      (r.fetchWord k.header).bind decodeHeader |>.bind fun hd =>
        ((List.range hd.len).mapM fun n => r.fetchWord (wordAddr k.header n)).map fun ws => (hd, ws.map (BitVec.ofNat 32))
    else some (k.hd, k.words)

/-- No block of the thread's row holds a per-VP memory word: a scalar load may perform before the blocks' words have run, in program order with
every access of its own thread (R31, R228). -/
def State.blocksQuiet (s : State) : Bool :=
  match s.ctlActor with
  | some (.ctl r) => (match (s.row? r).bind Row.blockWords with
      | some l => l.all fun k => k.2.all fun w => match decodeWord w.toNat with
          | some (.vpld ..) | some (.vpst ..) | some (.vpamo ..) => false
          | _ => true
      | none => false)
  | _ => true

/-- The word waits for the blocks before it. R31 lets the thread go on, and R37 gives the words after a faulting block no effect: so a word whose
effect could not be undone waits while a block before it may still fault, and a word on the vector state of the row (`vec`) until those blocks
have ended, as it comes after them in program order. Not held are the words of 0x01 to 0x0C, `vf`, `vjoin`, `waitf`, `waitc`, `yield`, `qseed`,
`pfetch`, the banks, a read of a CSR that blocks do not write, and loads past blocks without memory words; any word of a thread being stepped
is (R320, log 12). -/
def State.mustWait (s : State) (t : Tid) (ahead vec : Bool) : Bool :=
  s.blocksRun t && (s.steppingOf t).isSome || !ahead && (s.blocksLive t || vec && s.blocksRun t)

/-- R327: the row's slices hold another row's contents. -/
def State.vownBad (s : State) (t : Tid) : Bool :=
  match t with
  | .ctl r => (match s.row? r with
      | some q => !q.vvalid
      | none => false)
  | _ => false

/-- The waits that end a step when they would stall (R320). -/
def Wait.blocking : Wait → Bool
  | .vjoin .. | .fence _ | .fstep _ | .faultHeld => false
  | _ => true

/-- Complete a word: the thread goes on, waits, or takes its exception. A fault of a word that ran ahead of a block waits while the block may
still fault (R37). -/
def State.conclude (s0 : State) (t : Tid) (r : CRes) : State :=
  match r with
  | .done s => s.finish t
  | .jump s pc => s.goTo t pc
  | .stall s =>
    (match s.steppingOf t, s.waitOf t, s.thread? t with
     | some k, some w, some th => if w.blocking then (s.abandon t).stepRec t k th.pc th.pc else s
     | _, _, _ => s)
  | .fault s fi => if s0.blocksLive t then s0 else s.raise t fi
  | .ended s => s

/-- Run a control-stream word for the thread at the head of the issue list. `vec`: it is one of the words R327 names. -/
def ctl (ahead vec : Bool) (body : Tid → Thread → State → CRes) (s : State) : Out :=
  match s.ctlActor with
  | none => .refused .noActor
  | some t =>
    match s.thread? t with
    | none => .refused .noActor
    | some th =>
      let s := s.popIssue
      if s.mustWait t ahead vec then .next s
      else if vec && s.vownBad t then .next (s.raise t (th.flt .vown))
      else .next (s.conclude t (body t th s))

/-- A word that acts on the thread's row: in a handler thread it is WRONGSTREAM (R310). -/
def ctlRow (ahead vec : Bool) (body : Row → Thread → State → CRes) (s : State) : Out :=
  ctl ahead vec (fun t th s =>
    match t with
    | .ctl r => (match s.row? r with
        | some q => body q th s
        | none => .ended s)
    | _ => .fault s (th.flt .wrongstream)) s

/-- What a thread-block word does for the members due, in ascending slot order (R42); one that blocks gives up its bundle place (R281). -/
def vpWord (body : Row → Nat → Bundle → BMem → State → CRes) (row n : Nat) (s : State) : Out :=
  match s.row? row with
  | none => .refused .noActor
  | some r =>
    match r.bundles[n]? with
    | none => .refused .noActor
    | some b =>
      .next ((State.dueMembers r b).foldl (fun s m =>
        match s.row? row with
        | none => s
        | some r =>
          match body r m.e b m s with
          | .done s => s.finish (.vp row m.e)
          | .jump s _ => s
          | .stall s =>
            (match s.steppingOf (.vp row m.e), s.waitOf (.vp row m.e) with
             | some k, some w =>
               if w.blocking then
                 let pc := wordAddr b.header m.idx
                 let s := (s.abandon (.vp row m.e)).modRow row fun r => (r.dropMember m.e).modVp m.e fun v => { v with st := .froz }
                 s.stepRec (.vp row m.e) k pc pc b.header (vpFault b m.idx .step 0 0 0 m.ops).run
               else s
             | none, some w => if w.blocking then s.modRow row fun r => r.giveUp m.e else s
             | _, _ => s)
          | .fault s fi => s.raiseVp row m.e { vpFault b m.idx fi.code fi.addr1 0 0 m.ops with addr2 := fi.addr2 }
          | .ended s => s) s.popIssue)

/-- A word of the control stream that a thread block may hold as well. -/
def ctlOrVp (ahead vec : Bool) (body : Tid → Thread → State → CRes) (vp : Row → Nat → Bundle → BMem → State → CRes)
    (s : State) : Out :=
  match s.clock.issue with
  | .bundle row n :: _ => vpWord vp row n s
  | _ => ctl ahead vec body s

/-- A word that writes x[d] and goes on. -/
def setD (t : Tid) (d : Reg) (v : Word) (s : State) : CRes := .done (s.modThread t fun th => th.setX d v)

/-- Operations of the open strip that may still fault or have not completed (R131). -/
def State.stripBusy (s : State) (r : Row) : Bool :=
  s.ops.any fun o => o.row == r.id && (o.kind.ofStrip || (o.vp.isNone && match o.kind with
    | .vpst _ | .vpamo .. => true
    | _ => false))

/-- A stored word needs the cause SCALAR of R36. -/
def State.scalarNr (s : State) (t : Tid) : State :=
  match t with
  | .ctl r => s.stripNr r 3
  | _ => s

end Sys2Proof.Machine
end

