-- ==== Sys2Proof/Machine/Scalar.lean ====
section
/-! DEFINITION. Scalar integer words, major opcodes 0x01 to 0x09 (R115 to R118). -/

namespace Sys2Proof.Machine

/-- A register-register word: x[d] := f x[a] x[b], both read before x[d] is written (R115). -/
def alu (f : Word → Word → Word) (d a b : Reg) (s : State) : Out :=
  ctl true false (fun t th s => setD t d (f (th.getX a) (th.getX b)) s) s

/-- A register-immediate word (R117). -/
def aluI (f : Word → Word) (d a : Reg) (s : State) : Out := ctl true false (fun t th s => setD t d (f (th.getX a)) s) s

/-- The signed product of two dwords, exactly. -/
def mulS (a b : Word) : Int := a.toInt * b.toInt

/-- Quotient and remainder of R116, signed. -/
def divRemS (a b : Word) : Int × Int :=
  if b = 0 then (-1, a.toInt)
  else if a.toInt = -2 ^ 63 ∧ b.toInt = -1 then (-2 ^ 63, 0)
  else
    let q : Int := (a.toInt.natAbs / b.toInt.natAbs : Nat)
    let q := if (a.toInt < 0) ≠ (b.toInt < 0) then -q else q
    (q, a.toInt - q * b.toInt)

/-- Quotient and remainder of R116, unsigned. -/
def divRemN (a b : Word) : Nat × Nat :=
  if b = 0 then (2 ^ 64 - 1, a.toNat) else (a.toNat / b.toNat, a.toNat % b.toNat)

/-- A truth value as a dword. -/
def boolWord (p : Bool) : Word := if p then 1 else 0

/-- The shift amount of R115: b[5:0]. -/
def shamt (b : Word) : Nat := b.toNat % 64

/-- The bytes of a dword in reverse order (R115). -/
def bswapWord (a : Word) : Word := BitVec.ofNat 64 (leNat (leBytes 8 a.toNat).reverse)

/-- ADD (R115). -/
def execAdd (d a b : Reg) (s : State) : Out := alu (fun x y => x + y) d a b s
/-- SUB (R115). -/
def execSub (d a b : Reg) (s : State) : Out := alu (fun x y => x - y) d a b s
/-- AND (R115). -/
def execAnd (d a b : Reg) (s : State) : Out := alu (fun x y => x &&& y) d a b s
/-- OR (R115). -/
def execOr (d a b : Reg) (s : State) : Out := alu (fun x y => x ||| y) d a b s
/-- XOR (R115). -/
def execXor (d a b : Reg) (s : State) : Out := alu (fun x y => x ^^^ y) d a b s
/-- SLL (R115). -/
def execSll (d a b : Reg) (s : State) : Out := alu (fun x y => x <<< shamt y) d a b s
/-- SRL (R115). -/
def execSrl (d a b : Reg) (s : State) : Out := alu (fun x y => x >>> shamt y) d a b s
/-- SRA (R115). -/
def execSra (d a b : Reg) (s : State) : Out := alu (fun x y => x.sshiftRight (shamt y)) d a b s
/-- MUL (R115). -/
def execMul (d a b : Reg) (s : State) : Out := alu (fun x y => wordOf (mulS x y)) d a b s
/-- MULH_S (R115). -/
def execMulhS (d a b : Reg) (s : State) : Out := alu (fun x y => wordOf (mulS x y / 2 ^ 64)) d a b s
/-- MULH_N (R115). -/
def execMulhN (d a b : Reg) (s : State) : Out := alu (fun x y => BitVec.ofNat 64 (x.toNat * y.toNat / 2 ^ 64)) d a b s
/-- DIV_S (R116). -/
def execDivS (d a b : Reg) (s : State) : Out := alu (fun x y => wordOf (divRemS x y).1) d a b s
/-- DIV_N (R116). -/
def execDivN (d a b : Reg) (s : State) : Out := alu (fun x y => BitVec.ofNat 64 (divRemN x y).1) d a b s
/-- REM_S (R116). -/
def execRemS (d a b : Reg) (s : State) : Out := alu (fun x y => wordOf (divRemS x y).2) d a b s
/-- REM_N (R116). -/
def execRemN (d a b : Reg) (s : State) : Out := alu (fun x y => BitVec.ofNat 64 (divRemN x y).2) d a b s
/-- SLT_S (R115). -/
def execSltS (d a b : Reg) (s : State) : Out := alu (fun x y => boolWord (x.toInt < y.toInt)) d a b s
/-- SLT_N (R115). -/
def execSltN (d a b : Reg) (s : State) : Out := alu (fun x y => boolWord (x.toNat < y.toNat)) d a b s
/-- MIN_S (R115). -/
def execMinS (d a b : Reg) (s : State) : Out := alu (fun x y => if x.toInt ≤ y.toInt then x else y) d a b s
/-- MIN_N (R115). -/
def execMinN (d a b : Reg) (s : State) : Out := alu (fun x y => if x.toNat ≤ y.toNat then x else y) d a b s
/-- MAX_S (R115). -/
def execMaxS (d a b : Reg) (s : State) : Out := alu (fun x y => if x.toInt ≤ y.toInt then y else x) d a b s
/-- MAX_N (R115). -/
def execMaxN (d a b : Reg) (s : State) : Out := alu (fun x y => if x.toNat ≤ y.toNat then y else x) d a b s
/-- CLZ (R115). -/
def execClz (d a : Reg) (s : State) : Out := aluI (fun x => BitVec.ofNat 64 (clzN 64 x.toNat)) d a s
/-- CTZ (R115). -/
def execCtz (d a : Reg) (s : State) : Out := aluI (fun x => BitVec.ofNat 64 (ctzN 64 x.toNat)) d a s
/-- POP (R115). -/
def execPop (d a : Reg) (s : State) : Out := aluI (fun x => BitVec.ofNat 64 (popN 64 x.toNat)) d a s
/-- BSWAP (R115). -/
def execBswap (d a : Reg) (s : State) : Out := aluI bswapWord d a s
/-- ADDI (R117). -/
def execAddi (d a : Reg) (imm : BitVec 16) (s : State) : Out := aluI (fun x => x + imm.signExtend 64) d a s
/-- ANDI (R117). -/
def execAndi (d a : Reg) (imm : BitVec 16) (s : State) : Out := aluI (fun x => x &&& imm.zeroExtend 64) d a s
/-- ORI (R117). -/
def execOri (d a : Reg) (imm : BitVec 16) (s : State) : Out := aluI (fun x => x ||| imm.zeroExtend 64) d a s
/-- XORI (R117). -/
def execXori (d a : Reg) (imm : BitVec 16) (s : State) : Out := aluI (fun x => x ^^^ imm.zeroExtend 64) d a s
/-- SLTI_S (R117). -/
def execSltiS (d a : Reg) (imm : BitVec 16) (s : State) : Out := aluI (fun x => boolWord (x.toInt < imm.toInt)) d a s
/-- SLLI (R117). -/
def execSlli (d a : Reg) (n : BitVec 6) (s : State) : Out := aluI (fun x => x <<< n.toNat) d a s
/-- SRLI (R117). -/
def execSrli (d a : Reg) (n : BitVec 6) (s : State) : Out := aluI (fun x => x >>> n.toNat) d a s
/-- SRAI (R117). -/
def execSrai (d a : Reg) (n : BitVec 6) (s : State) : Out := aluI (fun x => x.sshiftRight n.toNat) d a s
/-- LUI (R118). -/
def execLui (d : Reg) (disp : BitVec 21) (s : State) : Out :=
  ctl true false (fun t _ s => setD t d (disp.signExtend 64 <<< 16) s) s
/-- ADDPC (R118): PC is the address of the word itself. -/
def execAddpc (d : Reg) (disp : BitVec 21) (s : State) : Out :=
  ctl true false (fun t th s => setD t d (th.pc + disp.signExtend 64 <<< 2) s) s

end Sys2Proof.Machine
end

