-- ==== Sys2Proof/Machine/Control.lean ====
section
/-! DEFINITION. Branches and jumps, major opcodes 0x0A to 0x0C (R119, R120). -/

namespace Sys2Proof.Machine

/-- A branch (R119). -/
def branch (p : Word → Word → Bool) (a b : Reg) (disp : BitVec 13) (s : State) : Out :=
  ctl true false (fun _ th s =>
    if p (th.getX a) (th.getX b) then .jump s (th.pc + disp.signExtend 64 <<< 2) else .done s) s

/-- BEQ (R119). -/
def execBeq (a b : Reg) (disp : BitVec 13) (s : State) : Out := branch (fun x y => x == y) a b disp s
/-- BNE (R119). -/
def execBne (a b : Reg) (disp : BitVec 13) (s : State) : Out := branch (fun x y => x != y) a b disp s
/-- BLT_S (R119). -/
def execBltS (a b : Reg) (disp : BitVec 13) (s : State) : Out := branch (fun x y => x.toInt < y.toInt) a b disp s
/-- BGE_S (R119). -/
def execBgeS (a b : Reg) (disp : BitVec 13) (s : State) : Out := branch (fun x y => y.toInt ≤ x.toInt) a b disp s
/-- BLT_N (R119). -/
def execBltN (a b : Reg) (disp : BitVec 13) (s : State) : Out := branch (fun x y => x.toNat < y.toNat) a b disp s
/-- BGE_N (R119). -/
def execBgeN (a b : Reg) (disp : BitVec 13) (s : State) : Out := branch (fun x y => y.toNat ≤ x.toNat) a b disp s

/-- JAL (R120). -/
def execJal (d : Reg) (disp : BitVec 21) (s : State) : Out :=
  ctl true false (fun t th s =>
    .jump (s.modThread t fun q => q.setX d (th.pc + 4)) (th.pc + disp.signExtend 64 <<< 2)) s

/-- JALR (R120): x[a] is read before xd is written; a bad target leaves xd unwritten. -/
def execJalr (d a : Reg) (imm : BitVec 16) (s : State) : Out :=
  ctl true false (fun t th s =>
    let target := th.getX a + imm.signExtend 64
    if target.toNat % 4 ≠ 0 then .fault s (th.flt .misalign target.toNat)
    else if !canonical target.toNat then .fault s (th.flt .pageflt target.toNat)
    else .jump (s.modThread t fun q => q.setX d (th.pc + 4)) target) s

end Sys2Proof.Machine
end

