-- ==== Sys2Proof/Machine/Csr.lean ====
section
/-! DEFINITION. Control and status registers (R23, R60 to R65, R121, R133, R250), major opcode 0x0D, and the two writes of vector
configuration they share with 0x13: VGRP (R73, R133) and the tags (R134). -/

namespace Sys2Proof.Machine

/-- The tags of 16 registers from `b` as VTAGLO and VTAGHI hold them (R63). -/
def Slice.vtag (sl : Slice) (b : Nat) : Nat := sumL ((List.range 16).map fun i => (sl.reg (b + i)).tag.code * 16 ^ i)

/-- MFORM (R63). -/
def Slice.mform (sl : Slice) : Nat := sumL ((List.range 7).map fun i => (sl.mask (i + 1)).list.toNat * 2 ^ (i + 1))

/-- VGRP takes a value; mask bits at or above the new VLMAX are lost (R73). -/
def Slice.setVgrp (sl : Slice) (w ew grp : Nat) : Slice :=
  { sl with ew := ew, grp := grp, m := mapVec (fun k => { k with set := k.set.filter (· < vlmaxOf w ew grp) }) sl.m }

/-- PLACE of a handler thread: die and cluster as its partition numbers them (R23, R367). -/
def State.placeOf (s : State) (p c : Nat) : Nat :=
  let dies := (List.range 8).filter fun d => (List.range 16).any fun k => s.clusterIn p (d * 16 + k)
  let die := (dies.filter (· < dieOf c)).length
  let cl := ((List.range 16).filter fun k => s.clusterIn p (dieOf c * 16 + k) && decide (k < c % 16)).length
  die * 16 + cl

/-- The CSRs of R327, which need the row's own contents in the slices. -/
def csrVec (n : Nat) : Bool := (0x800 ≤ n && n ≤ 0x808) || (0x820 ≤ n && n ≤ 0x822)

/-- The numbers R23 and R60 name. -/
def csrKnown (n : Nat) : Bool :=
  (0x800 ≤ n && n ≤ 0x80B) || (0x810 ≤ n && n ≤ 0x813) || (0x820 ≤ n && n ≤ 0x822) || (0x830 ≤ n && n ≤ 0x834) ||
  n == 0x840 || n == 0x841 || (0xF00 ≤ n && n ≤ 0xF02)

/-- The number is one a handler thread may name (R23, R310). -/
def csrHandler (n : Nat) : Bool := n == 0x840 || n == 0x841 || (0xF00 ≤ n && n ≤ 0xF02)

/-- The value of a CSR of a row (R63, R65). -/
def State.csrRow (s : State) (r : Row) (n : Nat) : Nat :=
  let sl := s.slice r
  match n with
  | 0x800 => sl.vl
  | 0x801 => sl.vtag 0
  | 0x802 => sl.vtag 16
  | 0x803 => sl.ew * 4 + sl.grp
  | 0x804 => r.vreglen
  | 0x805 => s.vlmax r
  | 0x806 => sl.vestart
  | 0x807 => sl.vdirty.toNat
  | 0x808 => sl.mform
  | 0x809 => r.vvalid.toNat * 2 ^ 32 + r.owner
  | 0x80A => (s.stripOf r).bits
  | 0x80B => (s.part r.part).grant
  | 0x810 => r.vxrm
  | 0x811 => r.vsat.toNat
  | 0x812 => r.frm
  | 0x813 => r.fflags
  | 0x820 => r.zp.toNat * 4 + r.band.toNat * 2 + r.mxon.toNat
  | 0x821 => r.mxrow
  | 0x822 => r.mxk
  | 0x830 => r.cls.code
  | 0x831 => r.nregCode * 256 + r.roleIx
  | 0x832 => r.team
  | 0x833 => r.rowid
  | 0x834 => r.starve
  | 0xF01 => r.place.toNat
  | _ => 0

/-- The value of a CSR as a thread reads it. -/
def State.csrGet (s : State) (t : Tid) (th : Thread) (n : Nat) : Nat :=
  if n = 0x840 then s.clock.et
  else if n = 0x841 then th.gwct
  else if n = 0xF00 then Config.dvid.toNat
  else if n = 0xF02 then (s.cluster (s.clusterOf t)).lmap.toNat
  else match t with
    | .ctl r => (match s.row? r with
        | some q => s.csrRow q n
        | none => 0)
    | _ => if n = 0xF01 then s.placeOf (s.partOf t) (s.clusterOf t) else 0

/-- Registers of 16 from `b` whose tag a VTAG value would change, with the new code. -/
def Slice.tagChanges (sl : Slice) (b v : Nat) : List (Nat × Nat) :=
  ((List.range 16).map fun i => (b + i, bits v (4 * i) 4)).filter fun p => (sl.reg p.1).tag.code != p.2

/-- A write of VTAGLO or VTAGHI (R61, R121, R134, R250). Only codes that change a tag are tested: code 8 written over a tag of 8 passes, and a
register at or above the declared count takes its tag without a fault (DESIGN CHOICE, log 66). -/
def State.writeTags (s : State) (r : Row) (b v : Nat) : Except Code State :=
  let sl := s.slice r
  let ch := sl.tagChanges b v
  if r.threadLive then .error .threadlive
  else if ch.any fun p => match Tag.ofCode p.2 with
      | some t => !t.writable
      | none => true
    then .error .illop
  else if r.mxon && ch.any fun p => 15 ≤ p.1 then .error .illop
  else .ok (s.modSlice r fun sl => ch.foldl (fun sl p => sl.setTag p.1 ((Tag.ofCode p.2).getD .none)) sl)

/-- A write of VGRP (R61, R133, R250). -/
def State.writeVgrp (s : State) (r : Row) (ew grp : Nat) : Except Code State :=
  let sl := s.slice r
  if r.threadLive then .error .threadlive
  else if r.mxon && (ew != sl.ew || grp != sl.grp) then .error .illop
  else if sl.strip.opn && decide (vlmaxOf r.w ew grp < sl.vl) then .error .illop
  else .ok (s.modSlice r fun sl => sl.setVgrp r.w ew grp)

/-- A write of a row's CSR: `ones` are the bits a W1C field takes as written ones (R3, R61, R121). -/
def State.csrPut (s : State) (r : Row) (n v ones : Nat) : Except Code State :=
  let upd (f : Row → Row) : Except Code State := .ok (s.modRow r.id f)
  match n with
  | 0x801 => s.writeTags r 0 v
  | 0x802 => s.writeTags r 16 v
  | 0x803 => s.writeVgrp r (bits v 2 2) (bits v 0 2)
  | 0x806 => .ok (s.modSlice r fun sl => { sl with vestart := v % 2 ^ 15 })
  | 0x807 => .ok (s.modSlice r fun sl => { sl with vdirty := sl.vdirty &&& ~~~(BitVec.ofNat 32 ones) })
  | 0x810 => upd fun q => { q with vxrm := v % 4 }
  | 0x811 => upd fun q => { q with vsat := bit v 0 }
  | 0x812 => if 5 ≤ v % 8 then .error .illop else upd fun q => { q with frm := v % 8 }
  | 0x813 => upd fun q => { q with fflags := v % 32 }
  | 0x821 => upd fun q => { q with mxrow := v % 64 }
  | _ => .ok s

/-- A matrix operation of the row has not completed (R250): one that has stopped completes when its record is filed (R216), so one whose
record waits for a place in the fault queue is still outstanding (R308). -/
def State.matrixBusy (s : State) (row : Nat) : Bool :=
  s.ops.any fun o => o.row == row && o.kind.isMatrix && (!o.stopped || s.cave.heldOps.any fun q => q.op == some o.id)

/-- CSRs that no word of a block writes: a read of one need not wait for blocks (R31). -/
def csrAhead (n : Nat) : Bool :=
  n == 0x800 || (0x803 ≤ n && n ≤ 0x805) || n == 0x809 || n == 0x80B || n == 0x810 || n == 0x812 || (0x830 ≤ n && n ≤ 0x834) ||
  n == 0x840 || (0xF00 ≤ n && n ≤ 0xF02)

/-- A load, store or atomic of the row's vector-fetched blocks has not completed (R62). -/
def State.blockOpsOut (s : State) (row : Nat) : Bool :=
  s.ops.any fun o => o.row == row && o.vp.isNone && match o.kind with
    | .vpld .. | .vpst _ | .vpamo .. => true
    | _ => false

/-- A csr word (R121): `rd` names the register a read goes to; otherwise `new old` is the value and `ones` the bits a W1C field
takes as ones. A handler thread may name ET and GWCTMAX and the CSRs of R23 only (R310). -/
def csrWord (n : Nat) (rd : Option Reg) (new : Thread → Nat → Nat) (ones : Thread → Nat) (s : State) : Out :=
  ctl (rd.isSome && csrAhead n) false (fun t th s =>
    if !csrKnown n then .fault s (th.flt .illop)
    else if n = 0x809 ∧ rd.isNone then .fault s (th.flt .priv)
    else
      match t with
      | .ctl row =>
        (match s.row? row with
        | none => .ended s
        | some r =>
          if csrVec n && !r.vvalid then .fault s (th.flt .vown)
          else if (n = 0x813 ∨ n = 0x821 ∨ n = 0x822) ∧ s.matrixBusy row = true then .stall s
          else if (n = 0x807 ∨ n = 0x811 ∨ n = 0x813) ∧ s.blockOpsOut row = true then .stall s
          else
            match rd with
            | some d => setD t d (BitVec.ofNat 64 (s.csrGet t th n)) s
            | none =>
              match s.csrPut r n (new th (s.csrGet t th n)) (ones th) with
              | .ok s => .done s
              | .error c => .fault s (th.flt c))
      | _ =>
        if !csrHandler n then .fault s (th.flt .illop)
        else match rd with
          | some d => setD t d (BitVec.ofNat 64 (s.csrGet t th n)) s
          | none => .done s) s

/-- CSRR (R121). -/
def execCsrr (d : Reg) (csr : BitVec 14) (s : State) : Out := csrWord csr.toNat (some d) (fun _ o => o) (fun _ => 0) s
/-- CSRW (R121). -/
def execCsrw (csr : BitVec 14) (a : Reg) (s : State) : Out :=
  csrWord csr.toNat none (fun th _ => (th.getX a).toNat) (fun th => (th.getX a).toNat) s
/-- CSRS (R121). -/
def execCsrs (csr : BitVec 14) (a : Reg) (s : State) : Out :=
  csrWord csr.toNat none (fun th o => o ||| (th.getX a).toNat) (fun th => (th.getX a).toNat) s
/-- CSRC (R121): a W1C field is unchanged. -/
def execCsrc (csr : BitVec 14) (a : Reg) (s : State) : Out :=
  csrWord csr.toNat none (fun th o => o &&& (2 ^ 64 - 1 - (th.getX a).toNat)) (fun _ => 0) s

end Sys2Proof.Machine
end

