-- ==== Sys2Proof/Machine/Sys.lean ====
section
/-! DEFINITION. System instructions, major opcode 0x0E (R122 to R124). -/

namespace Sys2Proof.Machine

/-- ecall and ebreak (R122): a restartable strip is closed first; then the exception, with RESUME = PC + 4. -/
def trap (c : Code) (s : State) : Out :=
  ctl false false (fun t th s =>
    let fi : FInfo := { th.flt c with resume := some (th.pc + 4) }
    match t with
    | .ctl row =>
      (match s.row? row with
       | none => .ended s
       | some r =>
         let strip := s.stripOf r
         if strip.opn && !strip.nr then
           if s.stripBusy r then .stall s else .fault (s.closeStrip row) fi
         else .fault s fi)
    | _ => .fault s fi) s

/-- ECALL (R122). -/
def execEcall (s : State) : Out := trap .ecall s
/-- EBREAK (R122). -/
def execEbreak (s : State) : Out := trap .brk s

/-- YIELD (R123): the row ranks last for its next issue. -/
def execYield (s : State) : Out :=
  ctl true false (fun t _ s =>
    match t with
    | .ctl row => .done (s.modRow row fun r => { r with yielded := true })
    | _ => .done s) s

/-- Every operation the row's threads have issued has completed (R124). -/
def State.rowQuiet (s : State) (r : Row) : Bool :=
  !(s.ops.any fun o => o.row == r.id) && r.cf.all (· == 0) && r.cnt.all (· == 0) &&
  !(s.mem.writes.any fun w => tidRow w.thread == some r.id)

/-- HALT (R114, R124): an open strip is closed, the row waits for its operations, and ends. -/
def execHalt (s : State) : Out :=
  ctl false false (fun t th s =>
    match t with
    | .ctl row =>
      (match s.row? row with
       | none => .ended s
       | some r =>
         if r.threadLive then .fault s (th.flt .threadlive)
         else if s.stripBusy r then .stall s
         else
           let s := if (s.stripOf r).opn then s.closeStrip row else s
           if s.rowQuiet r then .ended (s.endRow row false) else .stall s)
    | _ => .fault s (th.flt .illop)) s

end Sys2Proof.Machine
end

