-- ==== Sys2Proof/Machine/LoadStore.lean ====
section
/-! DEFINITION. Scalar loads and stores, major opcodes 0x0F and 0x10 (R125, R126). -/

namespace Sys2Proof.Machine

/-- The address of a scalar access (R125). -/
def effAddr (th : Thread) (a : Reg) (disp : BitVec 13) : Nat := (th.getX a + disp.signExtend 64).toNat

/-- A scalar load of `n` bytes (R125): `ext` makes the register's value of them. A load into x0 performs its access. -/
def loadWord (n : Nat) (ext : Nat → Word) (d a : Reg) (disp : BitVec 13) (s : State) : Out :=
  ctl s.blocksQuiet false (fun t th s =>
    let ea := effAddr th a disp
    if ea % n ≠ 0 then .fault s (th.flt .misalign ea)
    else
      match s.scalarLoad t ea n with
      | .error f => .fault s (th.aflt f)
      | .ok (bs, s) => setD t d (ext (leNat bs)) s) s

/-- A scalar store of the low `n` bytes of x[d] (R126): it sets STRIP.NR with cause SCALAR. -/
def storeWord (n : Nat) (d a : Reg) (disp : BitVec 13) (s : State) : Out :=
  ctl false false (fun t th s =>
    let ea := effAddr th a disp
    if ea % n ≠ 0 then .fault s (th.flt .misalign ea)
    else
      match s.scalarStore t ea (leBytes n (th.getX d).toNat) with
      | .error f => .fault s (th.aflt f)
      | .ok s => .done (s.scalarNr t)) s

/-- Sign extension of the low `n` bits to a dword. -/
def sextW (n v : Nat) : Word := wordOf (sextI v n)

/-- LD_BS (R125). -/
def execLdBs (d a : Reg) (disp : BitVec 13) (s : State) : Out := loadWord 1 (sextW 8) d a disp s
/-- LD_BN (R125). -/
def execLdBn (d a : Reg) (disp : BitVec 13) (s : State) : Out := loadWord 1 (BitVec.ofNat 64) d a disp s
/-- LD_HS (R125). -/
def execLdHs (d a : Reg) (disp : BitVec 13) (s : State) : Out := loadWord 2 (sextW 16) d a disp s
/-- LD_HN (R125). -/
def execLdHn (d a : Reg) (disp : BitVec 13) (s : State) : Out := loadWord 2 (BitVec.ofNat 64) d a disp s
/-- LD_WS (R125). -/
def execLdWs (d a : Reg) (disp : BitVec 13) (s : State) : Out := loadWord 4 (sextW 32) d a disp s
/-- LD_WN (R125). -/
def execLdWn (d a : Reg) (disp : BitVec 13) (s : State) : Out := loadWord 4 (BitVec.ofNat 64) d a disp s
/-- LD_D (R125). -/
def execLdD (d a : Reg) (disp : BitVec 13) (s : State) : Out := loadWord 8 (BitVec.ofNat 64) d a disp s
/-- ST_B (R126). -/
def execStB (d a : Reg) (disp : BitVec 13) (s : State) : Out := storeWord 1 d a disp s
/-- ST_H (R126). -/
def execStH (d a : Reg) (disp : BitVec 13) (s : State) : Out := storeWord 2 d a disp s
/-- ST_W (R126). -/
def execStW (d a : Reg) (disp : BitVec 13) (s : State) : Out := storeWord 4 d a disp s
/-- ST_D (R126). -/
def execStD (d a : Reg) (disp : BitVec 13) (s : State) : Out := storeWord 8 d a disp s

end Sys2Proof.Machine
end

