-- ==== Sys2Proof/Machine/Amo.lean ====
section
/-! DEFINITION. Scalar atomics, major opcode 0x11 (R127, R128, R235). -/

namespace Sys2Proof.Machine

/-- An atomic (R127, R128): a release half first waits as `fence.rel` does, an acquire half for a remote atomic before it, the one access
that returns its value later than its word (R224, R235). -/
def amoWord (op : AmoOp) (d a b : Reg) (sc : Scope) (od : Order) (word : Bool) (s : State) : Out :=
  ctl false false (fun t th s =>
    let ea := (th.getX a).toNat
    let w := if word then 32 else 64
    if sc = .vp then .fault s (th.flt .illop)
    else if ea % (w / 8) ≠ 0 then .fault s (th.flt .misalign ea)
    else if ordRel od && !s.releaseOk t sc then .stall (s.setWait t (some (.fence sc)))
    else if ordAcq od && s.ramoOut t then .stall s
    else
      match s.amo t op w ea ((th.getX b).toNat % 2 ^ w) ((th.getX d).toNat % 2 ^ w) with
      | .error f => s.accessFault t ea (w / 8) true (th.aflt f)
      | .ok (old, s) => setD t d (sextW w old) (s.scalarNr t)) s

/-- AMO_ADD (R127). -/
def execAmoAdd (d a b : Reg) (sc : Scope) (od : Order) (word : Bool) (s : State) : Out := amoWord .add d a b sc od word s
/-- AMO_AND (R127). -/
def execAmoAnd (d a b : Reg) (sc : Scope) (od : Order) (word : Bool) (s : State) : Out := amoWord .and d a b sc od word s
/-- AMO_OR (R127). -/
def execAmoOr (d a b : Reg) (sc : Scope) (od : Order) (word : Bool) (s : State) : Out := amoWord .or d a b sc od word s
/-- AMO_XOR (R127). -/
def execAmoXor (d a b : Reg) (sc : Scope) (od : Order) (word : Bool) (s : State) : Out := amoWord .xor d a b sc od word s
/-- AMO_MINS (R127). -/
def execAmoMinS (d a b : Reg) (sc : Scope) (od : Order) (word : Bool) (s : State) : Out := amoWord .minS d a b sc od word s
/-- AMO_MINN (R127). -/
def execAmoMinN (d a b : Reg) (sc : Scope) (od : Order) (word : Bool) (s : State) : Out := amoWord .minN d a b sc od word s
/-- AMO_MAXS (R127). -/
def execAmoMaxS (d a b : Reg) (sc : Scope) (od : Order) (word : Bool) (s : State) : Out := amoWord .maxS d a b sc od word s
/-- AMO_MAXN (R127). -/
def execAmoMaxN (d a b : Reg) (sc : Scope) (od : Order) (word : Bool) (s : State) : Out := amoWord .maxN d a b sc od word s
/-- AMO_SWAP (R127). -/
def execAmoSwap (d a b : Reg) (sc : Scope) (od : Order) (word : Bool) (s : State) : Out := amoWord .swap d a b sc od word s
/-- AMO_CAS (R127). -/
def execAmoCas (d a b : Reg) (sc : Scope) (od : Order) (word : Bool) (s : State) : Out := amoWord .cas d a b sc od word s
/-- AMO_FADD (R127): word width only (R128). -/
def execAmoFadd (d a b : Reg) (sc : Scope) (od : Order) (s : State) : Out := amoWord .fadd d a b sc od true s

end Sys2Proof.Machine
end

