-- ==== Sys2Proof/Machine/Fence.lean ====
section
/-! DEFINITION. Fences, major opcode 0x12 (R129, R130, R234). -/

namespace Sys2Proof.Machine

/-- A release fence (R129, R234): the thread waits until its stores have returned their GWCT and, at scope die and wider, ET has
passed GWCTMAX. In the control stream scope vp is ILLOP; in a thread block the fence acts for the VP. -/
def fenceWord (rel : Bool) (sc : Scope) (s : State) : Out :=
  let go (t : Tid) (s : State) : CRes :=
    if rel && !s.releaseOk t sc then .stall (s.setWait t (some (.fence sc)))
    else if s.ramoOut t then .stall s
    else .done s
  ctlOrVp false false (fun t th s => if sc = .vp then .fault s (th.flt .illop) else go t s)
    (fun r e _ _ s => go (.vp r.id e) s) s

/-- FENCE_ACQ (R129): later loads and atomics of the thread perform after earlier ones have returned their values; a thread issues
in order, and only a remote atomic returns its value later (R224). -/
def execFenceAcq (sc : Scope) (s : State) : Out := fenceWord false sc s
/-- FENCE_REL (R129, R234). -/
def execFenceRel (sc : Scope) (s : State) : Out := fenceWord true sc s
/-- FENCE_AR (R129). -/
def execFenceAr (sc : Scope) (s : State) : Out := fenceWord true sc s

/-- A place lies in an instruction scratchpad. -/
def inSpad (k : Nat) : Bool := 2 ^ 53 ≤ k && k < 2 ^ 54

/-- FENCE_OV (R114, R130): it waits for the thread's own writes into the scratchpad, and then the fetched words and the overlay
binding are taken afresh. -/
def execFenceOv (s : State) : Out :=
  ctl false false (fun t th s =>
    let live := match t with
      | .ctl row => ((s.row? row).map Row.threadLive).getD false
      | _ => false
    if live then .fault s (th.flt .threadlive)
    else if s.mem.writes.any fun w => w.thread == t && w.items.any fun i => (itemLocs i).any fun l => inSpad l.key then .stall s
    else .done (s.rebind t)) s

end Sys2Proof.Machine
end

