-- ==== Sys2Proof/Machine/Strip.lean ====
section
/-! DEFINITION. Strips and vector configuration, major opcode 0x13 (R35 to R38, R131 to R136). -/

namespace Sys2Proof.Machine

/-- The granted length (R38). -/
def grantLen (request vlmax w g : Nat) : Nat := min (min request vlmax) (w * max 1 (vlmax / w * g / 16))

/-- The length a row is granted for a request. -/
def State.grant (s : State) (r : Row) (request : Nat) : Nat := grantLen request (s.vlmax r) r.w (s.part r.part).grant

/-- Close the open strip as R131 does, or say that its operations are not yet fault-free. A row to be pre-empted stops at this boundary,
and the instruction executes again when it returns (R326). -/
def State.closing (s : State) (r : Row) (k : State → CRes) : CRes :=
  if s.stripBusy r then .stall s
  else if (s.slice r).strip.opn then (if r.preempt.isSome then .stall (s.closeStrip r.id) else k (s.closeStrip r.id))
  else k s

/-- SETVL (R131): the rind records x[d] as it stood before. -/
def execSetvl (d a : Reg) (s : State) : Out :=
  ctlRow false true (fun r th s =>
    if r.threadLive then .fault s (th.flt .threadlive)
    else s.closing r fun s =>
      let vl := s.grant r (th.getX a).toNat
      setD (.ctl r.id) d (BitVec.ofNat 64 vl) (s.openStrip r.id vl (th.pc + 4))) s

/-- The wait of a `setvlw` is legal (R275, R276): publisher class 2 takes the outside-agent column. -/
def wmWaitOk (own : Cls) (pub : PubCls) : Bool :=
  match pub with
  | .conc => classWaitOk own .conc true
  | .par => classWaitOk own .par true
  | .outside => true

/-- SETVLW (R132, R219): the grant, the close, and the stall until the published value reaches CP + VL; the release is
SETVLW_RELEASE. The watermark is read at its home. -/
def execSetvlw (d a : Reg) (w : Fin 4) (s : State) : Out :=
  ctlRow false true (fun r th s =>
    if r.threadLive then .fault s (th.flt .threadlive)
    else
      match r.wm.getD w none with
      | none => .fault s (th.flt .illop)
      | some b => if s.ramoOut (.ctl r.id) then .stall s else s.closing r fun s =>
        let vl := s.grant r (th.getX a).toNat
        match s.homeLoad (.ctl r.id) b.addr.toNat 8 false true with
        | .error f => .fault s (th.aflt f)
        | .ok (_, bs, s) =>
          if b.cp.toNat + vl ≤ leNat bs then
            let s := s.modRow r.id fun q => { q with wm := q.wm.set w (some { b with cp := b.cp + BitVec.ofNat 64 vl }) }
            setD (.ctl r.id) d (BitVec.ofNat 64 vl) (s.openStrip r.id vl (th.pc + 4))
          else if wmWaitOk r.cls b.cls then .stall (s.setWait (.ctl r.id) (some (.setvlw d vl w)))
          else .fault s (th.flt .illwait)) s

/-- VCFG (R44, R133). -/
def execVcfg (d : Reg) (ew g : Fin 4) (s : State) : Out :=
  ctlRow false true (fun r th s =>
    match s.writeVgrp r ew.val g.val with
    | .error c => .fault s (th.flt c)
    | .ok s => setD (.ctl r.id) d (BitVec.ofNat 64 (vlmaxOf r.w ew g)) s) s

/-- The register is below the declared count (R58). -/
def Row.declares (r : Row) (v : Reg) : Bool := decide (v.val < nregOf r.nregCode)

/-- VTAGW (R44, R58, R134). -/
def execVtagw (d : Reg) (tag : Tag) (s : State) : Out :=
  ctlRow false true (fun r th s =>
    if !r.declares d || !tag.writable then .fault s (th.flt .illop)
    else if r.threadLive then .fault s (th.flt .threadlive)
    else .done (s.modSlice r fun sl => sl.setTag d tag)) s

/-- VTAGR (R135). -/
def execVtagr (d a : Reg) (s : State) : Out :=
  ctlRow false true (fun r th s =>
    if !r.declares a then .fault s (th.flt .illop)
    else setD (.ctl r.id) d (BitVec.ofNat 64 ((s.slice r).reg a).tag.code) s) s

/-- The destination registers of an outstanding load include register `v` (R135). -/
def OpKind.loads (ew grp : Nat) (v : Nat) : OpKind → Bool
  | .vpld vd t _ _ | .vfg vd _ t _ _ _ | .vpamo vd t _ _ => decide (vd ≤ v) && decide (v < vd + gop ew grp t.width)
  | _ => false

/-- VHWM (R135): it waits for the outstanding loads into va. -/
def execVhwm (d a : Reg) (s : State) : Out :=
  ctlRow false true (fun r th s =>
    let sl := s.slice r
    if !r.declares a then .fault s (th.flt .illop)
    else if s.ops.any fun o => o.row == r.id && o.kind.loads sl.ew sl.grp a then .stall s
    else setD (.ctl r.id) d (BitVec.ofNat 64 (sl.reg a).hwm) s) s

/-- VCOMMIT (R44, R136): with no strip open it has no effect. -/
def execVcommit (s : State) : Out :=
  ctlRow false true (fun r th s =>
    if r.threadLive then .fault s (th.flt .threadlive)
    else s.closing r fun s => .done s) s

end Sys2Proof.Machine
end

