-- ==== Sys2Proof/Machine/PerVp.lean ====
section
/-! DEFINITION. Per-VP memory, major opcode 0x26: vpld, vpst and vpamo (R32 to R34, R189 to R192, R240) and the marker tsetf (R188).
A load's value is fixed and an atomic performed when the word issues, which R192, R227 and R240 leave open; the registers are written
when the operation completes, and are undefined until then (R34). -/

namespace Sys2Proof.Machine

/-- A per-VP access. -/
inductive PvOp where
  | ld
  | st
  | amo (op : AmoOp) (sc : Scope) (od : Order)
deriving DecidableEq, Repr

/-- vd's tags an access allows (R189, R191). -/
def PvOp.tagOk (p : PvOp) (t : Tag) : Bool :=
  match p with
  | .ld | .st => t.isArith
  | .amo op _ _ =>
    (match op with
     | .fadd => t == .f32
     | .swap | .cas => t == .i32 || t == .i64 || t == .f32
     | _ => t == .i32 || t == .i64)

/-- The offsets of R189. A register of offsets whose tag is no integer is TAGMIX, as its elements have no sign to extend (DESIGN CHOICE,
log 74). -/
def LV.offsets (v : LV) (src : Option Src) (acts : List Nat) : Except LErr (List Int × LV) :=
  match src with
  | none => .ok (acts.map fun _ => 0, v)
  | some s => do
    let (o, v) ← v.src s acts
    match o.tag with
    | some t => if t.isInt then .ok (o.vals.map fun x => sextI x t.width, v) else tagmix acts
    | none => .ok (o.vals.map fun x => sextI x 64, v)

/-- The effective addresses (R189): va must be tagged i64. -/
def LV.addrs (v : LV) (va : Reg) (src : Option Src) (acts : List Nat) : Except LErr (List Nat × LV) := do
  let (a, v) ← v.vec va acts
  if a.tag ≠ some .i64 then tagmix acts
  else
    let (o, v) ← v.offsets src acts
    .ok (List.zipWith (fun (x : Nat) (y : Int) => lowBits (x + y) 64) a.vals o, v)

/-- The access faults of the elements, lowest first, with their places (R189, R350, R358, R364). -/
def pvLocs (a : Acc) (n : Nat) (wr obj rd : Bool) : List (Nat × Nat) → State → Except LErr (List (List Loc) × State)
  | [], s => .ok ([], s)
  | (e, ea) :: t, s =>
    if ea % n ≠ 0 then .error (.fault .misalign e ea 0 0)
    else
      match xlateN s a ea n wr obj with
      | .error f => .error (.fault f.code e f.addr1 0 0)
      | .ok (ls, s) =>
        match (if rd then s.poisoned ls else none) with
        | some i => .error (.fault .memerr e (lineVa ea i) 0 0)
        | none =>
          match pvLocs a n wr obj rd t s with
          | .error e => .error e
          | .ok (r, s) => .ok (ls :: r, s)

/-- What the translations of a per-VP access that writes leave where an element faults: D of the pages they reached (R349). -/
def pvSeen (a : Acc) (n : Nat) (obj rd : Bool) : List (Nat × Nat) → State → State
  | [], s => s
  | (_, ea) :: t, s =>
    if ea % n ≠ 0 then s
    else
      match xlateN s a ea n true obj with
      | .error _ => s
      | .ok (ls, s) => if rd && (s.poisoned ls).isSome then s else pvSeen a n obj rd t s

/-- Perform the atomics of one instruction, element by element (R191): the old values. -/
def pvAmos (s : State) (t : Tid) (op : AmoOp) (w : Nat) : List (List Loc × Nat × Nat) → State × List Nat
  | [] => (s, [])
  | (ls, x, y) :: rest =>
    let old := leNat (s.homeBytes (s.partOf t) ls)
    let (v, exp) := if op = .cas then (y, x) else (x, 0)
    let (s, _) := s.homeStore t ls (leBytes (w / 8) (amoNew op w old v exp))
    let (s, olds) := pvAmos s t op w rest
    (s, old :: olds)

/-- Atomics still to be performed by a word: operation, width, places with operand and new value. -/
abbrev Amos := AmoOp × Nat × List (List Loc × Nat × Nat)

/-- What a lane memory word does: the state after translation, the view, the operation it starts, the bytes it stores, and the
atomics it performs. -/
structure MRes where
  s : State
  v : LV
  kind : Option OpKind := none
  items : List WItem := []
  amos : Option Amos := none

/-- The effect of a per-VP access; it starts no operation where no element is active. The owning thread is `t`. -/
def pvRun (p : PvOp) (vd va : Reg) (src : Option Src) (m : MaskReg) (t : Tid) (s : State) (v : LV) : Except LErr MRes := do
  let acts := v.active m
  let v := v.noteMask m
  if acts.isEmpty then .ok { s := s, v := v }
  else
    let (as, v) ← v.addrs va src acts
    let T := (v.sl.reg vd).tag
    if !p.tagOk T then tagmix acts
    else
      v.limits vd T.width acts
      let nvr := vd.val + gop v.sl.ew v.sl.grp T.width
      let cas := match p with | .amo .cas _ _ => true | _ => false
      if cas then if !operandOk v.sl v.nreg nvr T.width then .error (.at .illop (lowest acts)) else pure () else pure ()
      let v ← v.settled
      let n := T.width / 8
      let (wr, obj) := match p with | .ld => (false, false) | .st => (true, false) | .amo .. => (true, true)
      let (ls, s) ← pvLocs (s.acc t) n wr obj (p != .st) (acts.zip as) s
      let old := acts.map fun e => v.sl.elem v.r.w vd T.width e
      let undef (v : LV) : LV :=
        { v with sl := acts.foldl (fun sl e => sl.undefElem v.r.w vd T.width e v.free) v.sl, free := v.free + 1
                 wr := v.wr ++ (acts.map (regOf v.r.w vd T.width)).dedup }
      match p with
      | .ld =>
        let vals := ls.map fun l => leNat (s.homeBytes (s.partOf t) l)
        .ok { s := s.refresh (s.clusterOf t) ls.flatten, v := undef v, kind := some (.vpld vd T v.free (acts.zip vals)) }
      | .st =>
        let items := (ls.zip old).flatMap fun q => (q.1.zip (leBytes n q.2)).map fun k => WItem.byte k.1 0xFF k.2
        .ok { s := s, v := v.noteEls vd T.width acts, kind := some (.vpst acts), items := items }
      | .amo op sc od =>
        if ordRel od && !s.releaseOk t sc then .error .stall
        else if ordAcq od && s.ramoOut t then .error .stall
        else
          let nv := acts.map fun e => if cas then v.sl.elem v.r.w nvr T.width e else 0
          let v := v.noteEls vd T.width acts
          let v := if cas then v.noteEls nvr T.width acts else v
          .ok { s := s, v := undef v, kind := some (.vpamo vd T v.free (acts.map fun e => (e, 0)))
                amos := some (op, T.width, ls.zip (old.zip nv)) }

/-- What a per-VP access that faults leaves of its translations (R349). -/
def pvLeft (p : PvOp) (vd va : Reg) (src : Option Src) (m : MaskReg) (t : Tid) (s : State) (v : LV) : State :=
  let acts := v.active m
  match p, v.addrs va src acts with
  | .ld, _ | _, .error _ => s
  | .st, .ok (as, _) => pvSeen (s.acc t) ((v.sl.reg vd).tag.width / 8) false false (acts.zip as) s
  | .amo .., .ok (as, _) => pvSeen (s.acc t) ((v.sl.reg vd).tag.width / 8) true true (acts.zip as) s

/-- Start an outstanding operation (R32, R140). -/
def State.startOp (s : State) (o : Op) : State :=
  let s := o.flags.foldl (fun s p => s.modFlag p.1 p.2 incAt) s
  let s := match o.cls with
    | some c => s.modRow o.row fun r => { r with cnt := incAt r.cnt c, seqs := incAt r.seqs c }
    | none => s
  { s with ops := s.ops ++ [o] }

/-- An operation as it issues. -/
def Op.new (s : State) (id : Nat) (r : Row) (kind : OpKind) (cls : Option Nat) (pc : Word) : Op :=
  { id := id, row := r.id, part := r.part, cluster := r.cluster, kind := kind, cls := cls
    seq := match cls with | some c => r.seqs.getD c 0 | none => 0
    pc := pc, flags := [], vp := none, f := 0, started := false, landing := none, since := s.clock.et, stopped := false }

/-- Start a lane operation with its travelling writes; the identity it takes. -/
def State.startLaneOp (s : State) (r : Row) (t : Tid) (vp : Option Nat) (flag : Nat) (pc : Word) (kind : OpKind)
    (items : List WItem) : Nat × State :=
  let (id, s) := s.newId
  let o := { Op.new s id r kind none pc with flags := if flag < 12 then [(t, flag)] else [], vp := vp }
  let s := s.startOp o
  if items.isEmpty then (id, s)
  else
    let (w, s) := s.newId
    (id, { s with mem := { s.mem with writes := s.mem.writes ++
      [{ id := w, thread := t, cluster := r.cluster, part := r.part, scalar := false, op := some id, items := items }] } })

/-- A lane memory word as a whole: view and memory, with the operation it starts. -/
abbrev MOp := Tid → State → LV → Except LErr MRes

/-- What a lane memory word that faults leaves in memory (R349). -/
abbrev MSeen := Tid → State → LV → State

/-- The old values of the atomics go to the operation that delivers them. -/
def OpKind.fill (k : OpKind) (olds : List Nat) : OpKind :=
  match k with
  | .vpamo vd t n els => .vpamo vd t n (List.zipWith (fun p x => (p.1, x)) els olds)
  | k => k

/-- Put the view of a memory word back and perform its atomics: the operation to start and the bytes to store. -/
def MRes.settle (q : MRes) (t : Tid) : State × Option OpKind × List WItem :=
  let s := q.s.putLV q.v
  match q.amos with
  | none => (s, q.kind, q.items)
  | some (op, w, l) =>
    let (s, olds) := pvAmos s t op w l
    (s, q.kind.map fun k => k.fill olds, q.items)

/-- A lane memory word behind its register limits (R104). -/
def MOp.limited (i : Instr) (op : MOp) : MOp := fun t s v => do
  v.within i
  op t s v

/-- Run a memory word with the parity check of its reads (R379); the lanes corrected are logged. -/
def MOp.checked (op : MOp) (t : Tid) (s : State) (v : LV) : Except LErr MRes := do
  let q ← op t s v
  let c := v.r.cluster
  let w := { v with els := q.v.els }
  let (_, lanes) ← w.parity (s.cluster c).xorOk v.r.base
  .ok { q with s := q.s.logParity v.r.part c lanes, v := { q.v with sl := q.v.sl.fixParity (w.badReads.map (·.2)) } }

/-- Note an operation of a block under its header's flag or without one (R27, R32). -/
def LaneRun.noteOp (k : LaneRun) (flag id : Nat) : LaneRun :=
  if flag < 12 then { k with flagged := k.flagged ++ [id] } else { k with ops := k.ops ++ [id] }

/-- Put a memory word's result back and start its operation in the oldest block of a row. -/
def MRes.issue (q : MRes) (r : Row) (t : Tid) (fl : Nat) (pc : Word) (k : LaneRun) : State × LaneRun :=
  let (s, kind, items) := q.settle t
  match kind with
  | none => (s, k)
  | some kd =>
    let (id, s) := s.startLaneOp r t none fl pc kd items
    (s, k.noteOp fl id)

/-- A memory word of the oldest vector-fetched block of a row. `flag` is the flag it counts against; `nr` whether it is a cause PERVP of
R36, which its issue sets whether or not it then faults. `vec`: it names vector registers (R327). Operations it issues for the elements
below a fault stay with the block (R33). -/
def memLock (op : MOp) (seen : MSeen) (flag : Header → Nat) (nr vec : Bool) (row : Nat) (s : State) : Out :=
  match s.row? row with
  | none => .refused .noActor
  | some r =>
    match r.blocks with
    | [] => .refused .noActor
    | k :: _ =>
      let fl := flag k.hd
      let t := Tid.ctl row
      let pc := wordAddr k.header k.idx
      if vec && !r.vvalid then .next (s.blockVown r k)
      else if fl < 12 ∧ 15 ≤ s.flagCount t fl then .next s
      else
        let s := s.settle row
        let u := if nr then s.stripNr row 6 else s
        let v := u.lockLV ((u.row? row).getD r) k
        match op.checked t u v with
        | .ok q =>
          let (s, k) := { q with v := { q.v with sl := { q.v.sl with vestart := 0 } } }.issue r t fl pc k
          .next (s.advanceRun row k)
        | .error .stall => .next s
        | .error (.await n upto) => .next (s.wantStream row n upto)
        | .error e =>
          match lowestFault LErr.elem? (fun f => op.checked t u (v.below f)) v.acts.length e with
          | (.fault c f a p w, o) =>
            let held := s.queueFull (dieOf r.cluster) && r.stepping.isNone
            let (s, k) := match (if v.sl.strip.nr && !held then o else none) with
              | some q => q.issue r t fl pc k
              | none => (if held then s else u, k)
            .next ((seen t s v).raiseRow row (runFault k c f a p w))
          | _ => .next s

/-- A memory word of the bundle at the head of the issue list: each member reads the slices as they stand before any of them writes (R149). -/
def memThr (op : MOp) (seen : MSeen) (flag : Header → Nat) (row n : Nat) (s : State) : Out :=
  let sl := ((s.row? row).map s.slice).getD (Slice.fresh 0)
  vpWord (fun r e b m s =>
    let fl := flag b.hd
    let t := Tid.vp row e
    let pc := wordAddr b.header m.idx
    if fl < 12 ∧ 15 ≤ s.flagCount t fl then .stall s
    else
      let s := s.settle row
      let v := { s.thrLV ((s.row? row).getD r) e with sl := sl }
      match op.checked t s v with
      | .ok q =>
        let (s, kind, items) := { q with v := { q.v with sl := Slice.join sl q.v.sl (s.slice r) } }.settle t
        (match kind with
         | none => .done s
         | some kd =>
           let (id, s) := s.startLaneOp r t (some e) fl pc kd items
           .done (if fl < 12 then s else s.modRow row fun q => q.modMember e fun m => { m with ops := m.ops ++ [id] }))
      | .error .stall => .stall s
      | .error (.await n upto) => .stall (s.wantStream row n upto)
      | .error (.fault c _ a _ _) => .fault (seen t s v) { code := c, pc := pc, addr1 := a }) row n s

/-- A lane memory word: for the block or the bundle at the head of the issue list. -/
def memWord (op : MOp) (flag : Header → Nat) (nr vec : Bool) (s : State) (seen : MSeen := fun _ s _ => s) : Out :=
  match s.clock.issue with
  | .lanes row :: _ => memLock op seen flag nr vec row s.popIssue
  | .bundle row n :: _ => memThr op seen flag row n s
  | _ => .refused .noActor

/-- VPLD (R189). -/
def execVpld (vd va : Reg) (src : Src) (m : MaskReg) (s : State) : Out :=
  memWord (MOp.limited (.vpld vd va src m) (pvRun .ld vd va (some src) m)) Header.seta false true s
/-- VPST (R190). -/
def execVpst (vd va : Reg) (src : Src) (m : MaskReg) (s : State) : Out :=
  memWord (MOp.limited (.vpst vd va src m) (pvRun .st vd va (some src) m)) Header.seta true true s
    (pvLeft .st vd va (some src) m)
/-- VPAMO (R191). -/
def execVpamo (vd va : Reg) (op : AmoOp) (sc : Scope) (od : Order) (m : MaskReg) (s : State) : Out :=
  memWord (MOp.limited (.vpamo vd va op sc od m) (pvRun (.amo op sc od) vd va none m)) Header.seta true true s
    (pvLeft (.amo op sc od) vd va none m)

/-- The operations a marker of a party waits for (R188): every one of the row's for a block, its own for a VP. -/
def State.markerOps (s : State) (row : Nat) (vp : Option Nat) : List Nat :=
  (s.ops.filter fun o => o.row == row && (match o.kind with
    | .vpld .. | .vpst _ | .vpamo .. | .marker _ => true
    | _ => false) &&
    (match vp with
     | none => true
     | some e => o.vp == some e || o.flags.any fun p => p.1 == .vp row e)).map (·.id)

/-- TSETF (R188). -/
def execTsetf (n : FlagNo) (s : State) : Out :=
  match s.clock.issue with
  | .lanes row :: _ =>
    let ids := s.markerOps row none
    memWord (fun _ s v => .ok { s := s, v := v, kind := some (.marker ids) }) (fun _ => n.val) false false s
  | .bundle row b :: _ =>
    vpWord (fun r e bd m s =>
      let t := Tid.vp row e
      if 15 ≤ s.flagCount t n.val then .stall s
      else .done (s.startLaneOp r t (some e) n.val (wordAddr bd.header m.idx) (.marker (s.markerOps row (some e))) []).2)
      row b s
  | _ => .refused .noActor

end Sys2Proof.Machine
end

