-- ==== Sys2Proof/Machine/Access.lean ====
section
/-! DEFINITION. Where the elements of a vector or tensor access lie (R193, R195, R207), what their storage bytes mean (R79 to R82,
R194), shape records (R107), and the bytes an access reads and writes (R198 to R201, R237 to R239). -/

namespace Sys2Proof.Machine

/-- Where one element is held: pieces (address, bytes), and the element's first bit within them. -/
structure Spot where
  e : Nat
  field : Nat
  pieces : List (Nat × Nat)
  shift : Nat
deriving DecidableEq, Repr

/-- Bytes of a format's element, for native ones those of the tag (R194). -/
def fmtBytes (f : Fmt) (t : Tag) : Nat := match f with | .native => t.width / 8 | f => f.bits / 8

/-- The spot of element `i` of a run of elements from `base` (R195). -/
def runSpot (f : Fmt) (t : Tag) (base i e : Nat) : Spot :=
  let p (l : List (Nat × Nat)) (s : Nat) : Spot := { e := e, field := 0, pieces := l.map fun q => (q.1 % 2 ^ 64, q.2), shift := s }
  let j := i % 128
  match f with
  | .i4 | .q4l => p [(base + i / 2, 1)] (4 * (i % 2))
  | .b1 => p [(base + i / 8, 1)] (i % 8)
  | .fp4b => (let r := base + i / 128 * 96; p [(r + j / 2, 1), (r + 64 + j / 8, 1), (r + 80, 2)] (4 * (j % 2)))
  | .e4m3b => (let r := base + i / 128 * 136; p [(r + j, 1), (r + 128, 2)] 0)
  | _ => p [(base + i * fmtBytes f t, fmtBytes f t)] 0

/-- The alignment of a run's base (R79, R195, R207). -/
def runAlign : Fmt → Nat
  | .fp4b => 32
  | .e4m3b => 8
  | _ => 1

/-- The value of an element from the bytes of its pieces, with the flags (R80, R81): `cb` is the codebook. -/
def spotValue (f : Fmt) (cb : List Nat) (shift : Nat) (bs : List (List Byte)) : Nat × Nat :=
  let w := bs.map leNat
  let b0 := w.headD 0
  match f with
  | .i4 => widen .i4 (bits b0 shift 4)
  | .q4l => (cb.getD (bits b0 shift 4) 0, 0)
  | .b1 => (bits b0 shift 1, 0)
  | .fp4b => widenBand (decodeE2m1 (bits b0 shift 4)) (some (decodeE3m5 (w.getD 1 0))) (w.getD 2 0)
  | .e4m3b =>
    let (r, fl) := widenBand (fmtE4m3.decode b0) none (w.getD 1 0)
    (r, if fmtE4m3.isSnan b0 then fl ||| fNV else fl)
  | f => widen f b0

/-- The items that store a value of storage bits at a spot's places (R195). -/
def spotItems (f : Fmt) (shift : Nat) (ls : List Loc) (v : Nat) : List WItem :=
  match f with
  | .i4 | .b1 =>
    let n := f.bits
    (ls.take 1).map fun l =>
      .byte l (BitVec.ofNat 8 ((2 ^ n - 1) * 2 ^ shift)) (BitVec.ofNat 8 (v % 2 ^ n * 2 ^ shift))
  | _ => (ls.zip (leBytes ls.length v)).map fun p => .byte p.1 0xFF p.2

/-! Shape records (R107, R207). -/

/-- The number of flat elements (R207). -/
def Shape.count (s : Shape) : Nat := (s.ext.take s.rank).foldl (· * ·) 1

/-- Parse the dwords of a record (R107); none is BADSHAPE. A BASE that is not canonical and an EXT outside 1 to 2^40 of a dimension below RANK
are BADSHAPE too, though R107 lists no fault for them (DESIGN CHOICE, log 67); a remote record's BASE is not checked. -/
def parseShape (d : List Nat) (remote : Bool) : Option Shape :=
  let w1 := d.getD 1 0
  let rank := bits w1 0 3
  let exts := (d.drop 2).take 5
  let strs := ((d.drop 7).take 5).map fun x => sextI x 64
  match Fmt.ofCode (bits w1 8 5) with
  | none => none
  | some f =>
    if f = .native ∨ f = .q4l then none
    else if rank < 1 ∨ 5 < rank then none
    else if bits w1 3 5 ≠ 0 ∨ bits w1 13 51 ≠ 0 then none
    else if (exts.take rank).any fun x => x < 1 || 2 ^ 40 < x then none
    else if 64 < d.getD 12 0 then none
    else if ((d.drop 13).take 3).any (· != 0) then none
    else if (f = .fp4b ∨ f = .e4m3b) ∧ exts.headD 0 % 128 ≠ 0 then none
    else if !remote && !canonical (d.headD 0) then none
    else some { base := d.headD 0, rank := rank, fmt := f, ext := exts.take rank, str := strs.take rank }

/-- The coordinates of flat element `e` (R207). -/
def shapeCoords : List Nat → Nat → List Nat
  | [], _ => []
  | x :: t, e => e % x :: shapeCoords t (e / x)

/-- row_base of flat element `e` (R207). -/
def Shape.rowBase (s : Shape) (e : Nat) : Nat :=
  let c := shapeCoords s.ext e
  let off : Int := (List.zipWith (fun (i : Nat) (st : Int) => (i : Int) * st) (c.drop 1) (s.str.drop 1)).foldl (· + ·) 0
  lowBits (s.base + off) 64

/-- The spot of flat element `e` (R207). -/
def Shape.spot (s : Shape) (e : Nat) : Spot :=
  let b := s.rowBase e
  let i := (shapeCoords s.ext e).headD 0
  if s.fmt.packed then runSpot s.fmt .none b i e
  else { e := e, field := 0, pieces := [(lowBits (b + i * s.str.headD 0) 64, fmtBytes s.fmt .none)], shift := 0 }

/-- row_base is aligned for a record format (R79, R207). -/
def Shape.aligned (s : Shape) (e : Nat) : Bool := s.rowBase e % runAlign s.fmt == 0

/-- The record in a vector register: read in full, tagged i64 (R107). -/
def readShape (sl : Slice) (w : Nat) (v : Reg) (remote : Bool) : Except Code Shape :=
  if (sl.reg v).tag ≠ .i64 then .error .tagmix
  else
    match parseShape ((List.range 16).map fun e => sl.elem w v 64 e) remote with
    | some s => .ok s
    | none => .error .badshape

/-! Bytes. -/

/-- Places of the pieces of a spot. -/
def spotLocs (s : State) (a : Acc) (wr obj : Bool) : List (Nat × Nat) → Except AFault (List (List Loc) × State)
  | [] => .ok ([], s)
  | (va, n) :: t =>
    match xlateN s a va n wr obj with
    | .error f => .error f
    | .ok (ls, s) =>
      match spotLocs s a wr obj t with
      | .error f => .error f
      | .ok (r, s) => .ok (ls :: r, s)

/-- Places of many spots, with the spot of the first fault (R198, R199). -/
def manyLocs (s : State) (a : Acc) (wr obj : Bool) : List Spot → Except (Spot × AFault) (List (List (List Loc)) × State)
  | [] => .ok ([], s)
  | p :: t =>
    match spotLocs s a wr obj p.pieces with
    | .error f => .error (p, f)
    | .ok (ls, s) =>
      match manyLocs s a wr obj t with
      | .error f => .error f
      | .ok (r, s) => .ok (ls :: r, s)

/-- Places of the spots of an instruction, of which `bad` is the lowest misaligned element: the fault of the lowest element that has one (R199). -/
def planLocs (s : State) (a : Acc) (wr obj : Bool) (spots : List Spot) (bad : Option Nat) :
    Except (Spot × AFault) (List (List (List Loc)) × State) :=
  match bad.bind fun e => spots.find? (·.e == e) with
  | none => manyLocs s a wr obj spots
  | some q =>
    match manyLocs s a wr obj (spots.takeWhile fun p => decide (p.e < q.e)) with
    | .error f => .error f
    | .ok _ => .error (q, { code := .misalign, addr1 := (q.pieces.headD (0, 0)).1, addr2 := 0 })

/-- A byte as a strip's own loads see it (R201): the last buffered stores over the byte in memory; a byte of an earlier scatter-add
is undefined. -/
def forward (seed : Nat) (buf : List WItem) (k : Nat) (b : Byte) : Byte :=
  buf.foldl (fun b i => match i with
    | .byte l m v => if l.key = k then (v &&& m) ||| (b &&& ~~~m) else b
    | .add ls _ _ => if ls.any (·.key == k) then Config.freeByte seed k else b) b

/-- A byte read by a vector load of a row (R201, R230, R239). -/
def State.vecByte (s : State) (r : Row) (l : Loc) : Byte := forward s.clock.free r.buf l.key (s.homeByte r.part l)

/-- The first poisoned byte of a spot: the line's address (R358). -/
def State.spotPoison (s : State) (p : Spot) (ls : List (List Loc)) : Option Nat :=
  (p.pieces.zip ls).findSome? fun q => (s.poisoned q.2).map fun i => lineVa q.1.1 i

end Sys2Proof.Machine
end

