-- ==== Sys2Proof/Machine/VMem.lean ====
section
/-! DEFINITION. Vector loads and stores, major opcodes 0x16 and 0x17 (R193 to R207). -/

namespace Sys2Proof.Machine

/-- The view of a control-stream vector instruction. -/
def State.ctlLV (s : State) (r : Row) : LV :=
  let sl := s.slice r
  { r := r, sl := sl, free := s.clock.free, acts := lockActs r sl.vestart sl.vl, lo := sl.vestart, vl := sl.vl, thr := none
    drain := none, x := r.th.x, sb := r.sb, sends := [], rcvd := [], rd := [], wr := [], els := []
    whole := lockActs r sl.vestart sl.vl, pend := none }

/-- The fault of a vector instruction at an element, or at none. -/
def vfault (th : Thread) (c : Code) (f : Option Nat) (a1 : Nat := 0) (a2 : Nat := 0) (field : Nat := 0) : FInfo :=
  { th.flt c a1 a2 with f := f, field := field }

/-- The fault of a lane operand rule at the control thread. -/
def LErr.info (th : Thread) : LErr → FInfo
  | .fault c f a p u => { vfault th c (some f) a with pos := p, unit := u }
  | .stall | .await _ _ => vfault th .illop none

/-- Turn an operand rule's fault into the thread's. -/
def liftL {α : Type} (th : Thread) (x : Except LErr α) : Except FInfo α := x.mapError (LErr.info th)

/-- Put a view back with the parity check of its reads (R379). -/
def putChecked (th : Thread) (s : State) (v : LV) : Except FInfo State :=
  match v.parity (s.cluster v.r.cluster).xorOk v.r.base with
  | .error e => .error (e.info th)
  | .ok (v, lanes) => .ok ((s.putLV v).logParity v.r.part v.r.cluster lanes)

/-- The scalar register a memory word names, as x reads it. -/
def LV.getX (v : LV) (n : Reg) : Nat := if n = 0 then 0 else v.x[n].toNat

/-- How a vector form finds its elements: unit stride, strided, segments, indexed, from a shape record. -/
inductive VMode where
  | unit
  | strided
  | seg
  | indexed
  | tensor
deriving DecidableEq, Repr

/-- What a vector form names: its format, its fields, its elements' spots and the rest of the view. -/
structure VPlan where
  v : LV
  acts : List Nat
  fmt : Fmt
  nf : Nat
  spots : List Spot
  /-- The base the records of a packed format start from is misaligned (R195, R207): the lowest such element. -/
  bad : Option Nat
deriving Repr

/-- The integer-tagged index register (R193): element values, sign-extended. -/
def LV.indices (v : LV) (vi : Reg) (acts : List Nat) : Except LErr (List Int × LV) := do
  let (o, v) ← v.vec vi acts
  let t := o.tag.getD .none
  if !t.isInt then tagmix acts else .ok (o.vals.map fun x => sextI x t.width, v)

/-- The spots of a form (R193). `t` is the tag whose width a native format has; `acts` the elements taken. -/
def vplan (mode : VMode) (fmt : Fmt) (t : Tag) (xb vx : Reg) (v : LV) (acts : List Nat) (th : Thread) : Except FInfo VPlan :=
  let b := v.getX xb
  let s := fmtBytes fmt t
  let one (e va : Nat) : Spot := { e := e, field := 0, pieces := [(va, s)], shift := 0 }
  let f := some (lowest acts)
  match mode with
  | .unit =>
    .ok { v := v, acts := acts, fmt := fmt, nf := 1, spots := acts.map fun e => runSpot fmt t b e e
          bad := if b % runAlign fmt = 0 then none else acts.head? }
  | .strided =>
    let st := sextI (v.getX vx) 64
    .ok { v := v, acts := acts, fmt := fmt, nf := 1, spots := acts.map fun e => one e (lowBits (b + e * st) 64), bad := none }
  | .seg =>
    let nf := vx.val + 1
    .ok { v := v, acts := acts, fmt := fmt, nf := nf, bad := none
          spots := acts.flatMap fun e => (List.range nf).map fun j =>
            { one e ((b + (e * nf + j) * s) % 2 ^ 64) with field := j } }
  | .indexed => do
    let (is, v) ← liftL th (v.indices vx acts)
    .ok { v := v, acts := acts, fmt := fmt, nf := 1, bad := none
          spots := (acts.zip is).map fun p => one p.1 (lowBits (b + p.2) 64) }
  | .tensor =>
    match readShape v.sl v.r.w vx false with
    | .error c => .error (vfault th c f)
    | .ok sh =>
      let acts := acts.filter (· < sh.count)
      .ok { v := v.noteFor (lowest acts) vx 64 (List.range 16), acts := acts, fmt := sh.fmt, nf := 1, spots := acts.map sh.spot
            bad := acts.find? fun e => !sh.aligned e }

/-- The format of a tensor form, where its record is good (R207). -/
def tensorFmt (v : LV) (vr : Reg) : Option Fmt :=
  match readShape v.sl v.r.w vr false with
  | .ok sh => some sh.fmt
  | .error _ => none

/-- The register limits of a vector form (R58, R68, R104 step 5): the data operand of each field, and the register vx names. -/
def vlimits (mode : VMode) (fmt : Fmt) (T : Tag) (vd vx : Reg) (v : LV) : Bool :=
  let n := if mode = .seg then vx.val + 1 else 1
  let g := gop v.sl.ew v.sl.grp T.width
  let data := if fmt = .b1 then decide (1 ≤ vd.val ∧ vd.val ≤ 7)
    else (List.range n).all fun j => operandOk v.sl v.nreg (vd.val + j * g) T.width
  let idx := match mode with
    | .indexed => operandOk v.sl v.nreg vx (v.tagOf vx).width
    | .tensor => operandOk v.sl v.nreg vx (v.tagOf vx).width
    | .unit => fmt != .q4l || decide (vx.val < v.nreg)
    | _ => true
  data && idx

/-- Elements 0 to 15 of a codebook register tagged bf16 (R79). -/
def codebook (v : LV) (vc : Reg) : Option (List Nat) :=
  if v.tagOf vc ≠ .bf16 then none else some ((List.range 16).map fun e => v.sl.elem v.r.w vc 16 e)

/-- Write the loaded values (R196): each field to its own operand. -/
def vloadPut (v : LV) (fmt : Fmt) (vd : Reg) (T : Tag) (nf : Nat) (vals : List (Spot × Nat)) : Except LErr LV :=
  if fmt = .b1 then v.putMask ⟨vd.val % 8, Nat.mod_lt _ (by decide)⟩ (vals.map fun p => (p.1.e, p.2 == 1))
  else
    let g := gop v.sl.ew v.sl.grp T.width
    (List.range nf).foldlM (fun (v : LV) j =>
      if h : vd.val + j * g < 32 then
        v.put ⟨vd.val + j * g, h⟩ T ((vals.filter (·.1.field == j)).map fun p => (p.1.e, p.2))
      else .error (.at .illop 0)) v

/-- The effect of a vector load on given elements (R196, R198, R199, R201), or its fault. -/
def vloadOn (mode : VMode) (fmt : Fmt) (vd xb vx : Reg) (th : Thread) (s : State) (v : LV) (acts : List Nat) :
    Except FInfo State := do
  let vt := v.tagOf vd
  let none_ (v : LV) (f : Fmt) : Except FInfo State :=
    (if f = .b1 then liftL th (vloadPut v f vd vt 1 []) else .ok v).map s.putLV
  if acts.isEmpty then none_ v (if mode = .tensor then (tensorFmt v vx).getD .native else fmt)
  else do
  let p ← vplan mode fmt (fmt.resultTag vt) xb vx v acts th
  if p.acts.isEmpty then none_ p.v p.fmt
  else
    let f := some (lowest p.acts)
    let T := p.fmt.resultTag vt
    if p.fmt = .native ∧ vt.isArith = false then .error (vfault th .tagmix f)
    else
      let cb := if p.fmt = .q4l then codebook p.v vx else some []
      match cb with
      | none => .error (vfault th .tagmix f)
      | some cb =>
        match planLocs s (s.acc (.ctl v.r.id)) false false p.spots p.bad with
        | .error (q, af) => .error (vfault th af.code (some q.e) af.addr1 af.addr2 q.field)
        | .ok (ls, s) =>
          match (p.spots.zip ls).findSome? fun q => (s.spotPoison q.1 q.2).map fun a => (q.1, a) with
          | some (q, a) => .error (vfault th .memerr (some q.e) a 0 q.field)
          | none =>
            let vals := (p.spots.zip ls).map fun q =>
              (q.1, spotValue p.fmt cb q.1.shift (q.2.map fun l => l.map (s.vecByte v.r)))
            let s := s.refresh v.r.cluster ls.flatten.flatten
            let v := { p.v with free := s.clock.free + 1 }
            let v ← liftL th (vloadPut v p.fmt vd T p.nf (vals.map fun q => (q.1, q.2.1)))
            putChecked th s (v.orFlags (vals.foldl (fun x q => x ||| q.2.2) 0))

/-- Conclude a vector instruction: of the tests an element can fail, in whatever order they are made, the fault is that of the lowest element
(R199), and in a strip that is not restartable the elements below it take effect first (R37). `seen` is what the translations made before the
fault leave (R349). -/
def vconclude (r : Row) (s : State) (acts : List Nat) (run : State → List Nat → Except FInfo State) (seen : State → State := id) : CRes :=
  match run s acts with
  | .ok s => .done (s.modSlice r fun sl => { sl with vestart := 0 })
  | .error fi =>
    let held := s.queueFull (dieOf r.cluster) && r.stepping.isNone
    let s := seen s
    match lowestFault FInfo.f (fun f => run s (acts.filter (· < f))) acts.length fi with
    | (fi, w) => .fault (match (if (s.slice r).strip.nr && !held then w else none) with
        | some w => w
        | none => s) fi

/-- A vector load word (R193 to R201). -/
def vload (mode : VMode) (fmt : Fmt) (vd xb vx : Reg) (m : MaskReg) (s : State) : Out :=
  ctlRow false true (fun r th s =>
    let v := s.ctlLV r
    let lf := if mode = .tensor then (tensorFmt v vx).getD .native else fmt
    if !vlimits mode lf (lf.resultTag (v.tagOf vd)) vd vx v then .fault s (vfault th .illop none)
    else if !(s.slice r).strip.opn then .fault s (vfault th .nostrip none)
    else
      let s := s.settle r.id
      let r := (s.row? r.id).getD r
      let v := s.ctlLV r
      vconclude r s (v.active m) fun s => vloadOn mode fmt vd xb vx th s (v.noteMask m)) s

/-- Bytes an instruction adds to a lane's buffer (R200). -/
def laneBytes (k nbits nf : Nat) : Nat := (k * nbits * nf + 7) / 8

/-- Add items to the row's store buffer with the count of each lane; a lane over its limit drains the buffer first (R36, R200). -/
def State.buffer (s : State) (row : Nat) (w nbits nf : Nat) (acts : List Nat) (items : List WItem) : State :=
  match s.row? row with
  | none => s
  | some r =>
    let add := (List.range w).map fun l => (l, laneBytes (acts.filter (· % w == l)).length nbits nf)
    let full := add.any fun p => Config.storeBuffer < FMap.getD r.bufCnt p.1 0 + p.2
    let s := if full then (s.commitBuf row).stripNr row 1 else s
    s.modRow row fun r => { r with
      buf := r.buf ++ items
      bufCnt := add.foldl (fun c p => if p.2 = 0 then c else FMap.set c p.1 (FMap.getD c p.1 0 + p.2)) r.bufCnt }

/-- Storage bits of an element a store buffers (R194, R200). -/
def storeBits (f : Fmt) (t : Tag) : Nat := match f with | .native => t.width | f => f.bits

/-- The lowest misaligned element of a store (R199, R204, R207): an addition's address is a multiple of its width. -/
def VPlan.storeBad (p : VPlan) (add : Bool) (T : Tag) : Option Nat :=
  if add then (p.spots.find? fun q => (q.pieces.headD (0, 0)).1 % fmtBytes p.fmt T != 0).map (·.e) else p.bad

/-- The translations a store makes before it faults (R199, R349). -/
def vstoreSeen (mode : VMode) (fmt : Fmt) (add : Bool) (vd xb vx : Reg) (th : Thread) (v : LV) (acts : List Nat) (s : State) : State :=
  match (if acts.isEmpty then none else (vplan mode fmt (v.tagOf vd) xb vx v acts th).toOption) with
  | none => s
  | some p =>
    let ok : List Spot := match p.storeBad add (v.tagOf vd) with
      | some e => p.spots.takeWhile fun q => decide (q.e < e)
      | none => p.spots
    s.touch (s.acc (.ctl v.r.id)) add (ok.flatMap (·.pieces))

/-- The effect of a vector store on given elements (R197 to R200), or its fault; `add` for vstxa (R204). -/
def vstoreOn (mode : VMode) (fmt : Fmt) (add : Bool) (vd xb vx : Reg) (th : Thread) (s : State) (v : LV) (acts : List Nat) :
    Except FInfo State := do
  let T := v.tagOf vd
  if acts.isEmpty then .ok (s.putLV v)
  else do
  let p ← vplan mode fmt T xb vx v acts th
  if p.acts.isEmpty then .ok (s.putLV p.v)
  else
    let f := some (lowest p.acts)
    if mode = .tensor ∧ (p.fmt = .fp4b ∨ p.fmt = .e4m3b) then .error (vfault th .illop f)
    else if add && !((T = .i32 || T = .i64 || T = .f32) && (p.fmt = .native || p.fmt = T.native)) then
      .error (vfault th .tagmix f)
    else if !add && p.fmt ≠ .b1 && !storeKindOk T p.fmt then .error (vfault th .tagmix f)
    else
      match planLocs s (s.acc (.ctl v.r.id)) true add p.spots (p.storeBad add T) with
      | .error (q, af) => .error (vfault th af.code (some q.e) af.addr1 af.addr2 q.field)
      | .ok (ls, s) =>
        match (if add then (p.spots.zip ls).findSome? fun q => (s.spotPoison q.1 q.2).map fun a => (q.1, a) else none) with
        | some (q, a) => .error (vfault th .memerr (some q.e) a 0 q.field)
        | none =>
          let g := gop v.sl.ew v.sl.grp T.width
          let rm := RMode.ofFrm v.r.frm
          let data (q : Spot) : Nat × Nat :=
            if p.fmt = .b1 then ((v.sl.maskBit (vd.val % 8) q.e).toNat, 0)
            else
              let x := v.sl.elem v.r.w (vd.val + q.field * g) T.width q.e
              if add then (x, 0) else narrow T p.fmt rm x
          let vals := (p.spots.zip ls).map fun q => (q.1, q.2.flatten, data q.1)
          let items := vals.flatMap fun q =>
            if add then [WItem.add q.2.1 T q.2.2.1] else spotItems p.fmt q.1.shift q.2.1 q.2.2.1
          let v := if p.fmt = .b1 then { p.v with rd := p.v.rd ++ [32 + vd.val] }
            else { p.v with rd := p.v.rd ++ (List.range (g * p.nf)).map (vd.val + ·)
                            els := p.v.els ++ p.spots.map fun q => (vd.val + q.field * g, T.width, [(q.e, q.e)]) }
          let s ← putChecked th s (v.orFlags (vals.foldl (fun x q => x ||| q.2.2.2) 0))
          .ok (s.buffer v.r.id v.r.w (storeBits p.fmt T) p.nf p.acts items)

/-- A vector store word (R193 to R200, R203, R204). -/
def vstore (mode : VMode) (fmt : Fmt) (add : Bool) (vd xb vx : Reg) (m : MaskReg) (s : State) : Out :=
  ctlRow false true (fun r th s =>
    let v := s.ctlLV r
    let lf := if mode = .tensor then (tensorFmt v vx).getD .native else fmt
    if !vlimits mode lf (v.tagOf vd) vd vx v then .fault s (vfault th .illop none)
    else if !(s.slice r).strip.opn then .fault s (vfault th .nostrip none)
    else vconclude r s (v.active m) (fun s => vstoreOn mode fmt add vd xb vx th s (v.noteMask m))
      (vstoreSeen mode fmt add vd xb vx th v (v.active m))) s

/-- VLD (R193). -/
def execVld (vd xb vx : Reg) (fmt : Fmt) (m : MaskReg) (s : State) : Out := vload .unit fmt vd xb vx m s
/-- VLDS (R193). -/
def execVlds (vd xb vx : Reg) (fmt : Fmt) (m : MaskReg) (s : State) : Out := vload .strided fmt vd xb vx m s
/-- VLDSEG (R193). -/
def execVldseg (vd xb vx : Reg) (fmt : Fmt) (m : MaskReg) (s : State) : Out := vload .seg fmt vd xb vx m s
/-- VLDX (R193). -/
def execVldx (vd xb vx : Reg) (fmt : Fmt) (m : MaskReg) (s : State) : Out := vload .indexed fmt vd xb vx m s
/-- VLDT (R207). -/
def execVldt (vd vr : Reg) (m : MaskReg) (s : State) : Out := vload .tensor .native vd 0 vr m s
/-- VST (R197). -/
def execVst (vd xb vx : Reg) (fmt : Fmt) (m : MaskReg) (s : State) : Out := vstore .unit fmt false vd xb vx m s
/-- VSTS (R197). -/
def execVsts (vd xb vx : Reg) (fmt : Fmt) (m : MaskReg) (s : State) : Out := vstore .strided fmt false vd xb vx m s
/-- VSTSEG (R197). -/
def execVstseg (vd xb vx : Reg) (fmt : Fmt) (m : MaskReg) (s : State) : Out := vstore .seg fmt false vd xb vx m s
/-- VSTX (R203). -/
def execVstx (vd xb vx : Reg) (fmt : Fmt) (m : MaskReg) (s : State) : Out := vstore .indexed fmt false vd xb vx m s
/-- VSTXA (R204). -/
def execVstxa (vd xb vx : Reg) (fmt : Fmt) (m : MaskReg) (s : State) : Out := vstore .indexed fmt true vd xb vx m s
/-- VSTT (R207). -/
def execVstt (vd vr : Reg) (m : MaskReg) (s : State) : Out := vstore .tensor .native false vd 0 vr m s

/-- The effect of a far gather on given elements (R205, R206): addresses translated at issue; bytes an earlier store of the strip
wrote are undefined. It sets no STRIP.NR cause; its destination counts as written in the strip. -/
def vfgOn (fmt : Fmt) (vd xb vi : Reg) (th : Thread) (s : State) (v : LV) (acts : List Nat) : Except FInfo State := do
  let vt := v.tagOf vd
  let T := fmt.resultTag vt
  let issue (s : State) (r : Row) (n : Nat) (els : List (Nat × Nat × List (Option Loc))) : State :=
    let (id, s) := s.newId
    s.startOp (Op.new s id r (.vfg vd fmt T n els false) (some 2) th.pc)
  if acts.isEmpty then .ok (issue (s.putLV v) v.r v.free [])
  else do
  let p ← vplan .indexed fmt T xb vi v acts th
  if fmt = .native ∧ vt.isArith = false then .error (vfault th .tagmix (some (lowest acts)))
  else
    match manyLocs s (s.acc (.ctl v.r.id)) false false p.spots with
    | .error (q, af) => .error (vfault th af.code (some q.e) af.addr1 af.addr2 q.field)
    | .ok (ls, s) =>
      match (p.spots.zip ls).findSome? fun q => (s.spotPoison q.1 q.2).map fun a => (q.1, a) with
      | some (q, a) => .error (vfault th .memerr (some q.e) a 0 0)
      | none =>
        let r := v.r
        let v := { p.v with free := s.clock.free + 1 }
        let wr := v.wr
        let v ← liftL th (v.retag vd T (lowest acts))
        let g := gop v.sl.ew v.sl.grp T.width
        let v := { v with sl := acts.foldl (fun sl e => sl.undefElem v.r.w vd T.width e v.free) v.sl, wr := wr, free := v.free + 1 }
        let els := (p.spots.zip ls).map fun q => (q.1.e, (q.1.pieces.headD (0, 0)).1, q.2.flatten.map fun l => if itemsHit r.buf [l.key] then none else some l)
        let s ← putChecked th s v
        let s := s.modRow r.id fun q => { q with swr := (q.swr ++ (List.range g).map (vd.val + ·)).dedup }
        .ok (issue s r (v.free - 1) els)

/-- VFG (R205, R206): it counts in the gather class, with no active element too (R140). -/
def execVfg (vd xb vx : Reg) (fmt : Fmt) (m : MaskReg) (s : State) : Out :=
  ctlRow false true (fun r th s =>
    let v := s.ctlLV r
    if !vlimits .indexed fmt (fmt.resultTag (v.tagOf vd)) vd vx v then .fault s (vfault th .illop none)
    else if !(s.slice r).strip.opn then .fault s (vfault th .nostrip none)
    else if 255 ≤ r.cnt.getD 2 0 then .stall s
    else
      let s := s.settle r.id
      let r := (s.row? r.id).getD r
      let v := s.ctlLV r
      let acts := v.active m
      vconclude r s acts fun s l => if l.isEmpty && !acts.isEmpty then .ok s else vfgOn fmt vd xb vx th s (v.noteMask m) l) s

end Sys2Proof.Machine
end

