-- ==== Sys2Proof/Machine/Engine.lean ====
section
/-! DEFINITION. The stream engine's words, major opcode 0x18: streams, copies, watermarks, prefetch and flush (R107, R207 to R221). -/

namespace Sys2Proof.Machine

/-- The limits of a register that a capture reads, under its own tag (R58, R68, R104 step 5). -/
def shapeLimit (s : State) (r : Row) (v : Reg) : Bool := let sl := s.slice r; operandOk sl (nregOf r.nregCode) v (sl.reg v).tag.width

/-- Capture the shape record in a register for the thread of a row, or its fault (R107, R207): f = VL. -/
def captureShape (s : State) (r : Row) (th : Thread) (v : Reg) (remote : Bool) : Except FInfo Shape :=
  if !shapeLimit s r v then .error (th.flt .illop)
  else match readShape (s.slice r) r.w v remote with
    | .ok sh => .ok sh
    | .error c => .error (th.flt c)

/-- The index vector an engine captures: elements 0 to VL − 1, zero-extended (R209, R214). -/
def captureIdx (s : State) (r : Row) (th : Thread) (v : Reg) : Except FInfo (List Nat) :=
  let sl := s.slice r
  let t := (sl.reg v).tag
  if !operandOk sl (nregOf r.nregCode) v t.width then .error (th.flt .illop)
  else if !t.isInt then .error (th.flt .tagmix)
  else .ok ((List.range sl.vl).map fun e => sl.elem r.w v t.width e)

/-- Conclude an engine word: a capture's fault, or its effect, which sets cause ENGINE (R36). -/
def engineWord (r : Row) (s : State) (x : Except FInfo State) : CRes :=
  match x with
  | .error fi => .fault s fi
  | .ok s => .done (s.stripNr r.id 4)

/-- Bind stream register `n`, closing any earlier binding (R208). -/
def State.bindStream (s : State) (row n : Nat) (o : Option Stream) : State :=
  s.modRow row fun q => { q with streams := q.streams.set n o }

/-- The tag of a stream: the load result tag of its format (R194, R208). -/
def newStream (sh : Shape) (idx : Option (List Nat)) (total : Nat) : Stream :=
  { shape := sh, idx := idx, total := total, tag := sh.fmt.resultTag .none, got := [], fetched := 0, pos := 0, want := 0 }

/-- SBIND (R208). -/
def execSbind (n : Fin 8) (a : Reg) (s : State) : Out :=
  ctlRow false true (fun r th s => engineWord r s (do
    let sh ← captureShape s r th a false
    .ok (s.bindStream r.id n (some (newStream sh none sh.count))))) s

/-- SBINDX (R209). -/
def execSbindx (n : Fin 8) (a vi : Reg) (s : State) : Out :=
  ctlRow false true (fun r th s =>
    if !(shapeLimit s r a && shapeLimit s r vi) then .fault s (th.flt .illop)
    else engineWord r s (do
      let sh ← captureShape s r th a false
      let ix ← captureIdx s r th vi
      .ok (s.bindStream r.id n (some (newStream sh (some ix) ix.length))))) s

/-- SCLOSE (R212). -/
def execSclose (n : Fin 8) (s : State) : Out :=
  ctlRow false false (fun r _ s => engineWord r s (.ok (s.bindStream r.id n none))) s

/-- The kind of a format in a copy (R213): mask, integer, float. -/
def Fmt.kindCode (f : Fmt) : Nat := if f = .b1 then 0 else if f.isIntFmt then 1 else 2

/-- The tests of a copy at issue (R213), beyond the number of elements. -/
def copyCheck (dst src : Shape) : Option Code :=
  if dst.fmt = .fp4b ∨ dst.fmt = .e4m3b then some .illop
  else if kindOf dst ≠ kindOf src then some .tagmix
  else none
where
  /-- Kind of a record's format. -/
  kindOf (s : Shape) : Nat := Fmt.kindCode s.fmt

/-- Issue an operation of a class of R140 for a row's thread. -/
def State.issueOp (s : State) (r : Row) (th : Thread) (kind : OpKind) (cls : Nat) (bound : Bool) : State :=
  let (id, s) := s.newId
  s.startOp { Op.new s id r kind (some cls) th.pc with landing := if bound then th.landing else none }

/-- A class of R140 is full: an operation stalls at issue. -/
def Row.full (r : Row) (cls : Nat) : Bool := decide (255 ≤ r.cnt.getD cls 0)

/-- CPY (R213, R215). -/
def execCpy (d a : Reg) (s : State) : Out :=
  ctlRow false true (fun r th s =>
    if !(shapeLimit s r d && shapeLimit s r a) then .fault s (th.flt .illop)
    else if r.full 0 then .stall s
    else engineWord r s (do
      let dst ← captureShape s r th d false
      let src ← captureShape s r th a false
      if dst.count ≠ src.count then .error (th.flt .badshape)
      else match copyCheck dst src with
        | some c => .error (th.flt c)
        | none => .ok (s.issueOp r th (.cpy dst src none) 0 true))) s

/-- CPYX (R214, R215): an index at or above the source's outermost extent is found by the operation, at its flat element. -/
def execCpyx (d a vi : Reg) (s : State) : Out :=
  ctlRow false true (fun r th s =>
    if !(shapeLimit s r d && shapeLimit s r a && shapeLimit s r vi) then .fault s (th.flt .illop)
    else if r.full 0 then .stall s
    else engineWord r s (do
      let dst ← captureShape s r th d false
      let src ← captureShape s r th a false
      let ix ← captureIdx s r th vi
      if dst.rank ≠ src.rank ∨ dst.ext.dropLast ≠ src.ext.dropLast ∨ dst.ext.getLastD 0 < ix.length then
        .error (th.flt .badshape)
      else match copyCheck dst src with
        | some c => .error (th.flt c)
        | none => .ok (s.issueOp r th (.cpy dst src (some ix)) 0 true))) s

/-- WMPUB (R218): the watermark's address is translated now. -/
def execWmpub (n : Fin 4) (a : Reg) (s : State) : Out :=
  ctlRow false false (fun r th s =>
    match r.wm.getD n none with
    | none => .fault s (th.flt .illop)
    | some b =>
      match xlateN s (s.acc (.ctl r.id)) b.addr.toNat 8 true true with
      | .error f => .fault s (th.aflt f)
      | .ok (ls, s) =>
        let (id, s) := s.newId
        .done ((s.startOp (Op.new s id r (.wmpub b.addr.toNat ls (th.getX a)) none th.pc)).stripNr r.id 4)) s

/-- WMBIND (R217). -/
def execWmbind (n : Fin 4) (a : Reg) (cls : PubCls) (s : State) : Out :=
  ctlRow false false (fun r th s =>
    let ad := th.getX a
    if ad.toNat % 8 ≠ 0 then .fault s (th.flt .misalign ad.toNat)
    else .done ((s.modRow r.id fun q => { q with wm := q.wm.set n (some { addr := ad, cls := cls, cp := 0 }) }).stripNr r.id 4)) s

/-- The lines of a tensor that translate, as a prefetch or a flush finds them. -/
def tensorLocs (s : State) (a : Acc) (sh : Shape) : List Loc × State :=
  (List.range sh.count).foldl (fun (p : List Loc × State) e =>
    match spotLocs p.2 a false false (sh.spot e).pieces with
    | .ok (ls, s) => (p.1 ++ ls.flatten, s)
    | .error _ => p) ([], s)

/-- PFETCH (R220): no architectural effect; `.l1` takes leases on the lines that may be cached (R230, R231). A record that is not
valid is ignored, and so is the register of a row whose slices are not its own. A poisoned line is skipped (R358). A register whose operand
breaks the limits of R58 and R68 is ILLOP by R104, before R220 applies, which says that no record raises a fault (DEDUCED, log 75). -/
def execPfetch (a : Reg) (lvl : PfLvl) (s : State) : Out :=
  ctlRow true false (fun r th s =>
    if !shapeLimit s r a then .fault s (th.flt .illop)
    else if !r.vvalid then .done s
    else match readShape (s.slice r) r.w a false, lvl with
      | .ok sh, .l1 =>
        let (ls, s) := tensorLocs s (s.acc (.ctl r.id)) sh
        let lines := (((ls.filter fun l => decide (l.key < 2 ^ 39) && (l.home == 0 || l.home == 2)).map (·.key / 64)).dedup).filter fun n =>
          !s.mem.poison.contains n
        .done (lines.foldl (fun s n => if (s.l1Find r.cluster n).isSome then s else s.grantLease r.cluster n) s)
      | _, _ => .done s) s

/-- CFLUSH (R221): it counts in the copy class. -/
def execCflush (a : Reg) (s : State) : Out :=
  ctlRow false true (fun r th s =>
    if !shapeLimit s r a then .fault s (th.flt .illop)
    else if r.full 0 then .stall s
    else engineWord r s (do
      let src ← captureShape s r th a false
      .ok (s.issueOp r th (.cflush src) 0 false))) s

/-! What the operations do when the engine performs them. -/

/-- The element of the source that flat element `e` of the destination takes (R213, R214); none for an index out of range. -/
def copySource (dst src : Shape) (idx : Option (List Nat)) (e : Nat) : Option Nat :=
  match idx with
  | none => some e
  | some ix =>
    let n := (dst.ext.dropLast).foldl (· * ·) 1
    let k := ix.getD (e / n) 0
    if k < src.ext.getLastD 0 then some (k * n + e % n) else none

/-- Elements a copy copies. -/
def copyCount (dst : Shape) (idx : Option (List Nat)) : Nat :=
  match idx with
  | none => dst.count
  | some ix => ix.length * (dst.ext.dropLast).foldl (· * ·) 1

/-- A stored value converted from one format to another (R81, R197, R213): a NaN becomes the canonical one, no flag is set. -/
def copyValue (src dst : Fmt) (rm : RMode) (v : Nat) : Nat :=
  if src = .b1 then v
  else
    let T := src.resultTag .none
    match dst.ffmt? with
    | some g => (fConvert T.ffmt g rm v).1
    | none => (narrow T dst rm v).1

/-- One element read by an engine for a partition and cluster: its storage places and widened value, or its fault (R211, R216). -/
def engineRead (s : State) (a : Acc) (sh : Shape) (e : Nat) : Except AFault (List (List Loc) × (Nat × Nat) × State) :=
  let p := sh.spot e
  if !sh.aligned e then .error { code := .misalign, addr1 := (p.pieces.headD (0, 0)).1, addr2 := 0 }
  else
    match spotLocs s a false false p.pieces with
    | .error f => .error f
    | .ok (ls, s) =>
      match s.spotPoison p ls with
      | some ad => .error { code := .memerr, addr1 := ad, addr2 := 0 }
      | none => .ok (ls, spotValue sh.fmt [] p.shift (ls.map fun l => s.homeBytes a.part l), s.refresh a.cluster ls.flatten)

/-- The places an element of a destination is written to. -/
def engineDest (s : State) (a : Acc) (sh : Shape) (e : Nat) : Except AFault (List Loc × State) :=
  match spotLocs s a true false (sh.spot e).pieces with
  | .error f => .error f
  | .ok (ls, s) => .ok (ls.flatten, s)

/-- Places a write applied now may bring to a landing barrier (R242, R292): those of its record's partition. -/
def State.landBytes (s : State) (o : Op) (g n : Nat) : State :=
  match o.landing with
  | none => s
  | some va =>
    if n = 0 then s
    else
    match xlateN s { part := o.part, cluster := o.cluster, hnd := false } va.toNat 8 true true with
    | .ok (l :: _, s) => { s with mem := { s.mem with landing := s.mem.landing ++ [{ bar := l, part := o.part, gwct := g, n := n }] } }
    | _ => s

/-- Destination bytes of element `e` that no later element writes too, where `more` follow it (R292): bytes that elements of a packed format
share count once, with the last of them. -/
def landCount (dst : Shape) (e n : Nat) (more : Bool) : Nat :=
  if more && dst.fmt.packed && (dst.spot (e + 1)).pieces.head?.map (·.1) == (dst.spot e).pieces.head?.map (·.1) then 0 else n

/-- Overlapping bytes of a copy's destination receive undefined values (R213). -/
def undefItems (seed : Nat) (srcKeys : List Nat) (items : List WItem) : List WItem :=
  items.map fun i => match i with
    | .byte l m b => if srcKeys.contains l.key then .byte l m (Config.freeByte seed l.key) else .byte l m b
    | i => i

/-- The next elements of a copy, `n` of them from `e`: each is written to its home as it is read; the state, the next element and
the fault that stopped it (R213 to R216). `srcKeys` are the places of the whole source, `s0` the state whose values a source that
overlaps the destination has. -/
def copyRun (o : Op) (dst src : Shape) (idx : Option (List Nat)) (rm : RMode) (srcKeys : List Nat) (seed : Nat)
    (s0 : State) :
    Nat → Nat → State → State × Nat × Option AFault
  | 0, e, s => (s, e, none)
  | n + 1, e, s =>
    let a : Acc := { part := o.part, cluster := o.cluster, hnd := false }
    match copySource dst src idx e with
    | none => (s, e, some { code := .badshape, addr1 := 0, addr2 := 0 })
    | some k =>
      match engineRead s a src k with
      | .error f => (s, e, some f)
      | .ok (_, v1, s) =>
        let v := match engineRead s0 a src k with
          | .ok (_, v, _) => v
          | .error _ => v1
        match engineDest s a dst e with
        | .error f => (s.touch a false (dst.spot e).pieces, e, some f)
        | .ok (ls, s) =>
          let items := undefItems seed srcKeys (spotItems dst.fmt (dst.spot e).shift ls (copyValue src.fmt dst.fmt rm v.1))
          let (s, g) := s.applyAt (.ctl o.row) o.cluster o.part false items
          copyRun o dst src idx rm srcKeys seed s0 n (e + 1) (s.landBytes o g (landCount dst e ls.length (0 < n)))

/-- Perform a copy from its element f on: the state, and the fault that stopped it. -/
def State.performCopy (s : State) (o : Op) (dst src : Shape) (idx : Option (List Nat)) : State × Nat × Option AFault :=
  let a : Acc := { part := o.part, cluster := o.cluster, hnd := false }
  let rm := RMode.ofFrm (((s.row? o.row).map (·.frm)).getD 0)
  let s := s.settle o.row
  let (sk, _) := tensorLocs s a src
  let (seed, s) := s.fresh
  copyRun o dst src idx rm (sk.map (·.key)) seed s (copyCount dst idx - o.f) o.f s

/-- Perform a flush from element f on (R221): the cluster's copies of the lines are removed. -/
def flushRun (o : Op) (src : Shape) : Nat → Nat → State → State × Nat × Option AFault
  | 0, e, s => (s, e, none)
  | n + 1, e, s =>
    match (if src.aligned e then spotLocs s { part := o.part, cluster := o.cluster, hnd := false } false false (src.spot e).pieces
      else .error { code := .misalign, addr1 := ((src.spot e).pieces.headD (0, 0)).1, addr2 := 0 }) with
    | .error f => (s, e, some f)
    | .ok (ls, s) =>
      let lines := ls.flatten.map fun l => l.key / 64
      flushRun o src n (e + 1)
        { s with mem := { s.mem with l1 := s.mem.l1.filter fun c => !(c.cluster == o.cluster && lines.contains c.line) } }

/-- Fetch the next entry of a stream (R208, R209, R211). -/
def State.fetchEntry (s : State) (r : Row) (n : Nat) (st : Stream) : State :=
  let a : Acc := { part := r.part, cluster := r.cluster, hnd := false }
  let i := st.fetched
  let k := match st.idx with
    | none => some i
    | some ix => let x := ix.getD i 0; if x < st.shape.count then some x else none
  let s := s.settle r.id
  let (ent, s) : SEnt × State := match k with
    | none => (.poison .badshape 0, s)
    | some e =>
      match engineRead s a st.shape e with
      | .error f => (.poison f.code f.addr1, s)
      | .ok (_, v, s) => (.ok v.1 v.2, s)
  s.bindStream r.id n (some { st with got := FMap.set st.got i ent, fetched := i + 1 })

/-- The stream engine may fetch (R56, R208, R211): entries are left, the queue has room or a word waits for the entry, and no fetched entry is
poisoned. -/
def Stream.canFetch (st : Stream) : Bool :=
  decide (st.fetched < st.total) && decide (st.fetched < max (st.pos + Config.streamDepth) st.want) &&
  !(st.got.any fun p => p.2.bad)

end Sys2Proof.Machine
end

