-- ==== Sys2Proof/Machine/Remote.lean ====
section
/-! DEFINITION. Remote operations and collectives, major opcode 0x19 (R222 to R225, R370 to R373). -/

namespace Sys2Proof.Machine

/-- A message to the outside of the device: its kind and content, appended to the outbox. -/
def State.send (s : State) (m : List Nat) : State := { s with mgmt := { s.mgmt with outbox := s.mgmt.outbox ++ [m] } }

/-- The target index of a domain address is within the span (R222). -/
def State.inSpan (s : State) (p : Nat) (va : Nat) : Bool := decide (va / 2 ^ 50 < bits (s.pdesc p 13) 32 14)

/-- The tests and the issue of `rput` and `rget` (R223): they follow R213. -/
def remoteCopy (put : Bool) (d a : Reg) (s : State) : Out :=
  ctlRow false true (fun r th s =>
    if r.full 3 then .stall s
    else engineWord r s (do
      let x ← captureShape s r th d put
      let y ← captureShape s r th a (!put)
      if x.count ≠ y.count then .error (th.flt .badshape)
      else match copyCheck x y with
        | some c => .error (th.flt c)
        | none =>
          let s := s.issueOp r th (if put then .rput x y else .rget x y) 3 (!put)
          .ok (s.send [1, if put then 1 else 2, s.clock.nextId - 1, if put then x.base else y.base]))) s

/-- RPUT (R223): the first register holds the remote record. -/
def execRput (d a : Reg) (s : State) : Out := remoteCopy true d a s
/-- RGET (R223): the first register holds the local record. -/
def execRget (d a : Reg) (s : State) : Out := remoteCopy false d a s

/-- RAMO (R224): MISALIGN at issue; the thread does not stall; a release half waits as `fence.rel.dom` (R235). -/
def execRamo (d a b : Reg) (op : AmoSel) (od : Order) (s : State) : Out :=
  ctlRow false false (fun r th s =>
    let ad := th.getX a
    let n := if op.word then 4 else 8
    if ad.toNat % 2 ^ 50 % n ≠ 0 then .fault s (th.flt .misalign ad.toNat)
    else if r.full 3 then .stall s
    else if ordRel od && !s.releaseOk (.ctl r.id) .dom then .stall (s.setWait (.ctl r.id) (some (.fence .dom)))
    else
      let s := s.issueOp r th (.ramo d op.op op.word od ad (th.getX b) (th.getX d)) 3 false
      .done ((s.stripNr r.id 4).send [1, 3, s.clock.nextId - 1, ad.toNat, op.code, (th.getX b).toNat, (th.getX d).toNat])) s

/-- The dwords of a collective descriptor pass R225 and R372 for a partition. -/
def collOk (s : State) (p : Nat) (d : List Nat) : Bool :=
  let w := d.headD 0
  let op := bits w 0 8
  let red := bits w 8 8
  let ty := bits w 16 8
  let root := bits w 32 32
  let spann := bits (s.pdesc p 13) 32 14
  op ≤ 4 && red ≤ 2 && (op < 2 || red == 0) && (ty == 3 || ty == 4 || ty == 8 || ty == 9) && bits w 24 8 == 0 &&
  (if op = 3 then root < spann else root == 0) &&
  decide (1 ≤ d.getD 1 0) && decide (d.getD 1 0 ≤ 2 ^ 40) && d.getD 4 0 == s.pdesc p 12 && decide (0 < spann) &&
  d.getD 6 0 == 0 && d.getD 7 0 == 0

/-- The dwords of a 64-byte object. -/
def dwordsOf : Nat → List Byte → List Nat
  | 0, _ => []
  | n + 1, bs => leNat (bs.take 8) :: dwordsOf n (bs.drop 8)

/-- COLL (R225, R372): the reply goes to xd; a barrier orders as a release at scope dom on submission. -/
def execColl (d a : Reg) (s : State) : Out :=
  ctlRow false false (fun r th s =>
    let ad := (th.getX a).toNat
    let t := Tid.ctl r.id
    if ad % 64 ≠ 0 then .fault s (th.flt .misalign ad)
    else if r.full 3 then .stall s
    else
      match s.homeLoad t ad 64 false false with
      | .error f => .fault s (th.aflt f)
      | .ok (_, bs, s) =>
        let desc := dwordsOf 8 bs
        let held := (s.ops.filter fun o => o.part == r.part && (match o.kind with
          | .coll .. => true
          | _ => false)).length
        let s := s.stripNr r.id 4
        if !collOk s r.part desc then setD t d (BitVec.ofInt 64 (-2)) s
        else if Config.collQueue ≤ held then setD t d (BitVec.ofInt 64 (-1)) s
        else if bits (desc.headD 0) 0 8 = 4 ∧ s.releaseOk t .dom = false then .stall (s.setWait t (some (.fence .dom)))
        else
          let n := (s.part r.part).collSeq
          let s := s.issueOp r th (.coll desc (desc.getD 5 0) n) 3 false
          let s := s.modPart r.part fun q => { q with collSeq := n + 1 }
          setD t d (BitVec.ofNat 64 n) (s.send (1 :: 4 :: (s.clock.nextId - 1) :: desc))) s

/-! What the operations do when the outside answers. -/

/-- The access rights an operation has. -/
def Op.acc (o : Op) : Acc := { part := o.part, cluster := o.cluster, hnd := false }

/-- The domain address of an element of a remote record (R222). -/
def Shape.domainAddr (sh : Shape) (e : Nat) : Nat := ((sh.spot e).pieces.headD (sh.base, 0)).1

/-- The member of its span that a domain address of a partition names has failed (R377). -/
def State.memberFailed (s : State) (p va : Nat) : Bool := s.mgmt.failed.contains (s.pdesc p 12, va / 2 ^ 50)

/-- What stops a remote access to a domain address before it leaves: a target outside the span, or one that has failed (R222, R377). -/
def State.remoteAway (s : State) (p va : Nat) : Option AFault :=
  if s.inSpan p va && !s.memberFailed p va then none else some { code := .remoteflt, addr1 := va, addr2 := 0 }

/-- What stops element `e` of a remote record before its access leaves: the misalignment of its row (R207), or its target (R222). -/
def State.remoteStop (s : State) (p : Nat) (sh : Shape) (e : Nat) : Option AFault :=
  if sh.aligned e then s.remoteAway p (sh.domainAddr e) else some { code := .misalign, addr1 := sh.domainAddr e, addr2 := 0 }

/-- Elements of a remote record from `e` on, of at most `n`, up to the first whose access cannot leave (R207, R222). -/
def State.reachable (s : State) (p : Nat) (sh : Shape) : Nat → Nat → Nat
  | 0, _ => 0
  | n + 1, e => if (s.remoteStop p sh e).isNone then s.reachable p sh n (e + 1) + 1 else 0

/-- The places of the elements of a remote record that lie on this device itself: bytes in which a copy may overlap (R213, R223). -/
def State.selfPlaces (s : State) (o : Op) (sh : Shape) : List Nat :=
  (List.range sh.count).flatMap fun e =>
    if sh.domainAddr e / 2 ^ 50 ≠ bits (s.pdesc o.part 13) 0 14 then []
    else match spotLocs s o.acc false false ((sh.spot e).pieces.map fun q => (q.1 % 2 ^ 50, q.2)) with
      | .ok (ls, _) => ls.flatten.map (·.key)
      | .error _ => []

/-- Of each byte of an element of an `rput`, whether its place lies on this device and the source has it too (R213). -/
def State.selfHits (s : State) (o : Op) (dst : Shape) (srcKeys : List Nat) (e : Nat) : List Bool :=
  if dst.domainAddr e / 2 ^ 50 ≠ bits (s.pdesc o.part 13) 0 14 then []
  else match spotLocs s o.acc false false ((dst.spot e).pieces.map fun q => (q.1 % 2 ^ 50, q.2)) with
    | .ok (ls, _) => ls.flatten.map fun l => srcKeys.contains l.key
    | .error _ => []

/-- A stored value whose bytes that overlap the source are undefined (R213). -/
def hitValue (n seed e : Nat) (hits : List Bool) (v : Nat) : Nat :=
  leNat ((leBytes ((n + 7) / 8) v).zipIdx.map fun q => if hits.getD q.2 false then Config.freeByte (seed + e) q.2 else q.1) % 2 ^ n

/-- Read `n` local elements of an `rput` from its element `e` on, as they are stored at the remote end (R213, R223): the fault that stops it, if
any, and its element. Bytes that overlap the source receive undefined values. -/
def readRun (o : Op) (dst src : Shape) (rm : RMode) (srcKeys : List Nat) (seed : Nat) :
    Nat → Nat → State → State × Nat × Option AFault × List Nat
  | 0, e, s => (s, e, none, [])
  | n + 1, e, s =>
    match engineRead s o.acc src e with
    | .error f => (s, e, some f, [])
    | .ok (_, v, s) =>
      let x := hitValue dst.fmt.bits seed e (s.selfHits o dst srcKeys e) (copyValue src.fmt dst.fmt rm v.1)
      let (s, k, f, vs) := readRun o dst src rm srcKeys seed n (e + 1) s
      (s, k, f, x :: vs)

/-- The values an answer to an `rget` brings for the elements from `e` on: each element comes as the bytes of its own place, those of the scales
its record has after it (R195, R223). -/
def getValues (src : Shape) : Nat → Nat → List Byte → List Nat
  | 0, _, _ => []
  | n + 1, e, bs =>
    let sp := src.spot e
    let ps := (sp.pieces.foldl (fun (p : List (List Byte) × List Byte) q => (p.1 ++ [p.2.take q.2], p.2.drop q.2)) ([], bs)).1
    (spotValue src.fmt [] sp.shift ps).1 :: getValues src n (e + 1) (bs.drop (sumL (sp.pieces.map (·.2))))

/-- Write the elements an `rget` brought (R223): their widened values. Bytes that overlap the source receive undefined values (R213). -/
def writeRun (o : Op) (dst src : Shape) (rm : RMode) (srcKeys : List Nat) (seed : Nat) : List Nat → Nat → State → State × Nat × Option AFault
  | [], e, s => (s, e, none)
  | v :: t, e, s =>
    match engineDest s o.acc dst e with
    | .error f => (s.touch o.acc false (dst.spot e).pieces, e, some f)
    | .ok (ls, s) =>
      let (s, g) := s.applyAt (.ctl o.row) o.cluster o.part false
        (undefItems seed srcKeys (spotItems dst.fmt (dst.spot e).shift ls (copyValue src.fmt dst.fmt rm v)))
      writeRun o dst src rm srcKeys seed t (e + 1) (s.landBytes o g (landCount dst e ls.length (!t.isEmpty)))

/-- The fault of an operation in its record (R216, R307). -/
def opFault (o : Op) (c : Code) (f : Nat) (a1 : Nat := 0) (a2 : Nat := 0) : FInfo :=
  { code := c, pc := o.pc, f := some f, addr1 := a1, addr2 := a2 }

/-- The domain address of element `f` of a remote operation (R222). -/
def OpKind.remoteAddr : OpKind → Nat → Nat
  | .rput dst _, f => dst.domainAddr f
  | .rget _ src, f => src.domainAddr f
  | .ramo _ _ _ _ ad _ _, _ => ad.toNat
  | _, _ => 0

/-- REMOTEFLT of a remote operation at element `f` (R222, R371): ADDR1 is the domain address. -/
def State.remoteFail (s : State) (o : Op) (f : Nat) : State := s.raiseOp o (opFault o .remoteflt f (o.kind.remoteAddr f))

/-- How a remote copy ends that was to copy elements below `upto` and stands at element `e` of the remote record `rem`: with its local fault, at
what stops the next access, at the fault its target answered, or done. -/
def State.copyEnd (s : State) (o : Op) (rem : Shape) (upto e : Nat) (f : Option AFault) (failed : Bool) (done : State → State) : State :=
  match f with
  | some af => s.raiseOp o (opFault o af.code e af.addr1 af.addr2)
  | none =>
    if e < upto then
      match s.remoteStop o.part rem e with
      | some af => s.raiseOp o (opFault o af.code e af.addr1 af.addr2)
      | none => s.remoteFail o e
    else if failed then s.remoteFail o e
    else done s

/-- An `rput` is answered (R222, R223): its elements below `upto` have been read and written at their homes, the last GWCT of which is `g`
(R241); `failed`: the access of element `upto` failed. -/
def State.putDone (s : State) (o : Op) (dst src : Shape) (upto g : Nat) (failed : Bool) : State :=
  let rm := RMode.ofFrm (((s.row? o.row).map (·.frm)).getD 0)
  let s := s.settle o.row
  let (seed, s) := s.fresh
  let (sk, _) := tensorLocs s o.acc src
  let (s, e, f, vs) := readRun o dst src rm (sk.map (·.key)) seed (s.reachable o.part dst (upto - o.f) o.f) o.f s
  let s := (s.send (2 :: o.id :: vs))
  (if o.f < e then s.raiseGwct (.ctl o.row) g else s).copyEnd o dst upto e f failed fun s => s.endOp { o with f := dst.count }

/-- An `rget` is answered (R222, R223) with the bytes of its elements below `upto`; `failed`: the access of element `upto` failed. -/
def State.getDone (s : State) (o : Op) (dst src : Shape) (upto : Nat) (bs : List Byte) (failed : Bool) : State :=
  let rm := RMode.ofFrm (((s.row? o.row).map (·.frm)).getD 0)
  let (seed, s) := s.fresh
  let vals := getValues src (s.reachable o.part src (upto - o.f) o.f) o.f bs
  let (s, e, f) := writeRun o dst src rm (s.selfPlaces o src) seed vals o.f s
  s.copyEnd o src upto e f failed fun s => s.endOp o

/-- An acknowledgement of an operation (R222 to R224). The bytes of a get are those of the elements from f on. A failure at element f leaves
every element below f written (R216). -/
def State.acknowledge (s : State) (o : Op) (ack : RemoteAck) : State :=
  match o.kind, ack with
  | .rput dst src, .put g => s.putDone o dst src dst.count g false
  | .rput dst src, .fail f g _ => s.putDone o dst src f g true
  | .rget dst src, .get bs => s.getDone o dst src dst.count bs false
  | .rget dst src, .fail f _ bs => s.getDone o dst src f bs true
  | .ramo d _ word _ ad _ _, .amo old g =>
    if (s.remoteAway o.part ad.toNat).isSome then s.remoteFail o 0
    else
      let v := if word then sextW 32 old.toNat else old
      ((s.raiseGwct (.ctl o.row) g).putX (.ctl o.row) d v).endOp o
  | .ramo .., .fail .. => s.remoteFail o 0
  | _, _ => s

/-! A request of another device reaching this one (R222, R370). -/

/-- The enabled partition a request names (R370). -/
def State.groupPart (s : State) (g : Nat) : Option Nat :=
  (List.range 16).find? fun p => s.partOn p && s.pdesc p 12 == g && g != 0

/-- A write of a remote device at its home (R228, R232): no thread of this device owns its GWCT. `mask` has the bits of each byte it writes. -/
def State.remoteWrite (s : State) (p : Nat) (ls : List Loc) (bs : List Byte) (mask : Byte := 0xFF) : State × Nat :=
  s.applyAt (.hnd (10 * Config.clusters)) Config.clusters p false ((ls.zip bs).map fun q => .byte q.1 mask q.2)

/-- The remote operation reads at a member of its span. -/
def OpKind.readsFrom (k : OpKind) (me : Nat) : Bool :=
  match k with
  | .rget _ src => (List.range src.count).any fun e => src.domainAddr e / 2 ^ 50 == me
  | .ramo _ _ _ _ ad _ _ => ad.toNat / 2 ^ 50 == me
  | _ => false

/-- A read that arrives over the Felok links follows the earlier stores of the threads of this device that have a remote read toward it (R239). -/
def State.settleReaders (s : State) (p : Nat) : State :=
  ((s.ops.filter fun o => o.part == p && o.kind.readsFrom (bits (s.pdesc p 13) 0 14)).map (·.row)).foldl State.settle s

/-- The bytes of a region that no snapshot layout names (R376). -/
def regionByte (seed k : Nat) : Byte := Config.freeByte seed k

/-- The region still holds the trailer of what was written to it (R376): the last 64 KiB of its bytes stand. -/
def State.trailerStands (s : State) (r : SnapRegion) : Bool :=
  (List.range (2 ^ 16)).all fun i => let k := r.base + r.size - 2 ^ 16 + i; s.byte k == regionByte r.seed k

/-- The complete snapshot a region holds for a member of a GROUP (R375, R376), where the region is still the one SNAPRGN names. -/
def State.snapFor (s : State) (o : Option SnapRegion) (base size group self : Nat) : Option SnapData :=
  o.bind fun r =>
    if r.snap.complete && r.base == base && r.size == size && r.snap.group == group && r.snap.self == self && s.trailerStands r then some r.snap
    else none

/-- Dword `i` of SNAPRGN. -/
def State.rgn (s : State) (p i : Nat) : Nat := ((s.part p).snapRgn[i]?.getD 0).toNat

/-- A request is performed at its home, and answered: [3, 0, gwct], [3, 1, bytes], [3, 2, old, gwct], or [3, 3] where it fails. Only
a read consumes poison (R358). Command 3 of a member is answered with what the peer region holds for it (R376). -/
def State.serveRemote (s : State) (q : RemoteReq) : State :=
  let fail (s : State) : State := s.send [3, 3]
  let go (group va n : Nat) (wr rd : Bool) (k : Nat → List Loc → State → State) : State :=
    match s.groupPart group with
    | none => fail s
    | some p =>
      let s := if rd then s.settleReaders p else s
      let a : Acc := { part := p, cluster := Config.clusters, hnd := false }
      match xlateN s a va n wr (wr && rd) with
      | .error _ => fail (if wr then s.touch a (wr && rd) [(va, n)] else s)
      | .ok (ls, s) => if rd && (s.poisoned ls).isSome then fail s else k p ls s
  match q with
  | .put g va m bs => go g va bs.length true false fun p ls s => let (s, w) := s.remoteWrite p ls bs m; s.send [3, 0, w]
  | .snap g self =>
    match (s.groupPart g).bind fun p => s.snapFor (s.part p).peer (s.rgn p 2) (s.rgn p 3) g self with
    | some d => { s with mgmt := { s.mgmt with snapOut := s.mgmt.snapOut ++ [(self, d)] } }
    | none => fail s
  | .get g va n => go g va n false true fun p ls s => s.send (3 :: 1 :: (s.homeBytes p ls).map (·.toNat))
  | .amo g va op word v e =>
    let n := if word then 4 else 8
    go g va n true true fun p ls s =>
      let old := leNat (s.homeBytes p ls)
      let w := 8 * n
      let (s, k) := s.remoteWrite p ls (leBytes n (amoNew op w old (v.toNat % 2 ^ w) (e.toNat % 2 ^ w)))
      s.send [3, 2, old, k]

/-! Collectives (R372, R373). -/

/-- One combine of R373, in the type of R225. -/
def collCombine (red ty : Nat) (x y : Nat) : Nat :=
  let f : FFmt := if ty = 8 then fmtBf16 else fmtF32
  if ty = 8 ∨ ty = 9 then
    (match red with
     | 0 => (fArith2 f .rne (xadd .rne) x y).1
     | 1 => (fminmax f true x y).1
     | _ => (fminmax f false x y).1)
  else
    let w := if ty = 3 then 32 else 64
    match red with
    | 0 => (x + y) % 2 ^ w
    | 1 => if sextI x w ≤ sextI y w then y else x
    | _ => if sextI x w ≤ sextI y w then x else y

/-- Insert a member in ascending SELF order. -/
def insertMember (m : Member) : List Member → List Member
  | [] => [m]
  | k :: t => if m.self ≤ k.self then m :: k :: t else k :: insertMember m t

/-- Members in ascending SELF order. -/
def sortMembers (l : List Member) : List Member := l.foldr insertMember []

/-- Combine a list in its order. -/
def foldComb (f : Nat → Nat → Nat) : List Nat → Nat
  | [] => 0
  | x :: t => t.foldl f x

/-- Element `n` of a reduction (R373): each switch group in ascending SELF order, then the groups by lowest SELF. -/
def collElem (red ty : Nat) (ms : List Member) (n : Nat) : Nat :=
  let ms := sortMembers ms
  let groups := (ms.map (·.group)).foldl (fun (l : List Nat) g => if l.contains g then l else l ++ [g]) []
  foldComb (collCombine red ty) (groups.map fun g =>
    foldComb (collCombine red ty) ((ms.filter (·.group == g)).map fun m => m.data.getD n 0))

/-- The values one member receives (R225, R373). `self` is its index, `ms` every member, `spann` their number. -/
def collResult (d : List Nat) (ms : List Member) (self spann : Nat) : List Nat :=
  let w := d.headD 0
  let (op, red, ty, root) := (bits w 0 8, bits w 8 8, bits w 16 8, bits w 32 32)
  let n := d.getD 1 0
  match op with
  | 0 => (List.range n).map (collElem red ty ms)
  | 1 => (List.range n).map fun i => collElem red ty ms (self * n + i)
  | 2 => (sortMembers ms).flatMap fun m => (List.range n).map fun i => m.data.getD i 0
  | 3 => (List.range n).map fun i => (((ms.find? (·.self == root)).map (·.data)).getD []).getD i 0
  | _ => let _ := spann; []

/-- Elements a member contributes (R225): reduce-scatter takes a COUNT for each member. -/
def collSend (d : List Nat) (spann : Nat) : Nat :=
  let n := d.getD 1 0
  match bits (d.headD 0) 0 8 with
  | 0 | 2 | 3 => n
  | 1 => n * spann
  | _ => 0

/-- The flat tensor of a collective's source or destination. -/
def collShape (base ty n : Nat) : Shape :=
  { base := base, rank := 1, fmt := (Fmt.ofCode ty).getD .i32, ext := [n], str := [((fmtBytes ((Fmt.ofCode ty).getD .i32) .none : Nat) : Int)] }

/-- Two descriptors agree (R372). -/
def collAgree (a b : List Nat) : Bool := a.headD 0 == b.headD 0 && a.getD 1 0 == b.getD 1 0

end Sys2Proof.Machine
end

