-- ==== Sys2Proof/Machine/Block.lean ====
section
/-! DEFINITION. Atomic instruction blocks: decoding one whole (R27, R28, R103 to R105, R264), `vf` (R137) and `vf.d` (R264). -/

namespace Sys2Proof.Machine

/-- tf, tfc and tstop (R29, R104 step 6). -/
def endsBlock (i : Instr) : Bool :=
  match i with
  | .tf _ | .tfc .. | .tstop => true
  | _ => false

/-- An instruction of the table of R152: it reads or writes elements other than its own, and is ILLOP in a thread block (R40, R103). -/
def crossWord (w : Nat) (i : Instr) : Bool :=
  bits w 26 6 == 0x24 || (match i with
    | .vretag .. | .mlist .. | .mbits .. | .mpop .. | .mfirst .. | .vpopx .. | .vsegl .. => true
    | _ => false)

/-- The word has an operand of kind 1 or a stream operand (R97). -/
def threadOperandBad (w : Nat) : Bool :=
  let op := bits w 26 6
  let fn := bits w 0 3
  let k := bits w 6 2
  let v := (0x20 ≤ op && op ≤ 0x25) || (op == 0x26 && (fn == 4 || fn == 5))
  v && (k == 1 || (k == 3 && bits w 14 2 == 1))

/-- Steps 1 to 3 of R104 on a word of a drain block: those of a vector-fetched one, and the opcodes R264 lets stand there. -/
def drainPlace (w : Nat) : Option Code :=
  match placeFault .block w with
  | some c => some c
  | none =>
    let op := bits w 26 6
    if op = 0x20 ∨ op = 0x22 ∨ (op = 0x21 ∧ bits w 0 6 ≠ 13) then none else some .wrongstream

/-- The operands R264 keeps a word of a drain block from: a stream, and a destination at v15 or above. -/
def drainFault (w : Nat) : Option Code :=
  if bits w 6 2 = 3 ∧ bits w 14 2 = 1 then some .illop
  else if 15 ≤ bits w 21 5 then some .illop
  else none

/-- Where a block is decoded for. -/
inductive BlkUse where
  | vf
  | thread
  | drain
deriving DecidableEq, Repr

/-- The operands of a drain word below v15, v24 as a source apart (R264). -/
def drainSpans (r : Row) (sl : Slice) (tagOf : Nat → Tag) (i : Instr) : Bool :=
  (laneLimits (limEnv r sl tagOf) i).all fun p => p.1 == 24 || p.1 + gop sl.ew sl.grp p.2 ≤ 15

/-- The fault of one word of a block at position `n` of `len` (R104), with the tags and VGRP of the slices. -/
def wordFault (u : BlkUse) (r : Row) (sl : Slice) (len n w : Nat) : Option Code :=
  match (if u = .drain then drainPlace w else none), decodeAt (if u = .thread then .thread else .block) w with
  | some c, _ => some c
  | none, .error c => some c
  | none, .ok i =>
    let tagOf (k : Nat) : Tag := if u = .drain ∧ k = 24 then .f32 else (sl.reg k).tag
    match (if u = .drain then drainFault w else none) with
    | some c => some c
    | none =>
      if u = .thread && (threadOperandBad w || crossWord w i) then some .illop
      else if !limitsOk r sl tagOf (fun k => u == .drain && k == 24) i then some .illop
      else if u = .drain && !drainSpans r sl tagOf i then some .illop
      else if endsBlock i && n + 1 != len then some .illop
      else none

/-- The first failing word of a block's words, with its position. -/
def wordsFault (u : BlkUse) (r : Row) (sl : Slice) (len : Nat) : List Nat → Nat → Option (Nat × Code)
  | [], _ => none
  | w :: t, n =>
    match wordFault u r sl len n w with
    | some c => some (n, c)
    | none => wordsFault u r sl len t (n + 1)

/-- What a block's decoding gives: the header and words; or the address that fails and its code. -/
abbrev BlkRes := Except (Word × Code) (Header × List (BitVec 32))

/-- Decode the block at `p` whole (R105): the header first, then its words in order; a word outside the overlay is OVLMISS (R43). -/
def decodeBlock (u : BlkUse) (s : State) (r : Row) (p : Word) : BlkRes :=
  match r.fetchWord p with
  | none => .error (p, .ovlmiss)
  | some h =>
    match decodeHeader h with
    | none => .error (p, .illop)
    | some hd =>
      if !hd.legal || (u == .drain && (decide (4 < hd.len) || hd.tfp || hd.seta != 15 || hd.setb != 15)) then .error (p, .illop)
      else if u = .thread && !hd.tfp then .error (p, .tfdeny)
      else
        let ws := (List.range hd.len).map fun n => r.fetchWord (wordAddr p n)
        let got := (ws.takeWhile Option.isSome).filterMap id
        match wordsFault u r (s.slice r) hd.len got 0 with
        | some (n, c) => .error (wordAddr p n, c)
        | none =>
          if got.length = hd.len then .ok (hd, got.map (BitVec.ofNat 32)) else .error (wordAddr p got.length, .ovlmiss)

/-- The target of a block word: PC + 4 × the displacement. -/
def blockTarget (th : Thread) (disp : BitVec 21) : Word := th.pc + disp.signExtend 64 <<< 2

/-- A decode fault at a `vf` (R105): PC names the failing word, HEADER the block, RESUME the `vf`. -/
def vfFault (th : Thread) (target at_ : Word) (c : Code) : FInfo :=
  { code := c, pc := at_, header := target, resume := some th.pc }

/-- The header of a block whose words are not yet fetched. -/
def Header.unread : Header := { len := 1, wait := 0, seta := 15, setb := 15, tfp := false }

/-- The block a `vf` queues, with its captured scalar operands (R59, R137). -/
def newRun (s : State) (r : Row) (th : Thread) (target : Word) (hd : Header) (ws : List (BitVec 32)) (late : Bool) : LaneRun :=
  { vfpc := th.pc, header := target, hd := hd, words := ws, idx := 0, started := false, x := th.x, sb := r.sb, xs := th.x
    ops := [], flagged := [], sends := [], rcvd := [], late := late, since := s.clock.cycle }

/-- VF (R31, R43, R105, R137): the block is decoded whole, its scalar operands captured, and queued. Behind a block that has not ended it is
queued undecoded: its tags are those that control-stream order gives (R104), and it takes a decoding's fault when it starts. -/
def execVf (disp : BitVec 21) (s : State) : Out :=
  ctlRow true true (fun r th s =>
    if !(s.slice r).strip.opn then .fault s (th.flt .nostrip)
    else
      let target := blockTarget th disp
      if !r.blocks.isEmpty then
        .done (s.modRow r.id fun q => { q with blocks := q.blocks ++ [newRun s r th target Header.unread [] true] })
      else match decodeBlock .vf s r target with
      | .error (p, c) => .fault s (vfFault th target p c)
      | .ok (hd, ws) =>
        .done (s.modRow r.id fun q =>
          { q with blocks := q.blocks ++ [newRun s r th target hd ws false], stepVf := if q.stepping.isSome then some th.pc else none })) s

/-- VF_D (R264): it arms the drain block; a failed one leaves the earlier arming in place. -/
def execVfD (disp : BitVec 21) (s : State) : Out :=
  ctlRow false true (fun r th s =>
    let target := blockTarget th disp
    if !r.mxon then .fault s (th.flt .wrongstream)
    else match decodeBlock .drain s r target with
    | .error (p, c) => .fault s (vfFault th target p c)
    | .ok (hd, ws) =>
      .done (s.modRow r.id fun q =>
        { q with drain := some { header := target, hd := hd, words := ws, x := th.x, sb := r.sb, rm := none } })) s

end Sys2Proof.Machine
end

