-- ==== Sys2Proof/Machine/Matrix.lean ====
section
/-! DEFINITION. The matrix unit (R246 to R273): mxon and mxoff, the words of 0x2C, and what the unit does when an operation starts.
acc, part and rowsum are held in v15 to v31 of the holder at all times (R248). -/

namespace Sys2Proof.Machine

/-! The tiles in v15 to v31 (R248). -/

/-- Elements of acc (v24) or part (v16), row by row. -/
def Slice.tile (sl : Slice) (w vB : Nat) : List Nat := (List.range (128 * w)).map fun e => sl.elem w vB 32 e

/-- rowsum. -/
def Slice.rowsum (sl : Slice) (w : Nat) : List Nat := (List.range 64).map fun i => sl.elem w 15 32 i

/-- Set VDIRTY of registers `a` to `b` (R72). -/
def Slice.dirty (sl : Slice) (a b : Nat) : Slice := { sl with vdirty := sl.vdirty ||| BitVec.ofNat 32 (2 ^ (b + 1) - 2 ^ a) }

/-- Write a tile or rowsum. -/
def Slice.putTile (sl : Slice) (w vB last : Nat) (l : List Nat) : Slice :=
  ((l.zipIdx).foldl (fun sl p => sl.pokeElem w vB 32 p.2 p.1) sl).dirty vB last

/-- Every byte of registers `a` to `b` becomes 0. -/
def Slice.zeroRegs (sl : Slice) (a b : Nat) : Slice :=
  (((List.range (b + 1)).drop a).foldl (fun sl n => sl.modReg n fun q => { q with bytes := [], fill := .val 0 }) sl).dirty a b

/-- Give registers `a` to `b` a tag and an HWM (R247, R249). -/
def Slice.markRegs (sl : Slice) (a b : Nat) (t : Tag) (hwm : Nat) : Slice :=
  (((List.range (b + 1)).drop a).foldl (fun sl n => sl.modReg n fun q => { q with tag := t, hwm := hwm }) sl).dirty a b

/-! Holding the unit (R246). -/

/-- Change the matrix unit of a cluster. -/
def State.modUnit (s : State) (c : Nat) (f : MUnit → MUnit) : State := s.modCluster c fun q => { q with mx := f q.mx }

/-- The unit in its acquisition state, held by a row (R246, R253). -/
def MUnit.acquire (u : MUnit) (row : Nat) : MUnit :=
  { MUnit.fresh with holder := some row, waiting := u.waiting.filter (· != row), throttled := u.throttled }

/-- Ask for the unit: hold it, become holder of a free unit, or wait. -/
def State.askUnit (s : State) (r : Row) : State × Bool :=
  let u := (s.cluster r.cluster).mx
  if u.holder = some r.id then (s, true)
  else if u.holder = none ∧ (u.waiting.isEmpty ∨ u.waiting.head? = some r.id) then
    (s.modUnit r.cluster fun u => u.acquire r.id, true)
  else if u.waiting.contains r.id then (s, false)
  else (s.modUnit r.cluster fun u => { u with waiting := u.waiting ++ [r.id] }, false)

/-- MATRIX_UNIT_GRANT: the first waiting row becomes holder of a free unit; its `mxon` executes again. -/
def State.grantUnit (s : State) (c : Nat) : Option State :=
  match (s.cluster c).mx.holder, (s.cluster c).mx.waiting with
  | none, r :: _ =>
    let s := s.modUnit c fun u => u.acquire r
    some (if s.waitOf (.ctl r) = some .mxon then s.setWait (.ctl r) none else s)
  | _, _ => none

/-- The effect of `mxon` on the row and its slices once it holds the unit (R247). -/
def State.enterMatrix (s : State) (r : Row) (zp band keep : Bool) : State :=
  let s := s.modSlice r fun sl =>
    let sl := sl.setVgrp r.w 2 3
    let sl := { sl with vl := vlmaxOf r.w 2 3 }
    let sl := sl.markRegs 15 31 .macc (16 * r.w)
    if keep then sl.zeroRegs 15 23 else sl.zeroRegs 15 31
  let s := s.modUnit r.cluster fun u => { u with bandk := 0 }
  s.modRow r.id fun q => { q with zp := zp, band := band, mxon := true, mxrow := 0, mxk := 0, drain := none }

/-- MXON (R246, R247). -/
def execMxon (zp band keep : Bool) (s : State) : Out :=
  ctlRow false true (fun r th s =>
    let sl := s.slice r
    if r.threadLive then .fault s (th.flt .threadlive)
    else if r.nregCode ≠ 3 ∨ (zp && band) = true then .fault s (th.flt .illop)
    else if keep && ((List.range 8).any fun i => (sl.reg (24 + i)).tag != .f32) then .fault s (th.flt .tagmix)
    else s.closing r fun s =>
      let (s, held) := s.askUnit r
      if held then .done (s.enterMatrix r zp band keep)
      else .stall (s.setWait (.ctl r.id) (some .mxon))) s

/-! The latch (R253 to R258). -/

/-- The value +0. -/
def xzero : XF := .fin false 0 0

/-- The value +0 in any form. -/
def XF.isPosZero : XF → Bool
  | .fin false 0 _ => true
  | _ => false

/-- A finite value. -/
def XF.isFin : XF → Bool
  | .fin .. => true
  | _ => false

/-- The value 1. -/
def xone : XF := .fin false 1 0

/-- The origin of a latch format (R254). -/
def latchOrigin : Fmt → Nat
  | .fp16 | .bf16 => 16
  | .i4 | .fp4b | .q4l => 4
  | _ => 8

/-- The exact value of a cell and the band scale its record gives (R254). -/
def latchCell (f : Fmt) (cb : List Nat) (shift : Nat) (bs : List (List Byte)) : XF × XF :=
  let w := bs.map leNat
  let b0 := w.headD 0
  match f with
  | .i8 => (xint (sextI b0 8), xone)
  | .i4 => (xint (sextI (bits b0 shift 4) 4), xone)
  | .fp16 => (fmtFp16.decode b0, xone)
  | .bf16 => (fmtBf16.decode b0, xone)
  | .e4m3 => (fmtE4m3.decode b0, xone)
  | .e5m2 => (fmtE5m2.decode b0, xone)
  | .fp4b => ((xmul (decodeE2m1 (bits b0 shift 4)) (decodeE3m5 (w.getD 1 0))).1, fmtBf16.decode (w.getD 2 0))
  | .e4m3b => (fmtE4m3.decode b0, fmtBf16.decode (w.getD 1 0))
  | .q4l => (fmtBf16.decode (cb.getD (bits b0 shift 4) 0), xone)
  | _ => (xzero, xone)

/-- Replace row `r` of a half. -/
def LHalf.setRow (h : LHalf) (r : Nat) (cells : List XF) (scale : XF) : LHalf :=
  let new := (cells.zipIdx.filter fun p => !p.1.isPosZero).map fun p => (r * 128 + p.2, p.1)
  { h with
    cells := (h.cells.filter fun p => decide (p.1 < r * 128)) ++ new ++ h.cells.filter fun p => decide (r * 128 + 128 ≤ p.1)
    scale := if scale = xone then FMap.erase h.scale r else FMap.set h.scale r scale }

/-- The cells of row `r` of a half (a column of B). -/
def LHalf.row (h : LHalf) (r : Nat) : List XF :=
  let c := (h.cells.filter fun p => p.1 / 128 == r).map fun p => (p.1 % 128, p.2)
  (List.range 128).map fun k => FMap.getD c k xzero

/-- One row of a latch load read from memory (R254, R255). -/
def latchRow (s : State) (a : Acc) (f : Fmt) (cb : List Nat) (ra : Nat) : Except AFault (List XF × XF × State) :=
  if ra % runAlign f ≠ 0 then .error { code := .misalign, addr1 := ra, addr2 := 0 }
  else
    let spots := (List.range 128).map fun k => runSpot f .none ra k k
    match manyLocs s a false true spots with
    | .error (_, e) => .error e
    | .ok (ls, s) =>
      match (spots.zip ls).findSome? fun p => s.spotPoison p.1 p.2 with
      | some ad => .error { code := .memerr, addr1 := ad, addr2 := 0 }
      | none =>
        let cs := (spots.zip ls).map fun p => latchCell f cb p.1.shift (p.2.map fun l => s.homeBytes a.part l)
        .ok (cs.map (·.1), (cs.headD (xzero, xone)).2, s.refresh a.cluster (ls.flatten.flatten))

/-- Load rows of a half; a row without an address becomes +0 with scale 1 (R255, R256). The row and fault that stop it. -/
def latchRows (a : Acc) (f : Fmt) (cb : List Nat) : List (Nat × Option Nat) → LHalf → State → LHalf × State × Option (Nat × AFault)
  | [], h, s => (h, s, none)
  | (r, none) :: t, h, s => latchRows a f cb t (h.setRow r [] xone) s
  | (r, some ra) :: t, h, s =>
    match latchRow s a f cb ra with
    | .error e => (h, s, some (r, e))
    | .ok (cells, sc, s) => latchRows a f cb t (h.setRow r cells sc) s

/-- The half of a side. -/
def halfIx (side half : Bool) : Nat := side.toNat * 2 + half.toNat

/-- Put a half into the latch, the last loaded one of its side (R253). -/
def MUnit.putHalf (u : MUnit) (side half : Bool) (h : LHalf) : MUnit :=
  { u with half := u.half.set (halfIx side half) h
           lastA := if side then u.lastA else half
           lastB := if side then half else u.lastB }

/-- What an operation of the unit gives: the state, and the row and fault it stops at. -/
abbrev MxRes := State × Option (Nat × AFault)

/-- A fault of the unit that names no address. -/
def mxFault (s : State) (f : Nat) (c : Code) : MxRes := (s, some (f, { code := c, addr1 := 0, addr2 := 0 }))

/-- Load rows from memory into a half (R251, R253, R255, R256), from row `o.f` on. -/
def State.latchLoad (s : State) (o : Op) (side half : Bool) (f : Fmt) (rows : List (Nat × Option Nat)) : MxRes :=
  let s := s.settle o.row
  let u := (s.cluster o.cluster).mx
  let h0 := if o.f = 0 then LHalf.fresh else u.half.getD (halfIx side half) LHalf.fresh
  let (h, s, e) := latchRows { part := o.part, cluster := o.cluster, hnd := false } f u.codebook
    (rows.filter fun p => decide (o.f ≤ p.1)) { h0 with origin := latchOrigin f } s
  (s.modUnit o.cluster fun u => u.putHalf side half h, e)

/-- A vector operand of a matrix word (R257, R258, R266): its limits, its tag, and that it stays below v15. -/
def matVec (r : Row) (sl : Slice) (v : Reg) (ok : Tag → Bool) : Except Code Tag :=
  let t := (sl.reg v).tag
  if !operandOk sl (nregOf r.nregCode) v t.width then .error .illop
  else if !ok t then .error .tagmix
  else if 15 < v.val + gop sl.ew sl.grp t.width then .error .illop
  else .ok t

/-- The index register of `mlatg` (R256). -/
def matIdx (r : Row) (sl : Slice) (v : Reg) : Except Code Tag :=
  let t := (sl.reg v).tag
  if !operandOk sl (nregOf r.nregCode) v t.width then .error .illop
  else if !t.isInt then .error .tagmix
  else .ok t

/-- Tags `mlatv` accepts. -/
def latvTag (t : Tag) : Bool := t == .bf16 || t == .i8

/-- A half loaded from an operand (R257). -/
def latvHalf (sl : Slice) (w : Nat) (side : Bool) (v : Reg) (t : Tag) : LHalf :=
  let val (q c : Nat) : XF :=
    let x := sl.elem w v t.width (q * 2 * w + c)
    if t = .bf16 then fmtBf16.decode x else xint (sextI x 8)
  let h := { LHalf.fresh with origin := if t = .bf16 then 16 else 8 }
  if side then
    (List.range (2 * w)).foldl (fun h c => h.setRow c ((List.range 64).map fun q => val q c) xone) h
  else
    (List.range 64).foldl (fun h q => h.setRow q ((List.range (2 * w)).map fun c => val q c) xone) h

/-! Rank-one steps and folds (R259 to R262). -/

/-- rne(x + y, f32) with flags; a signalling accumulator sets NV (R84). -/
def accAdd (x : Nat) (y : XF) (fl : Nat) : Nat × Nat :=
  let (z, g) := xadd .rne (fmtF32.decode x) y
  let (r, h) := roundX fmtF32 .rne z
  (r, orF (orF fl g) (orF h (snanFlag fmtF32 [x])))

/-- One step on one element: value and flags (R259). -/
def macCell (p : Nat × Nat) (ab : XF × XF) : Nat × Nat :=
  let (a, b) := ab
  if (a.isPosZero && b.isFin) || (b.isPosZero && a.isFin) then p
  else
    let (m, f) := xmul a b
    let (r, g) := accAdd p.1 m f
    (r, orF p.2 g)

/-- Steps `lo` to `hi` − 1 on a tile (R259). -/
def macTile (w lo hi : Nat) (ha hb : LHalf) (t : List Nat) : List Nat × Nat :=
  let cut (l : List XF) : List XF := (l.take hi).drop lo
  let A := (List.range 64).map fun i => cut (ha.row i)
  let B := (List.range (2 * w)).map fun j => cut (hb.row j)
  let cells := (A.flatMap fun a => B.map fun b => a.zip b)
  let out := List.zipWith (fun (x : Nat) (l : List (XF × XF)) => l.foldl macCell (x, 0)) t cells
  (out.map (·.1), out.foldl (fun f p => orF f p.2) 0)

/-- rowsum over steps `lo` to `hi` − 1 (R259). -/
def sumRows (lo hi : Nat) (ha : LHalf) (l : List Nat) : List Nat × Nat :=
  let out := (l.zipIdx).map fun p => (((ha.row p.2).take hi).drop lo).foldl (fun q a =>
    let (r, g) := accAdd q.1 a 0
    (r, orF q.2 g)) (p.1, 0)
  (out.map (·.1), out.foldl (fun f p => orF f p.2) 0)

/-- rne(acc + rne(part × SA × SB)) (R262). -/
def foldCell (acc part : Nat) (sa sb : XF) : Nat × Nat :=
  let (p, f) := xmul (fmtF32.decode part) sa
  let (q, g) := xmul p sb
  let (m, h) := roundX fmtF32 .rne q
  let (r, k) := accAdd acc (fmtF32.decode m) 0
  (r, orF (orF (orF f g) (orF h k)) (snanFlag fmtF32 [part]))

/-- OR flags into a row's FFLAGS (R260). -/
def State.orFlags (s : State) (row fl : Nat) : State := s.modRow row fun q => { q with fflags := q.fflags ||| fl }

/-- Fold the open band (R262). -/
def State.foldBand (s : State) (r : Row) : State :=
  let u := (s.cluster r.cluster).mx
  let sl := s.slice r
  let sa := (u.half.getD (halfIx false u.openHA) LHalf.fresh).scale
  let sb := (u.half.getD (halfIx true u.openHB) LHalf.fresh).scale
  let out := (List.zipWith Prod.mk (sl.tile r.w 24) (sl.tile r.w 16)).zipIdx.map fun p =>
    foldCell p.1.1 p.1.2 (FMap.getD sa (p.2 / (2 * r.w)) xone) (FMap.getD sb (p.2 % (2 * r.w)) xone)
  let s := s.modSlice r fun sl => (sl.putTile r.w 24 31 (out.map (·.1))).zeroRegs 16 23
  (s.modUnit r.cluster fun u => { u with bandk := 0 }).orFlags r.id (out.foldl (fun f p => orF f p.2) 0)

/-- Steps `lo` to `hi` − 1 of one operation on the row's tile and, for `mopz`, rowsum. -/
def State.stepsRun (s : State) (r : Row) (z ha hb : Bool) (lo hi : Nat) : State :=
  let u := (s.cluster r.cluster).mx
  let sl := s.slice r
  let A := u.half.getD (halfIx false ha) LHalf.fresh
  let B := u.half.getD (halfIx true hb) LHalf.fresh
  let vB := if r.band then 16 else 24
  let (t, f) := macTile r.w lo hi A B (sl.tile r.w vB)
  let (q, g) := if z then sumRows lo hi A (sl.rowsum r.w) else ([], 0)
  ((s.modSlice r fun sl =>
      let sl := sl.putTile r.w vB (vB + 7) t
      if z then sl.putTile r.w 15 15 q else sl).orFlags r.id (orF f g)).modRow r.id fun q => { q with mxk := hi }

/-- The steps of a `mop` in band mode up to the band's end, and the fold there (R259, R261). -/
def State.bandRun (s : State) (r : Row) (z ha hb : Bool) (lo hi : Nat) : State :=
  let u := (s.cluster r.cluster).mx
  let s := if u.bandk = 0 then s.modUnit r.cluster fun u => { u with openHA := ha, openHB := hb } else s
  let s := s.stepsRun r z ha hb lo hi
  let n := u.bandk + (hi - lo)
  let s := s.modUnit r.cluster fun u => { u with bandk := n }
  if n = 128 then s.foldBand r else s

/-- Steps `lo` to `hi` − 1 of `mop` and `mopz` (R259). -/
def State.mopRun (s : State) (r : Row) (z ha hb : Bool) (lo hi : Nat) : State :=
  if r.band then
    let u := (s.cluster r.cluster).mx
    let s := if u.bandk ≠ 0 ∧ (u.openHA ≠ ha ∨ u.openHB ≠ hb) then s.foldBand r else s
    let mid := min hi (lo + (128 - (s.cluster r.cluster).mx.bandk))
    let s := s.bandRun r z ha hb lo mid
    if mid < hi then s.bandRun r z ha hb mid hi else s
  else s.stepsRun r z ha hb lo hi

/-- Steps of a group (R269, R271): by the wider origin of the two halves. -/
def MUnit.group (u : MUnit) (ha hb : Bool) : Nat :=
  let o (i : Nat) : Nat := (u.half.getD i LHalf.fresh).origin
  let w := max (o (halfIx false ha)) (o (halfIx true hb))
  if w = 16 then 1 else if w = 8 then 2 else 4

/-- The next group of a `mop`'s steps (R259, R271): MXK is 0 when it starts, and names the step it goes on with. -/
def State.mopPart (s : State) (r : Row) (o : Op) (z ha hb : Bool) (k : Nat) : State :=
  let lo := if o.f = 0 then 0 else r.mxk
  let hi := min k (lo + (s.cluster r.cluster).mx.group ha hb)
  let s := if lo < hi then s.mopRun r z ha hb lo hi else s
  s.modOp o.id fun q => { q with f := hi, started := decide (k ≤ hi) }

/-! Drains (R264 to R266). -/

/-- The value the drain source takes with a scale and a zero point (R266). -/
def scaledCell (acc rs : Nat) (sv zv : XF) : Nat × Nat :=
  let (p, f) := xmul zv (fmtF32.decode rs)
  let (d, g) := xadd .rne (fmtF32.decode acc) (xneg p)
  let (q, h) := xmul sv d
  let (r, k) := roundX fmtF32 .rne q
  (r, orF (orF f g) (orF h (orF k (snanFlag fmtF32 [acc, rs]))))

/-- D of accumulator row `i` (R265, R266), with the flags. -/
def drainSource (sl : Slice) (w i : Nat) (sc : Option (List (XF × XF) × Nat)) : List Nat × Nat :=
  let acc := (List.range (2 * w)).map fun j => sl.elem w 24 32 (i * 2 * w + j)
  match sc with
  | none => (acc, 0)
  | some (l, fl) =>
    let rs := sl.elem w 15 32 i
    let out := List.zipWith (fun (a : Nat) (p : XF × XF) => scaledCell a rs p.1 p.2) acc l
    (out.map (·.1), out.foldl (fun f p => orF f p.2) fl)

/-- The limits a drain word must still meet (R104 step 5, R264). -/
def drainWordOk (r : Row) (sl : Slice) (i : Instr) : Bool :=
  let tagOf (k : Nat) : Tag := if k = 24 then .f32 else (sl.reg k).tag
  limitsOk r sl tagOf (fun k => k == 24) i && drainSpans r sl tagOf i

/-- The words of a drain block on one row: view and corrected lanes; `read` is how a word runs, with the parity check of its reads or without. -/
def drainWords (read : LOp → LV → Except LErr (LV × List Nat)) : List (BitVec 32) → LV → List Nat → Except LErr (LV × List Nat)
  | [], v, l => .ok (v, l)
  | w :: t, v, l =>
    match decodeWord w.toNat with
    | none => .error (.at .illop v.lo)
    | some i =>
      if !drainWordOk v.r v.sl i then .error (.at .illop v.lo)
      else
        match laneSem i with
        | none => .error (.at .illop v.lo)
        | some op =>
          match read op v with
          | .error e => .error e
          | .ok (v, k) => drainWords read t v (l ++ k)

/-- The value of a scale or zero-point element (R266). -/
def scaleVal (t : Tag) (x : Nat) : XF := if t = .bf16 then fmtBf16.decode x else fmtF32.decode x

/-- The scales and zero points of `mdrain.sz`, with the flags of signalling inputs (R266). -/
def drainScales (r : Row) (sl : Slice) : Option (Reg × Reg) → Except Code (Option (List (XF × XF) × Nat))
  | none => .ok none
  | some (vs, vz) => do
    let ts ← matVec r sl vs (·.isFloat)
    let tz ← matVec r sl vz (·.isFloat)
    let sv := (List.range (2 * r.w)).map fun j => sl.elem r.w vs ts.width j
    let zv := (List.range (2 * r.w)).map fun j => sl.elem r.w vz tz.width j
    .ok (some (List.zipWith (fun a b => (scaleVal ts a, scaleVal tz b)) sv zv, orF (snanFlag ts.ffmt sv) (snanFlag tz.ffmt zv)))

/-- What a drain stops at: the code and the address of its fault (R252). -/
abbrev DrainErr := Code × Nat

/-- Words of a drain block on the row MXROW names (R265, R266), under the scales, the FRM and the VXRM of the drain's start. -/
def State.drainRow (s : State) (r : Row) (blk : DrainBlk) (ws : List (BitVec 32))
    (read : LOp → LV → Except LErr (LV × List Nat)) : Except DrainErr State :=
  let sl := s.slice r
  let b := r.mxrow * 2 * r.w
  let (d, fl) := drainSource sl r.w r.mxrow blk.sc
  let rm := blk.rm.getD (r.frm, r.vxrm)
  let v : LV :=
    { r := { r with fflags := r.fflags ||| fl, frm := rm.1, vxrm := rm.2 }, sl := sl, free := s.clock.free
      acts := (List.range (2 * r.w)).map (b + ·), lo := b, vl := b + 2 * r.w, thr := none, drain := some (b, d), x := blk.x
      sb := blk.sb, sends := [], rcvd := [], rd := [], wr := [], els := [], whole := [], pend := none }
  match drainWords read ws v [] with
  | .error (.fault c _ a _ _) => .error (c, a)
  | .error .stall | .error (.await ..) => .error (.illop, 0)
  | .ok (v, lanes) => .ok ((s.putLV { v with r := { v.r with frm := r.frm, vxrm := r.vxrm } }).logParity r.part r.cluster lanes)

/-- The row a drain takes is done: MXROW names the next (R265). -/
def State.nextDrainRow (s : State) (row : Nat) : State := s.modRow row fun q => { q with mxrow := (q.mxrow + 1) % 64 }

/-- The tag-dependent faults of a drain of `n` rows: they are found when it starts (R265). -/
def State.drainFault (s : State) (row : Nat) (blk : DrainBlk) : Nat → Option DrainErr
  | 0 => none
  | n + 1 =>
    match s.row? row with
    | none => none
    | some r =>
      match s.drainRow r blk blk.words fun op v => (op v).map fun w => (w, []) with
      | .error e => some e
      | .ok s => (s.nextDrainRow row).drainFault row blk n

/-- A drain of `n` rows starts (R251, R264 to R266): its scales, FRM and VXRM are read, and its limits and tags are judged with the tags
then current. -/
def State.drainStart (s : State) (r : Row) (n : Nat) (scaled : Option (Reg × Reg)) (blk : DrainBlk) : Except DrainErr DrainBlk :=
  if blk.rm.isSome then .ok blk
  else
    match drainScales r (s.slice r) scaled with
    | .error c => .error (c, 0)
    | .ok sc =>
      let blk := { blk with rm := some (r.frm, r.vxrm), sc := sc, pos := 0 }
      if !((blk.words.filterMap fun w => decodeWord w.toNat).all (drainWordOk r (s.slice r))) then .error (.illop, 0)
      else
        match s.drainFault r.id blk n with
        | some e => .error e
        | none => .ok blk

/-- The next word of a drain with `n` rows left, on the row MXROW names (R265, R344); after the last word the row is done (R271). A fault
found in a word stops the drain there, and the rows before stay drained (R252). -/
def State.drainPart (s : State) (r : Row) (o : Op) (n : Nat) (scaled : Option (Reg × Reg)) (blk : DrainBlk) : MxRes :=
  let stop (e : DrainErr) : MxRes := (s, some (r.mxrow, { code := e.1, addr1 := e.2, addr2 := 0 }))
  match s.drainStart r n scaled blk with
  | .error e => stop e
  | .ok blk =>
    match s.drainRow r blk ((blk.words.drop blk.pos).take 1) fun op => op.checked (s.cluster r.cluster).xorOk with
    | .error e => stop e
    | .ok s =>
      let blk := { blk with since := s.clock.cycle }
      if blk.pos + 1 < blk.words.length then (s.modOp o.id fun q => { q with kind := .mdrain n scaled { blk with pos := blk.pos + 1 } }, none)
      else
        ((s.nextDrainRow r.id).modOp o.id fun q =>
          { q with kind := .mdrain (n - 1) scaled { blk with pos := 0 }, started := decide (n ≤ 1) }, none)

/-! The unit. -/

/-- What an operation that runs whole does in the unit (R251 to R267). -/
def State.matrixWhole (s : State) (r : Row) (o : Op) : MxRes :=
  let sl := s.slice r
  match o.kind with
  | .mzero =>
    ((s.modSlice r fun sl => sl.zeroRegs 15 31).modUnit r.cluster fun u => { u with bandk := 0 }, none)
  | .mlat side half base stride fmt _ =>
    s.latchLoad o side half fmt ((List.range (if side then 2 * r.w else 64)).map fun i =>
      (i, some (lowBits (base.toNat + (i : Int) * stride.toInt) 64)))
  | .mlatg half base vi fmt _ =>
    (match matIdx r sl vi with
     | .error c => mxFault s o.f c
     | .ok t => s.latchLoad o false half fmt ((List.range 64).map fun i =>
         let x := sl.elem r.w vi t.width i
         (i, if x = 2 ^ t.width - 1 then none else some (lowBits (base.toNat + sextI x t.width) 64))))
  | .mlatv side half vs =>
    (match matVec r sl vs latvTag with
     | .error c => mxFault s o.f c
     | .ok t => (s.modUnit r.cluster fun u => u.putHalf side half (latvHalf sl r.w side vs t), none))
  | .mlut vc =>
    (match matVec r sl vc (· == .bf16) with
     | .error c => mxFault s o.f c
     | .ok _ => (s.modUnit r.cluster fun u => { u with codebook := (List.range 16).map fun e => sl.elem r.w vc 16 e }, none))
  | .mband side vs =>
    (match matVec r sl vs (· == .bf16) with
     | .error c => mxFault s o.f c
     | .ok _ =>
       let n := if side then 2 * r.w else 64
       (s.modUnit r.cluster fun u =>
         let h := halfIx side (if side then u.lastB else u.lastA)
         let sc := ((List.range n).map fun e => (e, fmtBf16.decode (sl.elem r.w vs 16 e))).filter fun p => p.2 != xone
         { u with half := u.half.set h { u.half.getD h LHalf.fresh with
             scale := sc ++ (u.half.getD h LHalf.fresh).scale.filter fun p => decide (n ≤ p.1) } }, none))
  | .mfold => ((if (s.cluster r.cluster).mx.bandk ≠ 0 then s.foldBand r else s), none)
  | .mrow n => (s.modRow r.id fun q => { q with mxrow := n }, none)
  | _ => (s, none)

/-- What the operation at the head of the unit does next (R251, R271): a group of steps of a `mop`, a word of a drain, or the whole of another.
With its last part it is `started`, and waits only for its completion. -/
def State.matrixRun (s : State) (r : Row) (o : Op) : MxRes :=
  match o.kind with
  | .mop z ha hb k => (s.mopPart r o z ha hb k, none)
  | .mdrain n scaled blk => s.drainPart r o n scaled blk
  | _ =>
    match s.matrixWhole r o with
    | (s, none) => (s.modOp o.id fun q => { q with started := true }, none)
    | e => e

/-- The matrix operations of a row, in issue order. -/
def State.matrixOps (s : State) (row : Nat) : List Op := s.ops.filter fun o => o.row == row && o.kind.isMatrix

/-- The operation at the head of a cluster's unit: its holder is resident on the cluster with its own slices, and no operation before
it is outstanding or stopped (R251, R252). -/
def State.matrixHead (s : State) (c : Nat) : Option (Row × Op) :=
  match (s.cluster c).mx.holder.bind s.row? with
  | none => none
  | some r =>
    if r.ctx.isNone || r.cluster != c || !r.vvalid then none
    else ((s.matrixOps r.id).head?).bind fun o => if o.stopped then none else some (r, o)

/-- The operation waits for flags (R264): a drain that has not started. -/
def Op.drainWaits (o : Op) (r : Row) : Bool :=
  match o.kind with
  | .mdrain _ _ blk => blk.rm.isNone && !flagsClear blk.hd r.cf
  | _ => false

/-- The operation at the head may start in its unit, or go on with its next part: of a row that is to be pre-empted only to the next stop
point (R271). -/
def State.matrixReady (s : State) (c : Nat) : Option (Row × Op) :=
  (s.matrixHead c).bind fun p =>
    if p.2.started || p.2.drainWaits p.1 || p.1.preempt.isSome && !p.2.midRow || (s.cluster c).stoppedHot then none else some p

/-- The drain at the head of a row's unit, when its next word may issue (R265, R344). -/
def State.drainReady (s : State) (r : Row) : Option (Op × DrainBlk) :=
  (s.matrixReady r.cluster).bind fun p => match p.2.kind with
    | .mdrain _ _ blk => if p.1.id = r.id then some (p.2, blk) else none
    | _ => none

/-! The words of 0x2C (R100). -/

/-- Issue a matrix word: outside matrix mode WRONGSTREAM (R103); its checks at issue (R252); counted in class 1 or not (R140). -/
def matWord (counted : Bool) (chk : Row → Thread → Slice → Except Code OpKind) (s : State) : Out :=
  ctlRow false true (fun r th s =>
    if !r.mxon then .fault s (th.flt .wrongstream)
    else match chk r th (s.slice r) with
    | .error c => .fault s (th.flt c)
    | .ok kind =>
      if counted then (if r.full 1 then .stall s else .done (s.issueOp r th kind 1 false))
      else
        let (id, s) := s.newId
        .done (s.startOp (Op.new s id r kind none th.pc))) s

/-- MZERO (R263). -/
def execMzero (s : State) : Out := matWord false (fun _ _ _ => .ok .mzero) s
/-- MLAT (R255). -/
def execMlat (side half : Bool) (xa xs : Reg) (fmt : Fmt) (s : State) : Out :=
  matWord true (fun _ th _ => .ok (.mlat side half (th.getX xa) (th.getX xs) fmt false)) s
/-- MLATG (R256). -/
def execMlatg (half : Bool) (xa vi : Reg) (fmt : Fmt) (s : State) : Out :=
  matWord true (fun r th sl => (matIdx r sl vi).map fun _ => .mlatg half (th.getX xa) vi fmt false) s
/-- MLATV (R257). -/
def execMlatv (side half : Bool) (vs : Reg) (s : State) : Out :=
  matWord false (fun r _ sl => (matVec r sl vs latvTag).map fun _ => .mlatv side half vs) s
/-- MLUT (R258). -/
def execMlut (vc : Reg) (s : State) : Out := matWord false (fun r _ sl => (matVec r sl vc (· == .bf16)).map fun _ => .mlut vc) s
/-- MOP (R259). -/
def execMop (ha hb : Bool) (k : BitVec 7) (s : State) : Out := matWord true (fun _ _ _ => .ok (.mop false ha hb (k.toNat + 1))) s
/-- MOPZ (R259). -/
def execMopz (ha hb : Bool) (k : BitVec 7) (s : State) : Out :=
  matWord true (fun r _ _ => if r.zp then .ok (.mop true ha hb (k.toNat + 1)) else .error .illop) s
/-- MBAND (R258). -/
def execMband (side : Bool) (vs : Reg) (s : State) : Out :=
  matWord false (fun r _ sl => if r.band then (matVec r sl vs (· == .bf16)).map fun _ => .mband side vs else .error .illop) s
/-- MFOLD (R262). -/
def execMfold (s : State) : Out := matWord false (fun r _ _ => if r.band then .ok .mfold else .error .illop) s

/-- The armed drain block, or its lack (R265). -/
def drainArmed (r : Row) : Except Code DrainBlk :=
  match r.drain with
  | some b => .ok b
  | none => .error .illop

/-- MDRAIN (R265). -/
def execMdrain (n : BitVec 6) (s : State) : Out :=
  matWord true (fun r _ _ => (drainArmed r).map fun b => .mdrain (n.toNat + 1) none b) s
/-- MDRAIN_SZ (R266). -/
def execMdrainSz (vs vz : Reg) (n : BitVec 6) (s : State) : Out :=
  matWord true (fun r _ sl => do
    let b ← drainArmed r
    if !r.zp then .error .illop
    else
      let _ ← matVec r sl vs (·.isFloat)
      let _ ← matVec r sl vz (·.isFloat)
      .ok (.mdrain (n.toNat + 1) (some (vs, vz)) b)) s
/-- MROW (R267). -/
def execMrow (n : BitVec 6) (s : State) : Out := matWord false (fun _ _ _ => .ok (.mrow n.toNat)) s

/-- The code of an origin (R268). -/
def orgCode (n : Nat) : Nat := if n = 16 then 0 else if n = 8 then 1 else 2

/-- The unit's state as `mstat` gives it (R268). -/
def MUnit.stat (u : MUnit) : Nat :=
  let o (i : Nat) : Nat := orgCode (u.half.getD i LHalf.fresh).origin
  u.bandk * 2 ^ 10 + u.lastB.toNat * 2 ^ 9 + u.lastA.toNat * 2 ^ 8 + o 3 * 64 + o 2 * 16 + o 1 * 4 + o 0

/-- MSTAT (R268). -/
def execMstat (d : Reg) (s : State) : Out :=
  ctlRow false true (fun r th s =>
    if !r.mxon then .fault s (th.flt .wrongstream)
    else if s.matrixBusy r.id then .stall s
    else setD (.ctl r.id) d (BitVec.ofNat 64 (s.cluster r.cluster).mx.stat) s) s

/-- MXOFF (R249). -/
def execMxoff (s : State) : Out :=
  ctlRow false true (fun r th s =>
    if !r.mxon then .fault s (th.flt .wrongstream)
    else if s.matrixBusy r.id then .stall s
    else
      let s := if r.band ∧ (s.cluster r.cluster).mx.bandk ≠ 0 then s.foldBand r else s
      let s := s.modSlice r fun sl => ((sl.markRegs 24 31 .f32 (16 * r.w)).zeroRegs 15 23).markRegs 15 23 .none 0
      let s := s.modUnit r.cluster fun u => { u with holder := none }
      .done (s.modRow r.id fun q => { q with zp := false, band := false, mxon := false, drain := none })) s

end Sys2Proof.Machine
end

