-- ==== Sys2Proof/Machine/Sync.lean ====
section
/-! DEFINITION. Progress classes and synchronisation, major opcode 0x32 (R274 to R303, R272, R273). -/

namespace Sys2Proof.Machine

/-! Capabilities (R312, R313). -/

/-- The record a capability of a handler names. -/
def State.capOf (s : State) (h : Nat) (k : Nat) : Option FRec :=
  ((s.hnd? h).bind fun t => t.k.getD k none).bind s.fr?

/-! What a word sees of its thread. -/

/-- The thread that runs a word of 0x32: its registers, and what its faults report. -/
structure SCtx where
  t : Tid
  cls : Cls
  token : Nat
  get : Reg → Word
  flt : Code → Nat → FInfo
  aflt : AFault → FInfo

/-- The element of a vector register a VP's word names (R101): limits, and tag i64. -/
def vpRegFault (s : State) (r : Row) (l : List Reg) : Option Code :=
  let sl := s.slice r
  if l.any fun v => !operandOk sl (nregOf r.nregCode) v (sl.reg v).tag.width then some .illop
  else if l.any fun v => (sl.reg v).tag != .i64 then some .tagmix
  else none

/-- The context of a control or handler thread. -/
def ctlCtx (s : State) (t : Tid) (th : Thread) : SCtx :=
  { t := t, cls := s.classOf t, token := (s.token t).toNat, get := th.getX, flt := fun c a => th.flt c a, aflt := th.aflt }

/-- The context of a VP. -/
def vpCtx (s : State) (r : Row) (e : Nat) : SCtx :=
  { t := .vp r.id e, cls := r.cls, token := (r.token (some e)).toNat
    get := fun v => BitVec.ofNat 64 ((s.slice r).elem r.w v 64 e)
    flt := fun c a => { code := c, pc := 0, addr1 := a }
    aflt := fun f => { code := f.code, pc := 0, addr1 := f.addr1, addr2 := f.addr2 } }

/-- A word of 0x32 for a control thread, a VP, or a handler where R276 lets it. `regs` are the registers it names. -/
def syncWord (hnd : Bool) (regs : List Reg) (body : SCtx → State → CRes) (s : State) : Out :=
  ctlOrVp false false
    (fun t th s => match t with
      | .hnd _ => if hnd then body (ctlCtx s t th) s else .fault s (th.flt .illwait)
      | _ => body (ctlCtx s t th) s)
    (fun r e _ _ s => match vpRegFault s r regs with
      | some c => .fault s { code := c, pc := 0 }
      | none => body (vpCtx s r e) s) s

/-- An object at its home (R286, R287): aligned, translated and read in one indivisible operation. -/
def atHome (c : SCtx) (s : State) (va n al : Nat) (wr : Bool) (k : List Loc → List Byte → State → CRes) : CRes :=
  if va % al ≠ 0 then .fault s (c.flt .misalign va)
  else
    match s.homeLoad c.t va n wr true with
    | .error f => s.accessFault c.t va n wr (c.aflt f)
    | .ok (ls, bs, s) => k ls bs s

/-- A word with release order at a scope waits for its condition first (R235). -/
def releaseFirst (c : SCtx) (s : State) (sc : Scope) (k : State → CRes) : CRes :=
  if s.releaseOk c.t sc then k s else .stall (s.setWait c.t (some (.fence sc)))

/-- A word with acquire order waits for a remote atomic before it to return its value (R224, R235). -/
def acquireAfter (c : SCtx) (s : State) (k : State → CRes) : CRes := if s.ramoOut c.t then .stall s else k s

/-- TEAM of a token (R278). -/
def tokTeam (n : Nat) : Nat := bits n 32 16

/-- TEAM and LTAG of a token as OWNER holds them (R286). -/
def tokOwner (n : Nat) : Nat := n / 2 ^ 22 * 2 ^ 22

/-- A handler thread belongs to no team (R310). -/
def SCtx.hasTeam (c : SCtx) : Bool :=
  match c.t with
  | .hnd _ => false
  | _ => true

/-! Barriers (R286 to R293). -/

/-- A barrier record (R286). -/
structure BarRec where
  cls : Cls
  arrived : Nat
  count : Nat
  gen : Nat
  pending : Nat
  owner : Nat
deriving DecidableEq, Repr

/-- Dword 0 of a valid barrier (R286, R287): class, arrivals, members. -/
def barHead (d : Nat) : Option (Cls × Nat × Nat) :=
  match Cls.ofCode (bits d 61 2) with
  | none => none
  | some c =>
    if bit d 63 || bits d 59 2 != 2 || bits d 40 19 != 0 || bits d 0 20 == 0 || decide (bits d 0 20 < bits d 20 20) then none
    else some (c, bits d 20 20, bits d 0 20)

/-- The record in 32 bytes, if it is valid (R287). -/
def parseBar (bs : List Byte) : Option BarRec :=
  let d := dwordsOf 4 bs
  let d1 := d.getD 1 0
  let d2 := d.getD 2 0
  match barHead (d.headD 0) with
  | none => none
  | some (c, a, n) =>
    if bits d1 28 4 ≠ 0 ∨ bits d2 48 16 ≠ 0 ∨ bits d2 0 22 ≠ 0 ∨ d.getD 3 0 ≠ 0 then none
    else some { cls := c, arrived := a, count := n, gen := bits d1 32 32, pending := bits d1 0 28, owner := bits d2 0 48 }

/-- The 32 bytes of a record. -/
def BarRec.bytes (b : BarRec) : List Byte :=
  leBytes 8 (b.cls.code * 2 ^ 61 + 2 * 2 ^ 59 + b.arrived * 2 ^ 20 + b.count) ++ leBytes 8 (b.gen * 2 ^ 32 + b.pending) ++
  leBytes 8 b.owner ++ leBytes 8 0

/-- The die that homes a place (R10, R346). -/
def homeDie (k : Nat) : Nat := if k < 2 ^ 39 then k / 2 ^ 36 else if k < 2 ^ 53 then (k - 2 ^ 52) / 2 ^ 22 / 16 else 0

/-- A thread blocked at a barrier returns from its wait (R291). -/
def State.leaveBar (s : State) (t : Tid) : State := (s.setWait t none).finish t

/-- A release (R293): the waiters of the old generation, all at once when they are on one die, else in groups by die. -/
def State.releaseBar (s : State) (key gen : Nat) : State :=
  let ts := (s.waiters.filter fun p => match p.2 with
    | .bar k g => k == key && g == gen
    | _ => false).map (·.1)
  let h := homeDie key
  let dist (t : Tid) : Nat := (dieOf (s.clusterOf t) + 8 - h) % 8
  match (ts.map dist).dedup with
  | [] => s
  | [_] => ts.foldl State.leaveBar s
  | ds =>
    let gs := ((List.range 8).filter ds.contains).map fun n =>
      ({ time := s.clock.et + n * Config.barExitSpacing, threads := ts.filter fun t => dist t == n } : BarGroup)
    { s with mem := { s.mem with groups := s.mem.groups ++ gs } }

/-- Store a record after an arrival or a change of PENDING, with the release it completes (R289, R292, R293). -/
def BarRec.store (b : BarRec) (t : Tid) (ls : List Loc) (s : State) : State :=
  if b.arrived = b.count ∧ b.pending = 0 then
    let s := (s.homeStore t ls { b with gen := (b.gen + 1) % 2 ^ 32, arrived := 0 }.bytes).1
    s.releaseBar (ls.headD { key := 0, enc := 0, home := 0 }).key b.gen
  else (s.homeStore t ls b.bytes).1

/-- The arrival register of a thread. -/
def State.arrivalOf (s : State) : Tid → Option Arrival
  | .vp r e => (s.row? r).bind fun q => (q.vp e).arrival
  | t => (s.thread? t).bind (·.arrival)

/-- Set the arrival register of a thread. -/
def State.setArrival (s : State) (t : Tid) (a : Arrival) : State :=
  match t with
  | .vp r e => s.modVp r e fun v => { v with arrival := some a }
  | t => s.modThread t fun th => { th with arrival := some a }

/-- Set the landing barrier of a thread (R292). -/
def State.setLanding (s : State) (t : Tid) (a : Word) : State :=
  match t with
  | .vp r e => s.modVp r e fun v => { v with landing := some a }
  | t => s.modThread t fun th => { th with landing := some a }

/-- A waiter blocked at a record whose release it has not seen (R288). -/
def State.barWaiters (s : State) (key : Nat) : Bool :=
  s.waiters.any fun p => (match p.2 with
    | .bar k _ => k == key
    | _ => false) && !(s.mem.groups.any fun g => g.threads.contains p.1)

/-- BAR_INIT (R288). -/
def execBarInit (a b : Reg) (cls : Cls) (s : State) : Out :=
  syncWord false [a, b] (fun c s =>
    let n := (c.get b).toNat
    let va := (c.get a).toNat
    if va % 32 ≠ 0 then .fault s (c.flt .misalign va)
    else releaseFirst c s .dev fun s =>
      atHome c s va 32 32 true fun ls bs s =>
        let busy := match parseBar bs with
          | some r => decide (0 < r.arrived)
          | none => false
        if n < 1 || 2 ^ 20 ≤ n || busy || s.barWaiters (ls.headD { key := 0, enc := 0, home := 0 }).key then
          .fault s (c.flt .syncobj 0)
        else
          let r : BarRec := { cls := cls, arrived := 0, count := n, gen := 0, pending := 0, owner := tokOwner c.token }
          .done ((s.homeStore c.t ls r.bytes).1.scalarNr c.t)) s

/-- An arrival for a thread `who` of class `cls` and token `token` (R275, R289, R290). It has release order for the thread that runs the word
and for the member that arrives (R242). -/
def arrive (c : SCtx) (who : Tid) (cls : Cls) (token : Nat) (team proxy : Bool) (a : Word) (s : State) : CRes :=
  let va := a.toNat
  if va % 32 ≠ 0 then .fault s (c.flt .misalign va)
  else releaseFirst c s .die fun s =>
    if !s.releaseOk who .die then .stall s
    else atHome c s va 32 32 true fun ls bs s =>
      match parseBar bs with
      | none => .fault s (c.flt .syncobj 0)
      | some r =>
        let already := match s.arrivalOf who with
          | some q => proxy && q.addr == a && q.gen == r.gen
          | none => false
        if r.cls ≠ cls ∨ (r.cls = .par ∧ (team && r.owner == tokOwner token) = false) then .fault s (c.flt .illwait 0)
        else if already || r.arrived == r.count then .fault s (c.flt .syncobj 0)
        else
          let s := s.setArrival who { addr := a, gen := r.gen, proxy := proxy }
          .done ({ r with arrived := r.arrived + 1 }.store c.t ls s |>.scalarNr c.t)

/-- BAR_ARRIVE (R289): a proxy arrival for the same barrier is taken up. -/
def execBarArrive (a : Reg) (s : State) : Out :=
  syncWord false [a] (fun c s =>
    let va := c.get a
    match s.arrivalOf c.t with
    | some q =>
      if q.proxy && q.addr == va then .done ((s.setArrival c.t { q with proxy := false }).scalarNr c.t)
      else arrive c c.t c.cls c.token true false va s
    | none => arrive c c.t c.cls c.token true false va s) s

/-- BAR_ARRIVE_CAP (R290): for the thread a capability names. -/
def execBarArriveCap (a : Reg) (k : Fin 4) (s : State) : Out :=
  ctlOrVp false false
    (fun t th s => match t with
      | .hnd h =>
        (match s.capOf h k with
         | none => .fault s (th.flt .capbad)
         | some fr => arrive (ctlCtx s t th) fr.who (s.classOf fr.who) (s.token fr.who).toNat (tidRow fr.who).isSome true (th.getX a) s)
      | _ => .fault s (th.flt .priv))
    (fun _ _ _ _ s => .fault s { code := .priv, pc := 0 }) s

/-- BAR_WAIT (R276, R291). -/
def execBarWait (a : Reg) (s : State) : Out :=
  syncWord false [a] (fun c s =>
    let va := c.get a
    match s.arrivalOf c.t with
    | none => .fault s (c.flt .illwait 0)
    | some q =>
      if q.addr ≠ va then .fault s (c.flt .illwait 0)
      else acquireAfter c s fun s => atHome c s va.toNat 32 32 false fun ls bs s =>
        match parseBar bs with
        | none => .fault s (c.flt .syncobj 0)
        | some r =>
          if !classWaitOk c.cls r.cls (r.owner == tokOwner c.token) then .fault s (c.flt .illwait 0)
          else if r.gen ≠ q.gen then .done s
          else .stall (s.setWait c.t (some (.bar (ls.headD { key := 0, enc := 0, home := 0 }).key r.gen)))) s

/-- BAR_BYTES (R292). -/
def execBarBytes (a b : Reg) (s : State) : Out :=
  syncWord true [a, b] (fun c s =>
    let va := c.get a
    atHome c s va.toNat 32 32 true fun ls bs s =>
      match parseBar bs with
      | none => .fault s (c.flt .syncobj 0)
      | some r =>
        let p := (r.pending : Int) + (c.get b).toInt
        if p < 0 ∨ 2 ^ 28 ≤ p then .fault s (c.flt .syncobj 0)
        else
          let s := s.setLanding c.t va
          let q := { r with pending := p.toNat }
          .done ((if c.get b = 0 then s else q.store c.t ls s).scalarNr c.t)) s

/-! Locks (R294 to R297). -/

/-- A valid held lock (R294): class and holder. -/
def parseLock (d : Nat) : Option (Cls × Nat) :=
  if bit d 63 && bits d 59 2 == 1 && bits d 48 11 == 0 then (Cls.ofCode (bits d 61 2)).map fun c => (c, bits d 0 48) else none

/-- A VP runs the word. -/
def SCtx.isVp (c : SCtx) : Bool :=
  match c.t with
  | .vp .. => true
  | _ => false

/-- LKACQ (R295). -/
def execLkacq (d a : Reg) (cls : Cls) (s : State) : Out :=
  syncWord false [d, a] (fun c s =>
    if c.cls ≠ cls ∨ classWaitOk c.cls cls true = false ∨ (c.isVp = true ∧ c.cls ≠ .conc) then .fault s (c.flt .illwait 0)
    else acquireAfter c s fun s => atHome c s (c.get a).toNat 8 8 true fun ls bs s =>
      let w := leNat bs
      if w = 0 then
        if 255 ≤ s.lockCount c.t then .fault s (c.flt .illop 0)
        else
          let s := (s.homeStore c.t ls (leBytes 8 (lockWord cls (BitVec.ofNat 64 c.token)))).1
          .done (((s.modLocks c.t (· + 1)).scalarNr c.t).putX c.t d 0)
      else
        match parseLock w with
        | none => .fault s (c.flt .syncobj 0)
        | some (k, holder) =>
          if holder = c.token then .done ((s.scalarNr c.t).putX c.t d 1)
          else if k ≠ cls ∨ (cls = .par ∧ tokTeam holder ≠ tokTeam c.token) then .fault s (c.flt .illwait 0)
          else
            let key := (ls.headD { key := 0, enc := 0, home := 0 }).key
            let s := { s with mem := { s.mem with lockQ := s.mem.lockQ ++ [(key, c.t, cls)] } }
            .stall ((s.scalarNr c.t).setWait c.t (some (.lock d key)))) s

/-- A released lock passes to the oldest request at its home, in the releasing write, or becomes 0 (R296). -/
def State.passLock (s : State) (t : Tid) (ls : List Loc) : State :=
  let k := (ls.headD { key := 0, enc := 0, home := 0 }).key
  let (s, granted) := State.grantNext true k s.mem.lockQ.length s
  if granted then ((s.evict (s.clusterOf t) ls).raiseGwct t (s.gwctFor (s.clusterOf t) ls)).wakeMonitors k
  else (s.homeStore t ls (leBytes 8 0)).1

/-- LKREL (R296): the word becomes 0, or passes to the oldest request. -/
def execLkrel (a : Reg) (s : State) : Out :=
  syncWord false [a] (fun c s =>
    let va := (c.get a).toNat
    if va % 8 ≠ 0 then .fault s (c.flt .misalign va)
    else releaseFirst c s .dev fun s =>
      atHome c s va 8 8 true fun ls bs s =>
        let w := leNat bs
        match parseLock w with
        | some (_, holder) =>
          if holder ≠ c.token then .fault s (c.flt .notheld 0)
          else .done (((s.modLocks c.t (· - 1)).passLock c.t ls).scalarNr c.t)
        | none => .fault s (c.flt (if w = 0 then .notheld else .syncobj) 0)) s

/-- WAITM (R298). -/
def execWaitm (d a b : Reg) (cls : Cls) (s : State) : Out :=
  syncWord false [d, a, b] (fun c s =>
    if !classWaitOk c.cls cls true then .fault s (c.flt .illwait 0)
    else acquireAfter c s fun s => atHome c s (c.get a).toNat 8 8 false fun ls bs s =>
      let v := BitVec.ofNat 64 (leNat bs)
      let s := s.scalarNr c.t
      if v ≠ c.get b then .done (s.putX c.t d v)
      else .stall (s.setWait c.t (some (.waitm d (ls.headD { key := 0, enc := 0, home := 0 }).key (c.get b))))) s

/-- CLSQ (R302). -/
def execClsq (d a : Reg) (s : State) : Out :=
  syncWord true [d, a] (fun c s =>
    let va := (c.get a).toNat
    let out (mine held bar ok : Bool) (ocls : Nat) (s : State) : CRes :=
      .done (s.putX c.t d (BitVec.ofNat 64
        (mine.toNat * 128 + held.toNat * 64 + bar.toNat * 32 + ok.toNat * 16 + ocls * 4 + c.cls.code)))
    atHome c s va 8 8 false fun _ bs s =>
      let w := leNat bs
      if w = 0 then out false false false (classWaitOk c.cls c.cls true) 3 s
      else match parseLock w with
      | some (k, holder) =>
        out (holder == c.token) true false (classWaitOk c.cls k (c.hasTeam && tokTeam holder == tokTeam c.token)) k.code s
      | none =>
        match barHead w with
        | none => .fault s (c.flt .syncobj 0)
        | some (k, _, _) =>
          if k = .par then
            atHome c s ((va + 16) % 2 ^ 64) 8 8 false fun _ bs s =>
              out false false true (classWaitOk c.cls k (c.hasTeam && leNat bs == tokOwner c.token)) k.code s
          else out false false true (classWaitOk c.cls k false) k.code s) s

/-! Convergence registers (R299 to R301, R272, R273). -/

/-- The latch load a matrix issue record names (R272). -/
def parseIssue (d : List Nat) : Option (BitVec 32 × Word × Word) :=
  let w := bits (d.headD 0) 0 32
  let base := BitVec.ofNat 64 (d.getD 1 0)
  let str := BitVec.ofNat 64 (d.getD 2 0)
  if bits (d.headD 0) 32 32 ≠ 0 ∨ d.getD 3 0 ≠ 0 then none
  else
    match decodeWord w with
    | some (.mlat side half xa xs fmt) =>
      if xa = 0 ∧ xs = 0 ∧ (Instr.mlat side half xa xs fmt).legal = true then some (BitVec.ofNat 32 w, base, str) else none
    | some (.mlatg half xa vi fmt) =>
      if xa = 0 ∧ str = 0 ∧ (Instr.mlatg half xa vi fmt).legal = true then some (BitVec.ofNat 32 w, base, 0) else none
    | _ => none

/-- The operation of a captured record. -/
def issueKind (l : BitVec 32 × Word × Word × Word) : Option OpKind :=
  match decodeWord l.1.toNat with
  | some (.mlat side half _ _ fmt) => some (.mlat side half l.2.1 l.2.2.1 fmt true)
  | some (.mlatg half _ vi fmt) => some (.mlatg half l.2.1 vi fmt true)
  | _ => none

/-- Issue a convergence register's latch load for its row (R246, R273): it waits at the unit while another row holds it. -/
def State.issueLoad (s : State) (row : Nat) (l : BitVec 32 × Word × Word × Word) : State :=
  match s.row? row, issueKind l with
  | some r, some kind =>
    let (id, s) := s.newId
    let s := s.startOp (Op.new s id r kind (some 1) l.2.2.2)
    let u := (s.cluster r.cluster).mx
    if u.holder = some row ∨ u.waiting.contains row then s
    else s.modUnit r.cluster fun u => { u with waiting := u.waiting ++ [row] }
  | _, _ => s

/-- A member of a register has signed or is in STOP (R301). -/
def Conv.memberDone (c : Conv) (r : Row) (e : Nat) : Bool := c.signed.contains e || (r.vp e).st == .stop

/-- Complete convergence register `n` of a row when every member has signed or stopped (R301). -/
def State.convDone (s : State) (row n : Nat) : State :=
  match s.row? row with
  | none => s
  | some r =>
    match r.cv.getD n none with
    | none => s
    | some c =>
      if c.members.all (c.memberDone r) && (c.load.isNone || !r.full 1) then
        let s := s.modRow row fun q => { q with
          cv := q.cv.set n none
          vps := q.vps.map fun p => (p.1, if p.2.sign = some (n, false) then { p.2 with sign := some (n, true) } else p.2) }
        let s := match c.load with
          | some l => s.issueLoad row l
          | none => s
        (r.vps.filter fun p => p.2.wait = some (.cvsign n)).foldl (fun s p =>
          ((s.setWait (.vp row p.1) none).modVp row p.1 fun v => { v with sign := none }).finish (.vp row p.1)) s
      else s

/-- Look at every convergence register of a row, after a member signed or stopped. -/
def State.convCheck (s : State) (row : Nat) : State := (List.range 8).foldl (fun s n => s.convDone row n) s

/-- CVINIT (R299). -/
def execCvinit (n : Fin 8) (a b : Reg) (cls : Cls) (s : State) : Out :=
  ctlOrVp false true
    (fun t th s => match t with
      | .ctl row =>
        (match s.row? row with
         | none => .ended s
         | some r =>
           let sl := s.slice r
           let xb := (th.getX b).toNat
           let xa := (th.getX a).toNat
           let go (l : Option (BitVec 32 × Word × Word × Word)) (s : State) : CRes :=
             let mem := (List.range sl.vl).filter (sl.maskBit (bits xb 0 3))
             .done ((s.modRow row fun q => { q with cv := q.cv.set n (some { members := mem, signed := [], cls := cls, load := l }) })
               |>.convDone row n)
           if xb / 8 ≠ 0 then .fault s (th.flt .illop)
           else if cls = .weak then .fault s (th.flt .illwait)
           else if (r.cv.getD n none).isSome then .fault s (th.flt .syncobj)
           else if xa = 0 then go none s
           else if xa % 32 ≠ 0 then .fault s (th.flt .misalign xa)
           else
             match s.homeLoad t xa 32 false false with
             | .error f => .fault s (th.aflt f)
             | .ok (_, bs, s) =>
               match parseIssue (dwordsOf 4 bs) with
               | none => .fault s (th.flt .illop)
               | some (w, base, str) => go (some (w, base, str, th.pc)) s)
      | _ => .fault s (th.flt .illwait))
    (fun _ _ _ _ s => .fault s { code := .illop, pc := 0 }) s

/-- CVSIGN (R285, R300): a signature that stands is not made again. -/
def execCvsign (n : Fin 8) (s : State) : Out :=
  ctlOrVp false false
    (fun t th s => match t with
      | .hnd _ => .fault s (th.flt .illwait)
      | _ => .fault s (th.flt .illop))
    (fun r e _ _ s =>
      let v := r.vp e
      if v.sign = some (n.val, true) then .done (s.modVp r.id e fun v => { v with sign := none })
      else if v.sign = some (n.val, false) then .stall (s.setWait (.vp r.id e) (some (.cvsign n.val)))
      else
        match r.cv.getD n none with
        | none => .fault s { code := .illop, pc := 0 }
        | some c =>
          if !c.members.contains e || c.signed.contains e then .fault s { code := .illop, pc := 0 }
          else if r.cls ≠ c.cls ∨ classWaitOk r.cls c.cls true = false then .fault s { code := .illwait, pc := 0 }
          else
            let last := c.members.all fun k => k == e || c.memberDone r k
            if last && c.load.isSome && r.full 1 then .stall s
            else
              let s := s.modRow r.id fun q => { q with cv := q.cv.set n (some { c with signed := c.signed ++ [e] }) }
              if last then .done (s.convDone r.id n)
              else .stall ((s.modVp r.id e fun v => { v with sign := some (n.val, false) }).setWait (.vp r.id e) (some (.cvsign n.val)))) s

end Sys2Proof.Machine
end

