-- ==== Sys2Proof/Machine/ThreadFetch.lean ====
section
/-! DEFINITION. Entering and leaving thread mode: tf, tfc and tstop (R29, R33, R39 to R41, R45, R186, R187), with the program-counter
slots of a lane and the elements a full lane holds. -/

namespace Sys2Proof.Machine

/-- VPs of a row that hold a program-counter slot of lane `lane` (R41). -/
def Row.slotsUsed (r : Row) (lane : Nat) : Nat :=
  (r.vps.filter fun p => r.base + p.1 % r.w == lane && (match p.2.st with
    | .thr | .froz => true
    | _ => false)).length

/-- Slots of a lane that a row has reserved (R280). -/
def Row.slotsReserved (r : Row) (lane : Nat) : Nat :=
  if r.cls = .par ∧ r.base ≤ lane ∧ lane < r.base + r.w then r.tslots else 0

/-- A lane has a program-counter slot for one more VP of a row: fewer than 64 are in use, and it is one of the row's reservation or one that
none reserves (R20, R41, R280). -/
def State.slotFree (s : State) (r : Row) (lane : Nat) : Bool :=
  let all := s.rows.filter fun q => q.cluster == r.cluster && q.ctx.isSome
  decide (sumL (all.map fun q => q.slotsUsed lane) < 64) &&
  (decide (r.slotsUsed lane < r.slotsReserved lane) ||
  decide (sumL (all.map fun q => max (q.slotsUsed lane) (q.slotsReserved lane)) < 64))

/-- The elements an operation of a block was issued for (R33). -/
def OpKind.elems : OpKind → List Nat
  | .vpld _ _ _ l | .vpamo _ _ _ l => l.map (·.1)
  | .vpst l => l
  | .vfg _ _ _ _ l _ => l.map (·.1)
  | _ => []

/-- Element `e` leaves LOCK for `target` (R33, R36, R39): the block's flagged operations issued for it count against its own flag. -/
def State.leaveLock (s : State) (row e flag : Nat) (flagged : List Nat) (target : Word) : State :=
  let s := s.stripNr row 5
  let t := Tid.vp row e
  let s := if flag < 12 then
      flagged.foldl (fun s id => match s.op? id with
        | some o => if o.kind.elems.contains e then (s.modOp id fun o => { o with flags := o.flags ++ [(t, flag)] }).modFlag t flag incAt
                    else s
        | none => s) s
    else s
  s.vpBoundary row e target

/-- Elements leave in ascending order as slots allow: the state and the elements held (R41). -/
def leaveAll (row flag : Nat) (flagged : List Nat) (target : Word) : List Nat → State → State × List Nat
  | [], s => (s, [])
  | e :: t, s =>
    match s.row? row with
    | none => (s, [])
    | some r =>
      if s.slotFree r (r.base + e % r.w) then leaveAll row flag flagged target t (s.leaveLock row e flag flagged target)
      else
        let (s, l) := leaveAll row flag flagged target t s
        (s, e :: l)

/-- tf and tfc at the end of a vector-fetched block (R29, R39, R41): the block ends once its unflagged operations are done, and while
a lane is full its end is held for the excess elements. -/
def tfLock (disp : BitVec 15) (m : MaskReg) (row : Nat) (s : State) : Out :=
  match s.row? row with
  | none => .refused .noActor
  | some r =>
    match r.blocks with
    | [] => .refused .noActor
    | k :: _ =>
      if !k.ops.isEmpty then .next s
      else if m != 0 && !r.vvalid then .next (s.blockVown r k)
      else
        let v := s.lockLV r k
        let go := v.active m
        if !k.hd.tfp && !go.isEmpty then .next (s.raiseRow row (runFault k .tfdeny (lowest go) 0 0 0))
        else
          let v := v.noteMask m
          let s := s.putLV { v with sl := { v.sl with vestart := 0 } }
          let target := wordAddr k.header k.idx + disp.signExtend 64 <<< 2
          let (s, held) := leaveAll row k.hd.seta k.flagged target go s
          if held.isEmpty then .next (s.advanceRun row k)
          else .next (s.modRow row fun q => { q with held := some { elems := held, target := target, since := s.clock.cycle, run := k } })

/-- TF_HELD_ELEMENT_RELEASE (R41): held elements leave as slots free; with none left the block ends. -/
def State.releaseHeld (s : State) (row : Nat) : State :=
  match (s.row? row).bind (·.held) with
  | none => s
  | some h =>
    let (s, l) := leaveAll row h.run.hd.seta h.run.flagged h.target h.elems s
    if l.isEmpty then (s.modRow row fun q => { q with held := none }).advanceRun row h.run
    else s.modRow row fun q => { q with held := some { h with elems := l } }

/-- Some held element has a slot (R41). -/
def State.heldReady (s : State) (row : Nat) : Bool :=
  match s.row? row with
  | none => false
  | some r => (match r.held with
      | none => false
      | some h => h.elems.any fun e => s.slotFree r (r.base + e % r.w))

/-- TFFULL_TIMEOUT (R41): elements are still held 4,096 cycles after the block's last word. -/
def State.heldTimeout (s : State) (row : Nat) : Option State :=
  match (s.row? row).bind (·.held) with
  | none => none
  | some h => if s.clock.cycle < h.since + 4096 then none else some (s.raiseRow row (runFault h.run .tffull (lowest h.elems) 0 0 0))

/-- Take a VP out of its bundle to its block boundary (R30, R186). -/
def State.vpLeave (s : State) (row e : Nat) (next : Word) : State := (s.modRow row fun r => r.dropMember e).vpBoundary row e next

/-- The word of a bundle that ends its block: it waits for the VP's unflagged operations (R32). -/
def endVp (body : Row → Nat → Bundle → BMem → State → State) (row n : Nat) (s : State) : Out :=
  vpWord (fun r e b m s => if m.ops.isEmpty then .ended (body r e b m s) else .stall s) row n s

/-- TF (R186). -/
def execTf (disp : BitVec 15) (s : State) : Out :=
  match s.clock.issue with
  | .lanes row :: _ => tfLock disp 0 row s.popIssue
  | .bundle row n :: _ => endVp (fun r e b m s => s.vpLeave r.id e (wordAddr b.header m.idx + disp.signExtend 64 <<< 2)) row n s
  | _ => .refused .noActor

/-- TFC (R186). -/
def execTfc (disp : BitVec 15) (m : MaskReg) (s : State) : Out :=
  match s.clock.issue with
  | .lanes row :: _ => tfLock disp m row s.popIssue
  | .bundle row n :: _ =>
    endVp (fun r e b k s =>
      s.vpLeave r.id e (if (s.slice r).maskBit m e then wordAddr b.header k.idx + disp.signExtend 64 <<< 2 else b.after)) row n s
  | _ => .refused .noActor

/-- A VP stops (R26, R187, R301, R320). -/
def State.vpStop (s : State) (row e : Nat) : State :=
  let s := s.modRow row fun r => (r.dropMember e).modVp e fun v => { v with st := .stop, mid := none }
  let s := match s.steppingOf (.vp row e) with
    | some k => s.stepGone (.vp row e) k
    | none => s
  s.convCheck row

/-- TSTOP (R187): under `vf` it only ends the block; VESTART is cleared as by every lockstep word (R64). -/
def execTstop (s : State) : Out :=
  match s.clock.issue with
  | .lanes row :: _ =>
    let s := s.popIssue
    (match (s.row? row).bind (·.blocks.head?) with
     | none => .refused .noActor
     | some k => .next ((match s.row? row with
         | some r => s.modSlice r fun sl => { sl with vestart := 0 }
         | none => s).advanceRun row k))
  | .bundle row n :: _ => endVp (fun r e _ _ s => s.vpStop r.id e) row n s
  | _ => .refused .noActor

end Sys2Proof.Machine
end

