-- ==== Sys2Proof/Machine/Launch.lean ====
section
/-! DEFINITION. The launch engine and placement (R112, R279, R284, R326, R327, R330 to R341): images, queues, descriptors, occupancy,
placement, pre-emption, resumption and completion. -/

namespace Sys2Proof.Machine

/-! The engine's accesses, in a partition's address space (R330, R331, R334). -/

/-- Access rights of the hub for a partition. -/
def engAcc (p : Nat) : Acc := { part := p, cluster := Config.clusters, hnd := false }

/-- Bytes the engine reads at their home; none where the address does not translate or a line is poisoned. -/
def State.eng (s : State) (p va n : Nat) (wr obj : Bool := false) : Option (List Loc × List Byte × State) :=
  match xlateN s (engAcc p) (va % 2 ^ 64) n wr obj with
  | .error _ => none
  | .ok (ls, s) => if (s.poisoned ls).isSome then none else some (ls, s.homeBytes p ls, s)

/-- Bytes the engine writes at their home (R232, R244): the state and the GWCT; an address that does not translate drops the write. -/
def State.engPut (s : State) (p va : Nat) (bs : List Byte) : State × Nat :=
  match xlateN s (engAcc p) (va % 2 ^ 64) bs.length true false with
  | .error _ => (s, 0)
  | .ok (ls, s) => s.applyAt (.hnd (10 * Config.clusters)) Config.clusters p false ((ls.zip bs).map fun q => .byte q.1 0xFF q.2)

/-- A run of bytes read in pieces of 4 KiB. -/
def State.engRun (s : State) (p va : Nat) : Nat → Nat → Option (List Byte × State)
  | 0, _ => some ([], s)
  | n + 1, len =>
    if len = 0 then some ([], s)
    else
      match s.eng p va (min len 4096) with
      | none => none
      | some (_, bs, s) =>
        match s.engRun p (va + 4096) n (len - 4096) with
        | none => none
        | some (t, s) => some (bs ++ t, s)

/-! Images (R112). -/

/-- A section of a .kob image: type, file offset, size. -/
structure KSec where
  ty : Nat
  off : Nat
  size : Nat
deriving DecidableEq, Repr

/-- A role record (R112). -/
structure KRole where
  ov : Nat
  off : Nat
  dcode : Nat
  nreg : Nat
  cls : Cls
  tslots : Nat
  sram : Nat
deriving DecidableEq, Repr

/-- What placement needs of an image: roles, overlays (file offset, size), rejoin entries (number, overlay, offset). -/
structure KImage where
  roles : List KRole
  ovs : List (Nat × Nat)
  rejoin : List (Nat × Nat × Nat)
deriving DecidableEq, Repr

/-- The section table. -/
def readSecs (p base : Nat) : Nat → Nat → State → Option (List KSec × State)
  | 0, _, s => some ([], s)
  | n + 1, off, s =>
    match s.eng p (base + off) 32 with
    | none => none
    | some (_, bs, s) =>
      let d := dwordsOf 4 bs
      let ty := bits (d.headD 0) 0 32
      if ty < 1 ∨ 7 < ty ∨ bits (d.headD 0) 32 32 ≠ 0 then none
      else
        match readSecs p base n (off + 32) s with
        | none => none
        | some (l, s) => some ({ ty := ty, off := d.getD 1 0, size := d.getD 2 0 } :: l, s)

/-- A role record's dwords, within the ranges of R111. -/
def parseRole (d : List Nat) : Option KRole :=
  let w := d.getD 1 0
  match Cls.ofCode (bits w 16 8) with
  | none => none
  | some c =>
    if 3 < bits w 0 8 ∨ 3 < bits w 8 8 ∨ bits w 24 8 ≠ 0 ∨ 64 < bits w 32 16 ∨ bits w 48 16 ≠ 0 ∨ d.getD 3 0 ≠ 0 then none
    else some { ov := bits (d.headD 0) 48 16, off := bits (d.headD 0) 0 48, dcode := bits w 0 8, nreg := bits w 8 8, cls := c
                tslots := bits w 32 16, sram := d.getD 2 0 }

/-- Role records. -/
def readRoles (p base : Nat) : Nat → Nat → State → Option (List KRole × State)
  | 0, _, s => some ([], s)
  | n + 1, off, s =>
    match s.eng p (base + off) 32 with
    | none => none
    | some (_, bs, s) =>
      match parseRole (dwordsOf 4 bs) with
      | none => none
      | some r =>
        match readRoles p base n (off + 32) s with
        | none => none
        | some (l, s) => some (r :: l, s)

/-- The valid entries of the reconvergence section, each naming a header word (R112). -/
def readRejoin (p base : Nat) (ovs : List (Nat × Nat)) : List (Nat × Nat) → State → Option (List (Nat × Nat × Nat) × State)
  | [], s => some ([], s)
  | (j, d) :: t, s =>
    if !bit d 63 then readRejoin p base ovs t s
    else
      let o := bits d 48 15
      let off := bits d 0 48
      match ovs[o]? with
      | none => none
      | some (fo, size) =>
        if size < off + 4 then none
        else
          match s.eng p (base + fo + off) 4 with
          | none => none
          | some (_, bs, s) =>
            if bits (leNat bs) 26 6 ≠ 63 then none
            else
              match readRejoin p base ovs t s with
              | none => none
              | some (l, s) => some ((j, o, off) :: l, s)

/-- The `.kernel` section: entry role index, role count, overlay count, as three dwords (R112, log 13). -/
def readKernel (s : State) (p base : Nat) (x : KSec) : Option (Nat × Nat × State) :=
  if x.size < 24 then none
  else (s.eng p (base + x.off) 24).map fun q => (leNat ((q.2.1.drop 8).take 8), leNat (q.2.1.drop 16), q.2.2)

/-- Read and check the image at `base` (R112). The role count and the overlay count of its `.kernel` section say how many records and overlay
sections it has, and an image that has fewer fails. -/
def State.readImage (s : State) (p base : Nat) : Option (KImage × State) :=
  match s.eng p base 16 with
  | none => none
  | some (_, h, s) =>
    let d0 := leNat (h.take 8)
    if bits d0 0 32 ≠ 0x01424F4B ∨ bits d0 32 16 ≠ 1 then none
    else
      match readSecs p base (bits d0 48 16) (leNat (h.drop 8)) s with
      | none => none
      | some (secs, s) =>
        let of (t : Nat) : List KSec := secs.filter (·.ty == t)
        match (if (of 1).length = 1 ∧ (of 2).length ≤ 1 ∧ (of 4).length ≤ 1 then (of 1).head?.bind (readKernel s p base) else none) with
        | none => none
        | some (nroles, novs, s) =>
        let ovs := ((of 3).take novs).map fun x => (x.off, x.size)
        let recs := (of 2).headD { ty := 2, off := 0, size := 0 }
        if ovs.length < novs ∨ recs.size < 32 * nroles ∨ (ovs.any fun o => decide (2 ^ 19 < o.2)) = true then none
        else
          match readRoles p base nroles recs.off s with
          | none => none
          | some (roles, s) =>
            if roles.any fun r => match ovs[r.ov]? with
                | none => true
                | some o => decide (o.2 < r.off + 4)
              then none
            else
              let rj := match of 4 with
                | x :: _ => (match s.eng p (base + x.off) 2048 with
                    | none => none
                    | some (_, bs, s) => readRejoin p base ovs ((dwordsOf 256 bs).zipIdx.map fun q => (q.2, q.1)) s)
                | [] => some ([], s)
              match rj with
              | none => none
              | some (j, s) => some ({ roles := roles, ovs := ovs, rejoin := j }, s)

/-- The largest overlay (R337). -/
def KImage.reserve (k : KImage) : Nat := maxL (k.ovs.map (·.2))

/-- An image of a partition, as clusters record it. -/
def imageKey (p base : Nat) : Nat := p * 2 ^ 64 + base

/-! Queues (R330). -/

/-- An enabled queue entry. -/
structure QEntry where
  ring : Nat
  dev : Bool
  prio : Nat
  weight : Nat
  log2 : Nat
  head : Nat
  tail : Nat
deriving DecidableEq, Repr

/-- The global index of a queue (R367). -/
def State.queueIx (s : State) (p q : Nat) : Nat := bits (s.pdesc p 8) 16 11 + q

/-- The address of a queue entry. -/
def State.queueAt (s : State) (p q : Nat) : Nat := s.pdesc p 7 + 32 * q

/-- Write dword `i` of a queue entry. -/
def State.queuePut (s : State) (p q i v : Nat) : State := (s.engPut p (s.queueAt p q + 8 * i) (leBytes 8 v)).1

/-- Record what the engine keeps of a queue. -/
def State.keep (s : State) (g : Nat) (k : QKept) : State := { s with engine := { s.engine with kept := FMap.set s.engine.kept g k } }

/-- The thread that stands for a queue of the engine in an event's request order (R147, R335). -/
def queueTid (p q : Nat) : Tid := .hnd (2 ^ 20 + p * 1024 + q)

/-- The engine holds a queue disabled: the request of a launch that waits for DEPEV is withdrawn (log 19). -/
def State.queueOff (s : State) (p q g : Nat) (k : QKept) : State :=
  { s with mem := { s.mem with eventQ := s.mem.eventQ.filter fun w => w.2 != queueTid p q } }.keep g { k with en := false, evQueued := false, slot := none }

/-- The engine reads a queue's entry (R330): a change in the wrong state, a reserved field or LOG2 out of range clears EN and is
logged; none for a queue that is absent or not enabled. -/
def State.readQueue (s : State) (p q : Nat) : Option QEntry × State :=
  if !s.partOn p || bits (s.pdesc p 8) 0 11 ≤ q then (none, s)
  else
    match s.eng p (s.queueAt p q) 32 with
    | none => (none, s)
    | some (_, bs, s) =>
      let d := dwordsOf 4 bs
      let d1 := d.getD 1 0
      let g := s.queueIx p q
      let kept := FMap.get? s.engine.kept g
      let e : QEntry := { ring := d.headD 0, dev := bit d1 62, prio := bits d1 56 3, weight := max 1 (bits d1 48 8), log2 := bits d1 0 5
                          head := d.getD 2 0, tail := d.getD 3 0 }
      if !bit d1 63 then
        (none, match kept with
          | some k => s.queueOff p q g { k with seenOff := true }
          | none => s)
      else
        let now : QKept := { ring := BitVec.ofNat 64 e.ring, dev := e.dev, log2 := e.log2, en := true, seenOff := false
                             consumed := (kept.map (·.consumed)).getD false, evQueued := (kept.map (·.evQueued)).getD false
                             prio := e.prio, weight := e.weight, slot := kept.bind (·.slot) }
        let wrong := match kept with
          | none => false
          | some k => (k.ring != now.ring || k.dev != now.dev || k.log2 != now.log2) && !(e.head == e.tail && k.seenOff)
        if wrong || bits d1 59 3 != 0 || bits d1 5 43 != 0 || 16 < e.log2 then
          (none, ((s.queuePut p q 1 (d1 % 2 ^ 63)).queueOff p q g (kept.getD now)).log 5 p 0 g)
        else (some e, s.keep g now)

/-- HOST_DOORBELL (R331, R368). -/
def State.doorbell (s : State) (p q v : Nat) : State :=
  let bad (s : State) : State := s.log 6 p 0 q v
  match s.readQueue p q with
  | (none, s) => bad s
  | (some e, s) => if e.dev || v < e.tail || e.head + 2 ^ e.log2 < v then bad s else s.queuePut p q 3 v

/-! Occupancy and placement (R337, R338). -/

/-- What is taken and free on a cluster. -/
structure Occ where
  cluster : Nat
  m : Nat
  ctx : List Nat
  regs : List Nat
  tsl : List Nat
  sram : Nat
  pads : List (Nat × Nat × Nat)
  rejoin : List Nat
  room : Nat
deriving DecidableEq, Repr

/-- A cluster's occupancy with nothing placed. -/
def State.occEmpty (s : State) (p c : Nat) : Occ :=
  { cluster := c, m := (s.cluster c).laneCount, ctx := List.range 16, regs := List.replicate 32 0, tsl := List.replicate 32 0
    sram := 0, pads := [], rejoin := [], room := Config.spadBytes - (s.part p).hres }

/-- Round up to 4 KiB. -/
def up4k (n : Nat) : Nat := (n + 4095) / 4096 * 4096

/-- The slots of a lane a row takes: those it has reserved, or more where more of its VPs hold one (R20, R41, R280). -/
def Row.slotsTaken (r : Row) (l : Nat) : Nat := max (r.slotsUsed l) (r.slotsReserved l)

/-- A cluster's occupancy as it stands (R337, R340): contexts, slices and slots of resident rows; SRAM and images of every row. -/
def State.occNow (s : State) (p c : Nat) : Occ :=
  let rows := s.rows.filter (·.cluster == c)
  let res := rows.filter (·.ctx.isSome)
  { s.occEmpty p c with
    ctx := (List.range 16).filter fun k => !(res.any fun r => r.ctx == some k)
    regs := (List.range 32).map fun l => sumL (res.map fun r => if r.base ≤ l ∧ l < r.base + r.w then nregOf r.nregCode else 0)
    tsl := (List.range 32).map fun l => sumL (res.map fun r => r.slotsTaken l)
    sram := sumL (rows.map (·.sram))
    pads := (s.cluster c).images
    rejoin := (s.cluster c).rejoin.map (·.1) }

/-- Bases, with the number of lanes of their spans, that R17 allows for a declared width. -/
def basesOf (m d : Nat) : List (Nat × Nat) :=
  ((List.range m).filter fun b => b % d == 0 && (8 < d || decide (b + d ≤ m))).map fun b => (b, min (b + d) m - b)

/-- The lowest offset below `room` where `n` bytes lie free among the reservations of a cluster's scratchpad (log 14). -/
def padAlloc (room : Nat) (pads : List (Nat × Nat × Nat)) (n : Nat) : Option Nat :=
  let fits (o : Nat) : Bool := decide (o + n ≤ room) && pads.all fun q => decide (o + n ≤ q.2.1) || decide (q.2.1 + q.2.2 ≤ o)
  match (0 :: pads.map fun q => q.2.1 + q.2.2).filter fits with
  | [] => none
  | o :: t => some (t.foldl min o)

/-- A row of a role fits on a cluster: base, width, context, and the occupancy with it (R337, R338). -/
def Occ.fit (o : Occ) (role : KRole) (key : Nat) (img : KImage) : Option (Nat × Nat × Nat × Occ) :=
  let sram := up4k role.sram
  let ts := if role.cls = .par then role.tslots else 0
  let regs := nregOf role.nreg
  let has := o.pads.any (·.1 == key)
  match o.ctx with
  | [] => none
  | ctx :: rest =>
    if Config.sramBytes < o.sram + sram then none
    else if !has && (padAlloc o.room o.pads img.reserve).isNone then none
    else if !has && decide (256 < o.rejoin.length + img.rejoin.length) then none
    else
      let span (p : Nat × Nat) : List Nat := (List.range p.2).map (p.1 + ·)
      let ok := (basesOf o.m (4 * 2 ^ role.dcode)).filter fun p => (span p).all fun l =>
        decide (o.regs.getD l 0 + regs ≤ 512) && decide (o.tsl.getD l 0 + ts ≤ 64)
      let load (p : Nat × Nat) : Nat := maxL ((span p).map fun l => o.regs.getD l 0)
      match ok with
      | [] => none
      | p0 :: ps =>
        let p := ps.foldl (fun a b => if load b < load a then b else a) p0
        let inSpan (l : Nat) : Bool := decide (p.1 ≤ l) && decide (l < p.1 + p.2)
        some (p.1, p.2, ctx,
          { o with
            ctx := rest
            regs := o.regs.zipIdx.map fun q => if inSpan q.2 then q.1 + regs else q.1
            tsl := o.tsl.zipIdx.map fun q => if inSpan q.2 then q.1 + ts else q.1
            sram := o.sram + sram
            pads := if has then o.pads else o.pads ++ [(key, (padAlloc o.room o.pads img.reserve).getD 0, img.reserve)]
            rejoin := if has then o.rejoin else img.rejoin.map (fun _ => key) ++ o.rejoin })

/-- One row of a plan: ROWID, role index and record, cluster, base, width, context. -/
structure PlanRow where
  rowid : Nat
  roleIx : Nat
  role : KRole
  cluster : Nat
  base : Nat
  w : Nat
  ctx : Nat
deriving DecidableEq, Repr

/-- The rank of a promoted row (R342): earliest promotion, and on a tie the lower TEAMID, then the lower ROWID. -/
def promoRankOf (et team rowid : Nat) : Nat := (et * 2 ^ 16 + team) * 64 + rowid

/-- The rank of a promoted row. -/
def Row.promoRank (r : Row) : Nat := promoRankOf ((r.promo.map (·.1)).getD 0) r.team r.rowid

/-- A cluster can take rows (R16, R386): it is in service, and its die not stopped for heat. -/
def State.clusterUp (s : State) (c : Nat) : Bool := !(s.cluster c).outOfService && !(s.cluster c).stoppedHot

/-- A cluster takes no row of a rank, of none if not promoted (R16, R284, R343, R386): it takes no rows at all, or its next context is for a
waiting lock holder, or for a waiting promoted row of a better rank. -/
def State.clusterShut (s : State) (c : Nat) (rank : Option Nat) : Bool :=
  !s.clusterUp c || s.rows.any fun r => r.cluster == c && r.ctx.isNone && (r.holder || r.promo.isSome && match rank with
    | some k => decide (r.promoRank < k)
    | none => true)

/-- The first cluster of a list where a row fits, with the occupancies after it. -/
def fitFirst (shut : Nat → Bool) (role : KRole) (key : Nat) (img : KImage) : List Occ → Option ((Nat × Nat × Nat × Nat) × List Occ)
  | [] => none
  | o :: t =>
    match (if shut o.cluster then none else o.fit role key img) with
    | some (b, w, c, o') => some ((o.cluster, b, w, c), o' :: t)
    | none => (fitFirst shut role key img t).map fun q => (q.1, o :: q.2)

/-- Place rows in ROWID order (R338): `whole` is a team placed whole or not at all; `pool` the free slots of the context pool; `shut` the clusters
that take no row of a ROWID and role. -/
def planRows (shut : Nat → KRole → Nat → Bool) (whole : Bool) (key : Nat) (img : KImage) :
    List (Nat × Nat × KRole) → List Occ → Nat → Option (List PlanRow)
  | [], _, _ => some []
  | (rid, ix, role) :: t, os, pool =>
    match (if pool = 0 then none else fitFirst (shut rid role) role key img os) with
    | some ((c, b, w, ctx), os) =>
      (planRows shut whole key img t os (pool - 1)).map fun l =>
        { rowid := rid, roleIx := ix, role := role, cluster := c, base := b, w := w, ctx := ctx } :: l
    | none => if whole then none else planRows shut whole key img t os pool

/-- The clusters of a partition on a die, ascending. -/
def State.dieClusters (s : State) (p die : Nat) : List Nat := ((List.range 16).map (die * 16 + ·)).filter (s.clusterIn p)

/-- Context-pool slots of a partition in use. -/
def State.poolUsed (s : State) (p : Nat) : List Nat := (s.engine.pool.filter fun k => k / 1024 == p).map (· % 1024)

/-- The rows of a team in ROWID order with their roles (R333). -/
def teamRows (img : KImage) (mix : List (Nat × Nat)) : List (Nat × Nat × KRole) :=
  ((mix.flatMap fun q => List.replicate q.2 q.1).zipIdx).filterMap fun q => (img.roles[q.1]?).map fun r => (q.2, q.1, r)

/-- A team that holds a row of a parallel role (R279, R338). -/
def teamWhole (rows : List (Nat × Nat × KRole)) : Bool := rows.any fun r => r.2.2.cls == .par

/-- The rank of a row that is not placed yet (R282, R338): a concurrent one of a team whose rows count as promoted. `due` is when and which. -/
def unplacedRank (due : Option (Nat × Nat)) (rid : Nat) (role : KRole) : Option Nat :=
  if role.cls = .conc then due.map fun d => promoRankOf d.1 d.2 rid else none

/-- The plan of rows on a die as it stands, or on the die empty. -/
def State.planDie (s : State) (p die : Nat) (empty whole : Bool) (key : Nat) (img : KImage) (rows : List (Nat × Nat × KRole))
    (due : Option (Nat × Nat) := none) : Option (List PlanRow) :=
  let cs := (s.dieClusters p die).filter fun c => !(s.cluster c).outOfService
  let pool := bits (s.pdesc p 11) 0 10 - (if empty then 0 else (s.poolUsed p).length)
  let shut (rid : Nat) (role : KRole) (c : Nat) : Bool := !empty && s.clusterShut c (unplacedRank due rid role)
  match planRows shut whole key img rows (cs.map fun c => if empty then s.occEmpty p c else s.occNow p c) pool with
  | some [] => none
  | r => r

/-- Free row contexts of a partition's clusters on a die (R338): of those that can take rows. -/
def State.freeCtx (s : State) (p die : Nat) : Nat :=
  sumL (((s.dieClusters p die).filter s.clusterUp).map fun c => (s.occNow p c).ctx.length)

/-- The die with the most free contexts, the lowest on a tie, among those of a list with their plans (R338). -/
def State.bestDie (s : State) (p : Nat) : List (Nat × List PlanRow) → Option (Nat × List PlanRow)
  | [] => none
  | x :: t =>
    match s.bestDie p t with
    | none => some x
    | some y => some (if s.freeCtx p x.1 < s.freeCtx p y.1 then y else x)

/-! Descriptors (R333, R334). -/

/-- A launch descriptor. -/
structure LDesc where
  queue : Nat
  flags : Nat
  roles : Nat
  teams : Nat
  rsv : Nat
  image : Nat
  args : Nat
  mix : List Nat
  depev : Nat
  depwm : Nat
  done : Nat
  doneEv : Nat
deriving DecidableEq, Repr

/-- The fields of 64 bytes. -/
def parseDesc (bs : List Byte) : LDesc :=
  let d := dwordsOf 8 bs
  let w := d.headD 0
  let m := d.getD 3 0
  { queue := bits w 0 16, flags := bits w 16 8, roles := bits w 24 8, teams := bits w 32 16 + 1, rsv := bits w 48 16
    image := d.getD 1 0, args := d.getD 2 0, mix := [bits m 0 16, bits m 16 16, bits m 32 16, bits m 48 16]
    depev := d.getD 4 0, depwm := d.getD 5 0, done := d.getD 6 0, doneEv := d.getD 7 0 }

/-- The MIX entries of a descriptor: role index, rows (R333). -/
def LDesc.entries (d : LDesc) : List (Nat × Nat) := (d.mix.take d.roles).map fun e => (bits e 8 8, bits e 0 7)

/-- An address field: zero, or aligned and translating. -/
def State.descAddr (s : State) (p va al n : Nat) (wr obj : Bool) : Option State :=
  if va = 0 then some s
  else if va % al ≠ 0 then none
  else
    match xlateN s (engAcc p) va n wr obj with
    | .error _ => none
    | .ok (_, s) => some s

/-- The tests of R334: the image and the rows of a team. -/
def State.checkDesc (s : State) (p : Nat) (d : LDesc) : Option (KImage × State) :=
  if 1023 < d.queue ∨ 1 < d.flags ∨ d.roles < 1 ∨ 4 < d.roles ∨ d.rsv ≠ 0 ∨ d.image % 64 ≠ 0 then none
  else if ((d.mix.drop d.roles).any (· != 0)) || ((d.mix.take d.roles).any fun e => bit e 7 || bits e 0 7 == 0 || 64 < bits e 0 7) ||
      !(decide ((d.entries.map (·.1)).Nodup)) || 64 < sumL (d.entries.map (·.2)) then none
  else
    match s.readImage p d.image with
    | none => none
    | some (img, s) =>
      if img.roles.isEmpty || d.entries.any fun e => decide (img.roles.length ≤ e.1) then none
      else
        match s.descAddr p d.args 8 256 false false with
        | none => none
        | some s =>
        match s.descAddr p d.depev 8 8 true true with
        | none => none
        | some s =>
        match s.descAddr p d.depwm 8 8 false false with
        | none => none
        | some s =>
        match s.descAddr p d.done 16 16 true false with
        | none => none
        | some s =>
        match s.descAddr p d.doneEv 8 8 true true with
        | none => none
        | some s =>
          let rows := teamRows img d.entries
          if (List.range 8).any fun die => (s.planDie p die true true (imageKey p d.image) img rows).isSome then some (img, s) else none

/-- A `launch` (R332): the reply, −2 rejected, −1 full, or the sequence number. -/
def State.submit (s : State) (p : Nat) (bs : List Byte) : State × Int :=
  let d := parseDesc bs
  match s.readQueue p d.queue with
  | (none, s) => (s, -2)
  | (some e, s) =>
    if !e.dev then (s, -2)
    else
      match s.checkDesc p d with
      | none => (s, -2)
      | some (_, s) =>
        if 2 ^ e.log2 ≤ e.tail - e.head then (s, -1)
        else
          let s := (s.engPut p (e.ring + 64 * (e.tail % 2 ^ e.log2)) bs).1
          (s.queuePut p d.queue 3 (e.tail + 1), e.tail)

/-! Starting (R335). -/

/-- A launch takes its place among the started ones, HEAD advances. -/
def State.startLaunch (s : State) (p q : Nat) (e : QEntry) (d : LDesc) (rejected : Bool) : State :=
  let g := s.queueIx p q
  let l : Launch :=
    { id := s.engine.nextId, part := p, q := q, seq := e.head, image := d.image, args := d.args, teams := if rejected then 0 else d.teams
      mix := d.entries, done := d.done, doneEv := d.doneEv, next := 0, placed := [], die := none, since := 0, unfit := none
      blocking := none, killed := 0, forced := false, gwct := 0, late := [], rejected := rejected }
  let s := s.queuePut p q 2 (e.head + 1)
  let s := match FMap.get? s.engine.kept g with
    | some k => s.keep g { k with consumed := false, evQueued := false, slot := none }
    | none => s
  { s with engine := { s.engine with launches := s.engine.launches ++ [l], nextId := s.engine.nextId + 1 } }

/-- The launch at the head of a queue takes its event count (R147, R335): at once, or as the next in the event's order. None while it waits. -/
def State.takeDep (s : State) (p q : Nat) (e : QEntry) (d : LDesc) (k : QKept) : Option State :=
  let g := s.queueIx p q
  if k.evQueued then none
  else
    match s.eng p d.depev 8 true true with
    | none => some ((s.startLaunch p q e d true).log 7 p 0 g)
    | some (ls, b, s) =>
      let key := (ls.headD { key := 0, enc := 0, home := 0 }).key
      if leNat b ≠ 0 ∧ (s.mem.eventQ.any fun w => w.1 == key) = false then
        some ((s.engPut p d.depev (leBytes 8 (leNat b - 1))).1.keep g { k with consumed := true })
      else some ({ s with mem := { s.mem with eventQ := s.mem.eventQ ++ [(key, queueTid p q)] } }.keep g { k with evQueued := true })

/-- The tests of R335 for the launch at the head, whose slot has been read; none where it has to wait. -/
def State.startHead (s : State) (p q : Nat) (e : QEntry) (d : LDesc) (k : QKept) : Option State :=
  if d.depev ≠ 0 ∧ k.consumed = false then s.takeDep p q e d k
  else
    let serialOk := !bit d.flags 0 || !(s.engine.launches.any fun l => l.part == p && l.q == q && decide (l.seq < e.head) && l.recorded.isNone)
    if d.depwm = 0 then (if serialOk then some (s.startLaunch p q e d false) else none)
    else
      match s.eng p d.depwm 8 with
      | none => some ((s.startLaunch p q e d true).log 7 p 0 (s.queueIx p q))
      | some (_, b, s) => if leNat b ≠ 0 ∧ serialOk = true then some (s.startLaunch p q e d false) else none

/-- LAUNCH_START for the head of a queue (R331, R334, R335): its slot is read when it reaches the head, and a host-fed launch rejected then;
after that the conditions of its start are tested. None where the head has to wait. -/
def State.launchStart (s : State) (p q : Nat) : Option State :=
  match s.readQueue p q with
  | (none, s1) => if FMap.get? s1.engine.kept (s.queueIx p q) = FMap.get? s.engine.kept (s.queueIx p q) then none else some s1
  | (some e, s) =>
    match FMap.get? s.engine.kept (s.queueIx p q) with
    | none => none
    | some k =>
      if e.tail ≤ e.head then none
      else
        match k.slot with
        | some bs => s.startHead p q e (parseDesc bs) k
        | none =>
          match s.eng p (e.ring + 64 * (e.head % 2 ^ e.log2)) 64 with
          | none => some (s.startLaunch p q e (parseDesc []) true)
          | some (_, bs, s) =>
            let d := parseDesc bs
            match (if e.dev then some s else (s.checkDesc p d).map (·.2)) with
            | none => some (s.startLaunch p q e d true)
            | some s => some (s.keep (s.queueIx p q) { k with slot := some bs })

/-! Placing (R336 to R339). -/

/-- Bytes of a binding on the control page (R323). -/
def State.setBinding (s : State) (cluster c : Nat) (b : Nat × Nat × Nat) : State :=
  s.pokeBytes (ctlPageAt cluster + 32 * c) (leBytes 8 b.1 ++ leBytes 8 b.2.1 ++ leBytes 8 b.2.2 ++ leBytes 8 0)

/-- Load an image on a cluster where it is not yet: its scratchpad place and its rejoin entries (R337, R339). -/
def State.loadImage (s : State) (p c key base : Nat) (img : KImage) : Nat × State :=
  match (s.cluster c).images.find? (·.1 == key) with
  | some q => (q.2.1, s)
  | none =>
    let at_ := (padAlloc (s.occEmpty p c).room (s.cluster c).images img.reserve).getD 0
    (at_, s.modCluster c fun k => { k with
      images := k.images ++ [(key, at_, img.reserve)]
      rejoin := k.rejoin ++ img.rejoin.map fun j => (key, j.1, base + (img.ovs.getD j.2.1 (0, 0)).1 + j.2.2) })

/-- A row as it is created (R57, R63, R65, R339). -/
def Row.create (id : Nat) (l : Launch) (key prio : Nat) (whole : Bool) (p : PlanRow) (place : Word) (pool starve et : Nat)
    (x : Vector Word 32) (pc : Nat) (bind : Nat × Nat × Nat) (code : List Host.Cell) : Row :=
  { id := id, part := l.part, launch := l.id, team := l.next, rowid := p.rowid, cls := p.role.cls, roleIx := p.roleIx
    nregCode := p.role.nreg, tslots := p.role.tslots, sram := up4k p.role.sram, prio := prio, ltag := l.seq % 1024, image := key
    cluster := p.cluster, ctx := some p.ctx, dwidth := p.role.dcode, w := p.w, base := p.base, place := place, owner := pool + 1
    vvalid := true, pool := pool
    th := { x := x, pc := BitVec.ofNat 64 pc, gwct := 0, arrival := none, landing := none, wait := none, frozen := none }
    cf := List.replicate 12 0, cnt := List.replicate 4 0, seqs := List.replicate 4 0, cv := List.replicate 8 none
    streams := List.replicate 8 none, wm := List.replicate 4 none, sb := Vector.replicate 8 0, rind := none, buf := [], bufCnt := []
    srd := [], swr := [], seedQ := [], drainQ := [], recvQ := [], vps := [], blocks := [], held := none, bundles := [], vxrm := 0
    vsat := false, frm := 0, fflags := 0, zp := false, band := false, mxon := false, mxrow := 0, mxk := 0, drain := none
    starve := starve, locks := 0, holder := false, whole := whole
    promo := if p.role.cls = .conc ∧ 2 ^ 20 ≤ starve then some (et, 0) else none
    yielded := false, preempt := none, away := none, stepping := none
    stepVf := none, bind := bind, code := code }

/-- The slices of a context for a row made resident there (R327): of owner 0 or its own, valid; of another, not. -/
def State.takeSlices (s : State) (row : Nat) : State :=
  match s.row? row with
  | none => s
  | some r =>
    let sl := s.slice r
    if sl.owner = r.owner then s.modRow row fun q => { q with vvalid := true }
    else if sl.owner = 0 then
      let (seed, s) := s.fresh
      (s.setSlice r { Slice.fresh seed with owner := r.owner, w := r.w, base := r.base, nreg := r.nregCode }).modRow row fun q =>
        { q with vvalid := true }
    else s.modRow row fun q => { q with vvalid := false }

/-- PLACE (R23): the numbers its partition gives die and cluster. -/
def State.placeWord (s : State) (p c w dcode base ctx : Nat) : Word :=
  BitVec.ofNat 64 (w * 2 ^ 18 + dcode * 2 ^ 16 + base * 2 ^ 11 + ctx * 2 ^ 7 + s.placeOf p c)

/-- Place one row of a plan (R339). -/
def State.placeRow (s : State) (l : Launch) (img : KImage) (prio : Nat) (whole : Bool) (p : PlanRow) : State :=
  let key := imageKey l.part l.image
  let (off, s) := s.loadImage l.part p.cluster key l.image img
  let (fo, size) := img.ovs.getD p.role.ov (0, 0)
  let (code, s) := (s.engRun l.part (l.image + fo) 128 size).getD ([], s)
  let s := s.pokeBytes (spadAt p.cluster + off) code
  let (args, s) := if l.args = 0 then ([], s) else match s.eng l.part l.args 256 with
    | some (_, bs, s) => (bs, s)
    | none => ([], s)
  let d := dwordsOf 32 args
  let x : Vector Word 32 := genVec 32 fun i => if i.val = 0 then 0 else BitVec.ofNat 64 (d.getD i.val 0)
  let used := s.poolUsed l.part
  let pool := ((List.range 1024).find? fun k => !used.contains k).getD 0
  let bind := (l.image + fo, size, off)
  let place := s.placeWord l.part p.cluster p.w p.role.dcode p.base p.ctx
  let starve := if l.placed.isEmpty then 0 else min (2 ^ 20) (s.clock.cycle - l.since)
  let id := s.engine.nextRow
  let row := Row.create id l key prio whole p place pool starve s.clock.et x (l.image + fo + p.role.off) bind (s.overlay p.cluster bind)
  let s := { s with
    rows := s.rows ++ [row]
    engine := { s.engine with nextRow := id + 1, pool := s.engine.pool ++ [l.part * 1024 + pool] } }
  (s.setBinding p.cluster p.ctx bind).takeSlices id

/-- Change a launch. -/
def State.modLaunch (s : State) (k : Nat) (f : Launch → Launch) : State :=
  { s with engine := { s.engine with launches := s.engine.launches.map fun l => if l.id = k then f l else l } }

/-- A candidate of the engine (R336): the launch, its queue's global index, priority and weight, its image, the rows of its next team
not yet placed. -/
structure Cand where
  l : Launch
  g : Nat
  prio : Nat
  weight : Nat
  img : KImage
  rows : List (Nat × Nat × KRole)
  whole : Bool
deriving DecidableEq, Repr

/-- Another launch's blocking team keeps this candidate off a die (R336): one of its own or a higher priority, or, where the candidate is
itself blocking there, one that became blocking before it. -/
def blockedOn (cs : List Cand) (c : Cand) (die : Nat) : Bool :=
  cs.any fun b => b.l.id != c.l.id && (match b.l.blocking with
    | some (t, d) => d == die && (match c.l.blocking with
        | some (u, _) => decide (t < u) || (t == u && decide (b.l.id < c.l.id))
        | none => decide (b.prio ≤ c.prio))
    | none => false)

/-- A concurrent row of the candidate has been ready for 2^20 cycles since the team's first rows were placed (R282, R338): it counts as promoted
from then on. -/
def Cand.due (c : Cand) (now : Nat) : Bool :=
  !c.whole && !c.l.placed.isEmpty && (c.rows.any fun r => r.2.2.cls == .conc) && decide (c.l.since + 2 ^ 20 ≤ now)

/-- When the rows of a candidate that are not placed yet were promoted, with their TEAMID (R342). -/
def Cand.dueAt (c : Cand) (now : Nat) : Option (Nat × Nat) := if c.due now then some ((c.l.since + 2 ^ 20) / 3, c.l.next) else none

/-- The die and plan with which a candidate fits now. -/
def State.candFit (s : State) (cs : List Cand) (c : Cand) : Option (Nat × List PlanRow) :=
  let dies := match c.l.die, c.l.blocking with
    | some d, _ => [d]
    | none, some (_, d) => [d]
    | none, none => List.range 8
  s.bestDie c.l.part (dies.filterMap fun die =>
    if blockedOn cs c die then none
    else (s.planDie c.l.part die false c.whole (imageKey c.l.part c.l.image) c.img c.rows (c.dueAt s.clock.cycle)).map fun p => (die, p))

/-- A snapshot under way keeps a partition's rows stopped (R375): it does once its barrier is complete. -/
def State.snapHolds (s : State) (p : Nat) : Bool := (s.part p).snapState == 1 && !(s.part p).snapBar

/-- The candidates: of each queue the earliest started launch with teams left (R336), with the PRIO and WEIGHT last read of its entry, those of
the table's reset column where none has been (R330). -/
def State.candidates : List Launch → List (Nat × Nat) → State → List Cand × State
  | [], _, s => ([], s)
  | l :: t, seen, s =>
    if seen.contains (l.part, l.q) || l.teams ≤ l.next || !s.partOn l.part || s.snapHolds l.part then State.candidates t seen s
    else
      let k := FMap.get? s.engine.kept (s.queueIx l.part l.q)
      match s.readImage l.part l.image with
      | none => State.candidates t ((l.part, l.q) :: seen) s
      | some (img, s) =>
        let rows := teamRows img l.mix
        let c : Cand := { l := l, g := s.queueIx l.part l.q, prio := (k.map (·.prio)).getD 7, weight := (k.map (·.weight)).getD 1
                          img := img, rows := rows.filter fun r => !l.placed.contains r.1, whole := teamWhole rows }
        let (cs, s) := State.candidates t ((l.part, l.q) :: seen) s
        (c :: cs, s)

/-- Candidates in the order of a priority's turn: from its queue on, then the others, ascending. -/
def turnOrder (cs : List Cand) (at_ : Nat) : List Cand :=
  let sorted := (cs.map (·.g)).dedup.mergeSort.filterMap fun g => cs.find? (·.g == g)
  sorted.filter (fun c => decide (at_ ≤ c.g)) ++ sorted.filter fun c => decide (c.g < at_)

/-- Place a candidate's plan; the launch's progress, and the queue's turn (R336, R338). -/
def State.placeTeam (s : State) (cs : List Cand) (c : Cand) (die : Nat) (plan : List PlanRow) : State :=
  let s := plan.foldl (fun s p => s.placeRow c.l c.img c.prio c.whole p) s
  let full := plan.length = c.rows.length
  let s := s.modLaunch c.l.id fun l =>
    if full then { l with next := l.next + 1, placed := [], die := none, since := 0, unfit := none, blocking := none }
    else { l with placed := l.placed ++ plan.map (·.rowid), die := some die, unfit := none
                  since := if l.placed.isEmpty then s.clock.cycle else l.since }
  let (at_, n) := FMap.getD s.engine.turn c.prio (0, 0)
  let n := (if at_ = c.g then n else 0) + (if full then 1 else 0)
  let ring := turnOrder (cs.filter (·.prio == c.prio)) (c.g + 1)
  let turn := if c.weight ≤ n then ((ring.head?.map (·.g)).getD c.g, 0) else (c.g, n)
  { s with engine := { s.engine with turn := FMap.set s.engine.turn c.prio turn } }

/-- At a selection the engine reads the entry of every queue of the enabled partitions (R330). -/
def State.readQueues (s : State) : State :=
  ((List.range 16).filter s.partOn).foldl (fun s p => (List.range (bits (s.pdesc p 8) 0 11)).foldl (fun s q => (s.readQueue p q).2) s) s

/-- LAUNCH_ENGINE_SELECTION (R330, R336): read the queues, place one team, and say since when candidates have not fitted without a break; none
where nothing changes. -/
def State.selectTeam (s : State) : Option State :=
  let kept := s.engine.kept
  let s := s.readQueues
  let (cs, s) := State.candidates s.engine.launches [] s
  let fit (c : Cand) : Bool := (s.candFit cs c).isSome
  let news := cs.filter fun c => fit c == c.l.unfit.isSome
  let u := news.foldl (fun s c => s.modLaunch c.l.id fun l => { l with unfit := if fit c then none else some s.clock.et }) s
  let s := u
  match cs.filter fit with
  | [] => if news.isEmpty && s.engine.kept == kept then none else some s
  | f :: fs =>
    let p := fs.foldl (fun a c => min a c.prio) f.prio
    let order := turnOrder (cs.filter (·.prio == p)) (FMap.getD s.engine.turn p (0, 0)).1
    (order.find? fun c => (s.candFit cs c).isSome).bind fun c => (s.candFit cs c).map fun q => s.placeTeam cs c q.1 q.2

/-- TEAM_BLOCKING_TIMEOUT (R336): a team that has not fit for 100 µs becomes blocking and chooses a die; none before. -/
def State.becomeBlocking (s : State) (k : Nat) : Option State :=
  let (cs, s) := State.candidates s.engine.launches [] s
  match cs.find? fun c => c.l.id == k with
  | none => none
  | some c =>
    match c.l.unfit with
    | none => none
    | some t =>
      if c.l.blocking.isSome ∨ s.clock.et < t + 100000 ∨ (s.candFit cs c).isSome = true then none
      else
        let dies := (match c.l.die with
          | some d => [d]
          | none => List.range 8).filterMap fun die =>
            (s.planDie c.l.part die true c.whole (imageKey c.l.part c.l.image) c.img c.rows).map fun p => (die, p)
        (s.bestDie c.l.part dies).map fun d => s.modLaunch k fun l => { l with blocking := some (s.clock.et, d.1) }

/-! Pre-emption and resumption (R279, R284, R326, R340). -/

/-- The rows that stop and resume together with a row: its team, if it was placed whole (R279). -/
def State.teamOf (s : State) (r : Row) : List Row :=
  if r.whole then s.rows.filter fun q => q.launch == r.launch && q.team == r.team else [r]

/-- A strip has not closed 4,096 cycles after the request (R326). -/
def State.stopLate (s : State) (r : Row) : Bool :=
  match r.preempt with
  | some t => decide (t + 4096 ≤ s.clock.cycle)
  | none => false

/-- A row is at its stop point (R271, R326): no block under way, every VP at a block boundary or stalled in a wait, no matrix operation at the
end of its work; and no strip open, or an open one 4,096 cycles late: a restartable one at once, another once its instructions have completed. -/
def State.atStop (s : State) (r : Row) : Bool :=
  let st := s.stripOf r
  let still := r.bundles.isEmpty && r.vps.all fun p => p.2.mid.isNone || p.2.wait.isSome
  let quiet := r.th.frozen.isSome || (r.blocks.isEmpty && r.held.isNone)
  let unit := !(s.ops.any fun o => o.row == r.id && o.kind.isMatrix && (o.started || o.midRow && !o.stopped))
  still && unit && (if st.opn && r.th.frozen.isNone then s.stopLate r && (!st.nr || (quiet && !s.stripBusy r)) else quiet)

/-- The row's scalar state is written to its context area (R326, R339): the layout is not architectural, so its bytes are free values. -/
def State.saveArea (s : State) (r : Row) : State :=
  let at_ := s.pdesc r.part 10 + 2 ^ 15 * r.pool
  let (seed, s) := s.fresh
  s.fillBytes at_ (Config.freeByte seed) ((List.range (2 ^ 15)).reverse)

/-- Stop a row and free its context (R326, R340, R285): a restartable strip restarts without a record, another's stores drain. -/
def State.preemptRow (s : State) (row : Nat) : State :=
  match s.row? row with
  | none => s
  | some r =>
    let st := s.stripOf r
    let s := if st.opn && r.th.frozen.isNone then (if st.nr then s.commitBuf row else s.restartStrip row) else s
    let s := s.abandon (.ctl row)
    let s := r.vps.foldl (fun s p => s.abandon (.vp row p.1)) s
    let s := if r.mxon && r.vvalid then s.modSlice r fun sl => sl.dirty 15 31 else s
    let s := { s with clock := { s.clock with issue := s.clock.issue.filter fun a => match a with
      | .ctl k | .lanes k | .drain k => k != row
      | .bundle k _ => k != row
      | .hnd _ => true } }
    let holds := decide (0 < r.locks) || (s.cluster r.cluster).mx.holder == some row
    (s.saveArea r).modRow row fun q => { q with ctx := none, preempt := none, away := some s.clock.et, holder := holds }

/-- PREEMPTION_REQUEST (R279, R326): the request is noted; the rows that stop together leave when each is at its stop point. -/
def State.preemptRequest (s : State) (row : Nat) : Option State :=
  match s.row? row with
  | none => none
  | some r =>
    if r.ctx.isNone then none
    else
      let team := (s.teamOf r).filter (·.ctx.isSome)
      if team.all fun q => q.preempt.isSome then
        (if team.all s.atStop then some (team.foldl (fun s q => s.preemptRow q.id) s) else none)
      else some (team.foldl (fun s q => s.modRow q.id fun q => { q with preempt := some (q.preempt.getD s.clock.cycle) }) s)

/-- The context in which a pre-empted row fits again on its cluster, with the occupancy after it (R337, R340): the lanes its contents
need are still mapped. -/
def resumeFit (o : Occ) (r : Row) (ctx : Option Nat) : Option (Nat × Occ) :=
  let lanes := (List.range r.w).map (r.base + ·)
  let c := match ctx with
    | some k => if o.ctx.contains k then some k else none
    | none => o.ctx.head?
  match c with
  | none => none
  | some k =>
    if r.base + r.w ≤ o.m ∧ lanes.all fun l => decide (o.regs.getD l 0 + nregOf r.nregCode ≤ 512) && decide (o.tsl.getD l 0 + r.slotsTaken l ≤ 64) then
      some (k, { o with
        ctx := o.ctx.filter (· != k)
        regs := o.regs.zipIdx.map fun q => if lanes.contains q.2 then q.1 + nregOf r.nregCode else q.1
        tsl := o.tsl.zipIdx.map fun q => q.1 + r.slotsTaken q.2 })
    else none

/-- Contexts for rows resumed together. -/
def resumePlan (row : Nat) (ctx : Option Nat) : List Row → (Nat → Occ) → Option (List (Nat × Nat))
  | [], _ => some []
  | r :: t, occ =>
    match resumeFit (occ r.cluster) r (if r.id = row then ctx else none) with
    | none => none
    | some (k, o) => (resumePlan row ctx t fun c => if c = r.cluster then o else occ c).map fun l => (r.id, k) :: l

/-- The rows resumed with a row, the named one first (R279, R340). -/
def State.returning (s : State) (r : Row) : List Row := r :: (s.teamOf r).filter fun q => q.ctx.isNone && q.id != r.id

/-- The plan of a resumption, and whether one exists (R340). -/
def State.resumeAt (s : State) (r : Row) (ctx : Option Nat) : Option (List (Nat × Nat)) :=
  resumePlan r.id ctx (s.returning r) fun c => s.occNow r.part c

/-- The earliest time at which a lock holder among some rows left a cluster. -/
def holderAway (l : List Row) (c : Nat) : Option Nat :=
  (l.filter fun q => q.cluster == c && q.holder).foldl (fun o q => match o with
    | none => some (q.away.getD 0)
    | some t => some (min t (q.away.getD 0))) none

/-- A waiting lock holder of another team comes before the rows of a resumption on a cluster of theirs (R284): pre-empted earlier, or none of
these holds a lock there. -/
def State.holderFirst (s : State) (r : Row) : Bool :=
  let mine := s.returning r
  (s.rows.filter fun q => q.ctx.isNone && q.holder && !(mine.any (·.id == q.id))).any fun q =>
    (mine.any (·.cluster == q.cluster)) && (match holderAway mine q.cluster with
      | none => true
      | some t => decide (q.away.getD 0 < t))

/-- A promoted row comes before another (R342); where two launches have rows of one rank, the row placed first does. -/
def promoBefore (a b : Row) : Bool := decide (a.promoRank < b.promoRank) || (a.promoRank == b.promoRank && decide (a.id < b.id))

/-- A waiting promoted row comes before the rows of a resumption on its cluster (R282, R343): it would fit, none of them is a lock holder there,
and none of them is a promoted row that comes before it. -/
def State.promotedFirst (s : State) (r : Row) : Bool :=
  let mine := s.returning r
  (s.rows.filter fun q => q.ctx.isNone && q.promo.isSome && !(mine.any (·.id == q.id))).any fun q =>
    (mine.any (·.cluster == q.cluster)) && (holderAway mine q.cluster).isNone &&
    !(mine.any fun m => m.cluster == q.cluster && m.promo.isSome && promoBefore m q) && (s.resumeAt q none).isSome

/-- An unplaced row that counts as promoted comes before the rows of a resumption on a cluster of its team's die where it fits and may be placed,
if none of them holds a lock there or was promoted before it (R282, R338, R343, log 57). -/
def State.unplacedFirst (s : State) (r : Row) : Bool :=
  let mine := s.returning r
  let cs := (State.candidates s.engine.launches [] s).1
  cs.any fun c => c.rows.any fun q => match unplacedRank (c.dueAt s.clock.cycle) q.1 q.2.2 with
    | none => false
    | some k => mine.any fun m =>
      c.l.die == some (dieOf m.cluster) && s.clusterIn c.l.part m.cluster && !s.clusterShut m.cluster (some k) &&
      !blockedOn cs c (dieOf m.cluster) &&
      !(mine.any fun q => q.cluster == m.cluster && (q.holder || q.promo.isSome && decide (q.promoRank < k))) &&
      ((s.occNow c.l.part m.cluster).fit q.2.2 (imageKey c.l.part c.l.image) c.img).isSome

/-- ROW_RESUME (R279, R282, R284, R327, R340, R343): none where the rows do not fit, or where another row comes first. What the row's
context fetches is read again from the binding set for it. -/
def State.resumeRow (s : State) (row : Nat) (ctx : Option Nat) : Option State :=
  match s.row? row with
  | none => none
  | some r =>
    if r.ctx.isSome ∨ (s.cluster r.cluster).outOfService ∨ (s.cluster r.cluster).stoppedHot then none
    else if s.holderFirst r || s.promotedFirst r || s.unplacedFirst r then none
    else
      (s.resumeAt r ctx).map fun l => l.foldl (fun s q =>
        match s.row? q.1 with
        | none => s
        | some r =>
          let place := s.placeWord r.part r.cluster r.w r.dwidth r.base q.2
          let s := s.modRow q.1 fun x => { x with ctx := some q.2, away := none, holder := false, place := place }
          (((s.setBinding r.cluster q.2 r.bind).takeSlices q.1).rebind (.ctl q.1))) s

/-! Completion (R244, R341). -/

/-- A launch has met R244: every team placed and ended, and ET past its greatest GWCT. -/
def State.launchDone (s : State) (l : Launch) : Bool :=
  l.rejected || (decide (l.teams ≤ l.next) && l.placed.isEmpty && !(s.rows.any fun r => r.launch == l.id) && l.late.isEmpty && l.remote.isEmpty &&
    decide (l.gwct < s.clock.et))

/-- Add 1 to an event dword as `evsig` does (R147). -/
def State.signalEvent (s : State) (p va : Nat) : State :=
  match s.eng p va 8 true true with
  | none => s
  | some (_, b, s) => if leNat b = 2 ^ 64 - 1 then s else (s.engPut p va (leBytes 8 (leNat b + 1))).1

/-- STATUS of a completion record (R341): 2 rejected, 1 with rows killed or ended with its partition (R366), 0 complete. -/
def Launch.status (l : Launch) : Nat := if l.rejected then 2 else if l.killed ≠ 0 ∨ l.forced = true then 1 else 0

/-- The 16 bytes of a completion record (R341). -/
def Launch.record (l : Launch) (et : Nat) : List Byte := leBytes 8 (l.status + l.killed % 2 ^ 32 * 2 ^ 16) ++ leBytes 8 et

/-- A launch leaves the engine. -/
def State.dropLaunch (s : State) (k : Nat) : State :=
  { s with engine := { s.engine with launches := s.engine.launches.filter (·.id != k) } }

/-- COMPLETION_RECORD_WRITE (R244, R341): the record of a complete launch is written at DONE. The event follows as `evsig` signals it, with
release order: once ET has passed the GWCT of the record (R147, R231). -/
def State.completeLaunch (s : State) (k : Nat) : Option State :=
  match s.engine.launches.find? (·.id == k) with
  | none => none
  | some l =>
    match l.recorded with
    | some g => if g < s.clock.et then some ((s.signalEvent l.part l.doneEv).dropLaunch k) else none
    | none =>
      if !s.launchDone l then none
      else
        let (s, g) := if l.done = 0 then (s, 0) else s.engPut l.part l.done (l.record s.clock.et)
        some (if l.doneEv = 0 then s.dropLaunch k else s.modLaunch k fun q => { q with recorded := some g })

end Sys2Proof.Machine
end

