-- ==== Sys2Proof/Machine/VCtl.lean ====
section
/-! DEFINITION. The rest of the vector control words, major opcodes 0x15 and 0x16: vjoin (R46, R47, R138), waitf and waitc (R139, R141),
the row's queues and scalar banks (R142 to R144), launches and events (R146, R147). -/

namespace Sys2Proof.Machine

/-! Rejoining (R46). -/

/-- VP `e` of a row has not arrived at `vjoin j` (R46). -/
def Row.notArrived (r : Row) (vl j e : Nat) : Bool :=
  let v := r.vp e
  let flagged := v.flags.any (· != 0)
  match v.st with
  | .lock => !r.blocks.isEmpty && decide (e < vl)
  | .thr | .froz => true
  | .park k => k != j || flagged
  | .stop => flagged

/-- VPs that have not arrived (R46). -/
def State.missing (s : State) (r : Row) (j : Nat) : Nat :=
  let sl := s.slice r
  let n := maxL (sl.vl :: r.vps.map fun p => p.1 + 1)
  ((List.range n).filter (r.notArrived sl.vl j)).length

/-- Every VP in PARK(j) or STOP enters LOCK (R46). -/
def Row.rejoin (r : Row) (j : Nat) : Row :=
  { r with vps := r.vps.map fun p => (p.1, if p.2.st = .park j ∨ p.2.st = .stop then { p.2 with st := .lock } else p.2) }

/-- Test a `vjoin` of a row with a timeout that has or has not expired: the state it ends in, or none while it waits (R46). A block issued
before it holds it back until the block ends, also one in which no VP is active. -/
def State.tryJoin (s : State) (row : Nat) (d : Reg) (j : Nat) (expired : Bool) : Option State :=
  match s.row? row with
  | none => none
  | some r =>
    let n := s.missing r j
    if n = 0 then if !r.blocks.isEmpty then none else some ((s.modRow row fun q => q.rejoin j).putX (.ctl row) d 0)
    else if expired then some (s.putX (.ctl row) d (BitVec.ofNat 64 n))
    else none

/-- A `vjoin` with a timeout in cycles (R46, R138). -/
def joinWord (d : Reg) (j : BitVec 8) (t : Thread → Nat) (s : State) : Out :=
  ctlRow true false (fun r th s =>
    match s.tryJoin r.id d j.toNat (t th == 0) with
    | some s => .done s
    | none => .stall (s.setWait (.ctl r.id) (some (.vjoin d j.toNat (s.clock.cycle + t th))))) s

/-- VJOIN (R46, R138). -/
def execVjoin (d : Reg) (j t : BitVec 8) (s : State) : Out := joinWord d j (fun _ => t.toNat) s
/-- VJOIN_REG (R138): the timeout is min(x[t], 2^32 − 1). -/
def execVjoinReg (d : Reg) (j : BitVec 8) (t : Reg) (s : State) : Out :=
  joinWord d j (fun th => min (th.getX t).toNat (2 ^ 32 - 1)) s

/-- A `vjoin` that waits ends: arrival, or its timeout (R46). -/
def State.endJoin (s : State) (row : Nat) : Option State :=
  match s.waitOf (.ctl row) with
  | some (.vjoin d j dl) =>
    (s.tryJoin row d j (decide (dl ≤ s.clock.cycle))).map fun s => (s.setWait (.ctl row) none).finish (.ctl row)
  | _ => none

/-! Waiting for operations (R139, R141). -/

/-- A block of the row that has not ended may still set flag `n`, by its header or a marker (R27, R32, R188). -/
def Row.blockSets (r : Row) (n : Nat) : Bool :=
  match r.blockWords with
  | none => true
  | some l => l.any fun k => k.1.seta == n || k.1.setb == n || k.2.any fun w => match decodeWord w.toNat with
      | some (.tsetf m) => m.val == n
      | _ => false

/-- WAITF (R139): the flags named are clear, with the operations of the blocks before it. -/
def execWaitf (flags : BitVec 12) (s : State) : Out :=
  ctlRow true false (fun r _ s =>
    if (List.range 12).all fun n => !flags.getLsbD n || (r.cf.getD n 0 == 0 && !r.blockSets n) then .done s else .stall s) s

/-- An operation of the class issued before the `n` most recent ones is outstanding (R141). -/
def State.olderOp (s : State) (r : Row) (cls n : Nat) : Bool :=
  s.ops.any fun o => o.row == r.id && o.cls == some cls && decide (o.seq + n < r.seqs.getD cls 0)

/-- WAITC (R141). -/
def execWaitc (cls : Fin 4) (n : BitVec 8) (s : State) : Out :=
  ctlRow true false (fun r _ s => if s.olderOp r cls n.toNat then .stall s else .done s) s

/-! Queues and banks (R142 to R144). -/

/-- The seed entries of a row, with those that wait for the end of a block issued before them (R142). -/
def Row.seeds (r : Row) : Nat := r.seedQ.length + sumL (r.blocks.map fun k => k.seeded.length)

/-- Append an entry to the seed queue of a row: behind a block that has not ended it is kept from that block, whose element 0 receives only
entries appended before its `vf` (R142), and is lost with it should the block fault (R37). -/
def Row.seed (r : Row) (q : QEnt) : Row :=
  match r.blocks.getLast? with
  | none => { r with seedQ := r.seedQ ++ [q] }
  | some k => { r with blocks := r.blocks.dropLast ++ [{ k with seeded := k.seeded ++ [q] }] }

/-- QSEED (R142): with 4 entries in the queue it waits until every block issued before it has ended, and then is QOVER if they are still 4. -/
def execQseed (a : Reg) (s : State) : Out :=
  ctlRow true false (fun r th s =>
    if 4 ≤ r.seeds then (if r.blocks.isEmpty then .fault s (th.flt .qover) else .stall s)
    else .done (s.modRow r.id fun q => q.seed { v := th.getX a, tag := .i64 })) s

/-- What `qdrain` gives for an entry (R143). -/
def QEnt.drained (q : QEnt) : Word :=
  if q.tag.isInt then wordOf (sextI q.v.toNat q.tag.width) else BitVec.ofNat 64 (q.v.toNat % 2 ^ q.tag.width)

/-- QDRAIN (R143): after every block issued before it. -/
def execQdrain (d : Reg) (s : State) : Out :=
  ctlRow false false (fun r th s =>
    if !r.blocks.isEmpty then .stall s
    else match r.drainQ with
    | [] => .fault s (th.flt .qempty)
    | q :: t => setD (.ctl r.id) d q.drained (s.modRow r.id fun k => { k with drainQ := t })) s

/-- SBPUT (R144): the bank at this place of the control stream; a queued block has its own capture (R59). -/
def execSbput (n : Fin 8) (a : Reg) (s : State) : Out :=
  ctlRow true false (fun r th s => .done (s.modRow r.id fun q => { q with sb := q.sb.set n (th.getX a) })) s

/-- SBGET (R144). -/
def execSbget (d : Reg) (n : Fin 8) (s : State) : Out := ctlRow true false (fun r _ s => setD (.ctl r.id) d r.sb[n] s) s

/-! Launches and events (R146, R147). -/

/-- LAUNCH (R114, R146, R332): the launched work observes the thread's earlier stores, so the word waits as a release at scope dev. -/
def execLaunch (d a : Reg) (s : State) : Out :=
  ctlRow false false (fun r th s =>
    let t := Tid.ctl r.id
    let va := (th.getX a).toNat
    if va % 64 ≠ 0 then .fault s (th.flt .misalign va)
    else if !s.releaseOk t .dev then .stall (s.setWait t (some (.fence .dev)))
    else
      match s.homeLoad t va 64 false false with
      | .error f => .fault s (th.aflt f)
      | .ok (_, bs, s) =>
        let (s, v) := s.submit r.part bs
        setD t d (BitVec.ofInt 64 v) (s.stripNr r.id 3)) s

/-- EVSIG (R114, R147): released at scope dev, then one indivisible saturating addition at the home. -/
def execEvsig (a : Reg) (s : State) : Out :=
  ctlRow false false (fun r th s =>
    let t := Tid.ctl r.id
    let va := (th.getX a).toNat
    if va % 8 ≠ 0 then .fault s (th.flt .misalign va)
    else if !s.releaseOk t .dev then .stall (s.setWait t (some (.fence .dev)))
    else
      match s.homeLoad t va 8 true true with
      | .error f => s.accessFault t va 8 true (th.aflt f)
      | .ok (ls, bs, s) =>
        let s := s.stripNr r.id 3
        .done (if leNat bs = 2 ^ 64 - 1 then s else (s.homeStore t ls (leBytes 8 (leNat bs + 1))).1)) s

/-- EVWAIT (R147): one count is taken at once where no other request waits at the home; otherwise the request waits its turn. -/
def execEvwait (a : Reg) (s : State) : Out :=
  ctlRow false false (fun r th s =>
    let t := Tid.ctl r.id
    let va := (th.getX a).toNat
    if va % 8 ≠ 0 then .fault s (th.flt .misalign va)
    else if s.ramoOut t then .stall s
    else
      match s.homeLoad t va 8 true true with
      | .error f => s.accessFault t va 8 true (th.aflt f)
      | .ok (ls, bs, s) =>
        let key := (ls.headD { key := 0, enc := 0, home := 0 }).key
        let s := s.stripNr r.id 3
        if leNat bs ≠ 0 ∧ (s.mem.eventQ.any fun w => w.1 == key) = false then
          .done (s.homeStore t ls (leBytes 8 (leNat bs - 1))).1
        else
          .stall ({ s with mem := { s.mem with eventQ := s.mem.eventQ ++ [(key, t)] } }.setWait t (some (.event key)))) s

/-- The event dword at `key` is nonzero and a request waits for it (R147). -/
def State.eventReady (s : State) (key : Nat) : Bool := (s.mem.eventQ.any fun w => w.1 == key) && s.dwordAt key != 0

/-- EVWAIT_GRANT (R147): the oldest request takes one count; a queue's launch engine has its event consumed (R335). -/
def State.grantEvent (s : State) (key : Nat) : Option State :=
  if !s.eventReady key then none
  else
    match s.mem.eventQ.find? fun w => w.1 == key with
    | none => none
    | some (_, t) =>
      let s := { s with mem := { s.mem with eventQ := s.mem.eventQ.filter fun w => w.2 != t } }
      let (s, _) := s.applyAt t (s.clusterOf t) (s.partOf t) false
        ((s.dwordLocs key).zip (leBytes 8 (leNat ((s.dwordLocs key).map s.readLoc) - 1)) |>.map fun p => .byte p.1 0xFF p.2)
      match t with
      | .hnd h =>
        if 2 ^ 20 ≤ h then
          let g := s.queueIx ((h - 2 ^ 20) / 1024) ((h - 2 ^ 20) % 1024)
          some (match FMap.get? s.engine.kept g with
            | some k => s.keep g { k with consumed := true, evQueued := false }
            | none => s)
        else some s
      | t => some ((s.setWait t none).finish t)

end Sys2Proof.Machine
end

