-- ==== Sys2Proof/Machine/Frozen.lean ====
section
/-! DEFINITION. The frozen-state instructions, major opcode 0x33 (R312 to R322, R327 to R329): a handler reads, writes, resumes, steps
and kills the thread a capability names. -/

namespace Sys2Proof.Machine

/-- A frozen-state word: outside a handler thread it is PRIV (R103). -/
def frozenWord (body : Nat → Thread → State → CRes) (s : State) : Out :=
  ctl false false (fun t th s =>
    match t with
    | .hnd h => body h th s
    | _ => .fault s (th.flt .priv)) s

/-- The row of a record's thread; a handler thread has none. -/
def State.recRow (s : State) (fr : FRec) : Option Row := (tidRow fr.who).bind s.row?

/-- PARTY 0, 1 or 4: the record of a control thread (R317, R318). -/
def FRec.ofRow (fr : FRec) : Bool := fr.party == 0 || fr.party == 1 || fr.party == 4

/-- A word that acts through kN: an empty one, or one whose record it may not name, is CAPBAD; a row that is not resident makes it
wait, with the priority of a holder (R313). -/
def capWord (k : Fin 4) (ok : FRec → Bool) (body : Nat → Thread → FRec → State → CRes) (s : State) : Out :=
  frozenWord (fun h th s =>
    match s.capOf h k with
    | none => .fault s (th.flt .capbad)
    | some fr =>
      if !ok fr then .fault s (th.flt .capbad)
      else
        match s.recRow fr with
        | some r => if r.ctx.isNone then .stall (s.modRow r.id fun q => { q with holder := true }) else body h th fr s
        | none => body h th fr s) s

/-- The running matrix operation of a frozen row has not completed or stopped (R271): v15 to v31 are not yet written. -/
def State.mxBusy (s : State) (fr : FRec) : Bool :=
  match s.recRow fr with
  | some r => (match s.matrixHead r.cluster with
      | some p => p.1.id == r.id
      | none => false)
  | none => false

/-- A load or atomic of the row has still to write its registers, which its slices still hold: the course of its fault is not
complete (R37). -/
def State.loadsOut (s : State) (fr : FRec) : Bool :=
  match s.recRow fr with
  | some r => r.vvalid && s.ops.any fun o => o.row == r.id && (match o.kind with
      | .vpld .. | .vpamo .. | .vfg .. => true
      | _ => false)
  | none => false

/-! Memory operands (R313). -/

/-- Store runs of bytes as one write of a handler's own (R313). -/
def State.storeRuns (s : State) (t : Tid) (runs : List (Nat × List Byte)) : Except AFault State :=
  let a := s.acc t
  match spotLocs s a true false (runs.map fun p => (p.1 % 2 ^ 64, p.2.length)) with
  | .error f => .error f
  | .ok (ls, s) =>
    let (k, s) := s.newId
    .ok { s with mem := { s.mem with writes := s.mem.writes ++
      [{ id := k, thread := t, cluster := a.cluster, part := a.part, scalar := true, op := none
         items := ((ls.flatten).zip (runs.flatMap (·.2))).map fun p => .byte p.1 0xFF p.2 }] } }

/-- Load runs of bytes as a handler's own loads. -/
def State.loadRuns (s : State) (t : Tid) : List (Nat × Nat) → Except AFault (List Byte × State)
  | [] => .ok ([], s)
  | (va, n) :: rest =>
    match s.scalarLoad t (va % 2 ^ 64) n with
    | .error f => .error f
    | .ok (bs, s) =>
      match s.loadRuns t rest with
      | .error f => .error f
      | .ok (cs, s) => .ok (bs ++ cs, s)

/-- A handler stores runs of bytes; on a fault the translations before it stand (R349). -/
def storeRes (th : Thread) (s : State) (t : Tid) (runs : List (Nat × List Byte)) : CRes :=
  match s.storeRuns t runs with
  | .ok s => .done s
  | .error f => .fault (s.touch (s.acc t) false (runs.map fun p => (p.1 % 2 ^ 64, p.2.length))) (th.aflt f)

/-! Images (R307, R316, R317). -/

/-- Bytes of dwords. -/
def dwordBytes (l : List Nat) : List Byte := l.flatMap (leBytes 8)

/-- The 64 bytes of a frozen record (R307). -/
def FRec.bytes (r : FRec) : List Byte :=
  dwordBytes
    [ r.code.num * 2 ^ 56 + r.party * 2 ^ 53 + r.course * 2 ^ 50 + r.level * 2 ^ 48 + r.token.toNat % 2 ^ 48,
      r.pc.toNat, r.resume.toNat, r.header.toNat,
      r.pos % 2 ^ 32 * 2 ^ 32 + r.blk.toNat * 2 ^ 28 + r.unit % 16 * 2 ^ 24 + r.strip % 32 * 2 ^ 19 + r.field % 8 * 2 ^ 16 + r.f % 2 ^ 15,
      r.addr1.toNat, r.addr2.toNat, r.vvalid.toNat * 2 ^ 32 + r.sowner ]

/-- Dword 0 of an image (R316). -/
def imgHead (w hwm : Nat) (list : Bool) (n kind tag : Nat) : Nat :=
  w * 2 ^ 48 + hwm * 2 ^ 16 + list.toNat * 2 ^ 11 + n * 2 ^ 6 + kind * 2 ^ 4 + tag

/-- The control image of a row (R316, R326): its own VOWN beside the fields as the slices hold them. -/
def State.ctlImage (s : State) (r : Row) : List Byte :=
  let sl := s.slice r
  dwordBytes [imgHead (if r.vvalid then r.w else sl.w) 0 false 0 2 0, sl.vl, sl.ew * 4 + sl.grp, sl.vestart, sl.vdirty.toNat,
    sl.strip.bits, r.vvalid.toNat * 2 ^ 32 + r.owner, 0]

/-- The record as `fsnap` copies it: VVALID and SOWNER of what the row's slices now hold (R307). -/
def State.recNow (s : State) (fr : FRec) : FRec :=
  match s.recRow fr with
  | some r => { fr with vvalid := r.vvalid, sowner := (s.slice r).owner }
  | none => fr

/-- FSNAP (R314). -/
def execFsnap (d : Reg) (k : Fin 4) (s : State) : Out :=
  capWord k (fun _ => true) (fun h th fr s =>
    let va := (th.getX d).toNat
    if va % 64 ≠ 0 then .fault s (th.flt .misalign va)
    else if fr.ofRow && s.mxBusy fr then .stall s
    else
      let img := match s.recRow fr with
        | some r => if fr.ofRow then s.ctlImage r else List.replicate 64 0
        | none => List.replicate 64 0
      storeRes th s (.hnd h) [(va, (s.recNow fr).bytes), (va + 64, img)]) s

/-- The width under which one element of a register is read and written (R315): 8 bits for none. -/
def elemWidth (sl : Slice) (n : Nat) : Nat := (sl.reg n).tag.width

/-- A `ramo` of the frozen control thread has still to write x[n] (R224): until then the course of its fault is not complete. -/
def State.xPending (s : State) (fr : FRec) (n : Reg) : Bool :=
  match fr.who with
  | .ctl row => s.ops.any fun o => o.row == row && !o.stopped && (match o.kind with
      | .ramo d .. => d == n
      | _ => false)
  | _ => false

/-- FRDX (R315). A register of a VP's row at or above the declared count is read like the others: R315 names no fault for it, and R58 speaks of
the words of a program (DESIGN CHOICE, log 72). -/
def execFrdx (d : Reg) (k : Fin 4) (n : Reg) (s : State) : Out :=
  capWord k (fun _ => true) (fun h _ fr s =>
    let t := Tid.hnd h
    if n = 0 then setD t d fr.resume s
    else
      match fr.who with
      | .vp row e =>
        (match s.row? row with
         | none => .stall s
         | some r =>
           if s.loadsOut fr || (decide (15 ≤ n.val) && s.mxBusy fr) then .stall s
           else let sl := s.slice r; setD t d (BitVec.ofNat 64 (sl.elem r.w n (elemWidth sl n) e)) s)
      | who => if s.xPending fr n then .stall s else setD t d (((s.thread? who).map fun q => q.getX n).getD 0) s) s

/-- FWRX (R315): an element's write raises HWM and sets VDIRTY; any register number may be named, as in `frdx` (DESIGN CHOICE, log 72). -/
def execFwrx (d : Reg) (k : Fin 4) (n : Reg) (s : State) : Out :=
  capWord k (fun _ => true) (fun _ th fr s =>
    let v := th.getX d
    if n = 0 then .done (s.modRec fr.id fun q => { q with resume := v })
    else
      match fr.who with
      | .vp row e =>
        (match s.row? row with
         | none => .stall s
         | some r =>
           if s.loadsOut fr || (decide (15 ≤ n.val) && s.mxBusy fr) then .stall s
           else .done (s.modSlice r fun sl => sl.setElem r.w n (elemWidth sl n) e (v.toNat % 2 ^ elemWidth sl n)))
      | who => if s.xPending fr n then .stall s else .done (s.modThread who fun q => q.setX n v)) s

/-- Data bytes of a lane that an image holds (R317). -/
def imgBytes (t : Tag) (hwm w : Nat) : Nat := (if t = .none then 1 else t.width / 8) * ((hwm + w - 1) / w)

/-- Tag and HWM of a register as an image gives them: none and 0 at or above the recorded declared count (R327). -/
def imgReg (sl : Slice) (n : Nat) : Tag × Nat := if n < nregOf sl.nreg then ((sl.reg n).tag, (sl.reg n).hwm) else (.none, 0)

/-- The image of a register, lane by lane, at `va` (R316, R317). -/
def regImage (sl : Slice) (n va : Nat) : List (Nat × List Byte) :=
  let (t, hwm) := imgReg sl n
  let nb := imgBytes t hwm sl.w
  (va, dwordBytes (imgHead sl.w hwm false n 0 t.code :: List.replicate 7 0)) ::
    if nb = 0 then [] else (List.range sl.w).map fun l =>
      (va + 64 + 64 * l, (List.range nb).map fun b => (sl.reg n).byte n (l * 64 + b))

/-- FRDV (R317): while VOWN.VALID = 0 it reads the recorded owner's register (R327). -/
def execFrdv (d : Reg) (k : Fin 4) (n : Reg) (s : State) : Out :=
  capWord k FRec.ofRow (fun h th fr s =>
    let va := (th.getX d).toNat
    match s.recRow fr with
    | none => .stall s
    | some r =>
      if va % 64 ≠ 0 then .fault s (th.flt .misalign va)
      else if s.loadsOut fr || (decide (15 ≤ n.val) && s.mxBusy fr) then .stall s
      else storeRes th s (.hnd h) (regImage (s.slice r) n va)) s

/-- Byte `i` of a mask's data (R316). -/
def maskByte (set : List Nat) (i : Nat) : Byte := BitVec.ofNat 8 (sumL ((List.range 8).map fun b => if set.contains (8 * i + b) then 2 ^ b else 0))

/-- FRDM (R317). -/
def execFrdm (d : Reg) (k : Fin 4) (n : Reg) (s : State) : Out :=
  capWord k FRec.ofRow (fun h th fr s =>
    let va := (th.getX d).toNat
    match s.recRow fr with
    | none => .stall s
    | some r =>
      if va % 64 ≠ 0 then .fault s (th.flt .misalign va)
      else
        let sl := s.slice r
        let m := sl.mask n
        let head := dwordBytes (imgHead sl.w 0 m.list n 1 0 :: List.replicate 7 0)
        storeRes th s (.hnd h) ((va, head) :: (List.range sl.w).map fun l =>
          (va + 64 + 64 * l, (List.range 64).map fun b => maskByte m.set (64 * l + b)))) s

/-! Restoring (R318, R327, R329). -/

/-- The fields of an image's header. -/
structure Img where
  w : Nat
  hwm : Nat
  list : Bool
  n : Nat
  kind : Nat
  tag : Nat
  d : List Nat
deriving DecidableEq, Repr

/-- Read the fields of the first 64 bytes. -/
def parseImg (bs : List Byte) : Img :=
  let d := dwordsOf 8 bs
  let h := d.headD 0
  { w := bits h 48 6, hwm := bits h 16 15, list := bit h 11, n := bits h 6 5, kind := bits h 4 2, tag := bits h 0 4, d := d }

/-- The VLMAX a control image's VGRP gives (R63, R318). -/
def Img.vlmax (i : Img) : Nat := vlmaxOf i.w (i.d.getD 2 0 / 4) (i.d.getD 2 0 % 4)

/-- A control image's values are legal (R63, R318, R329): no bit beyond a register's fields is set (DEDUCED, log 30). -/
def Img.ctlOk (i : Img) (mx : Bool) : Bool :=
  let g := i.d.getD 2 0
  let vl := i.d.getD 1 0
  let st := i.d.getD 5 0
  decide (g < 16) && decide (vl ≤ i.vlmax) && decide (i.d.getD 3 0 < 2 ^ 15) && decide (i.d.getD 4 0 < 2 ^ 32) && decide (st < 32) &&
  decide (i.d.getD 6 0 < 2 ^ 33) && i.d.getD 7 0 == 0 && (!mx || (g == 11 && vl == i.vlmax))

/-- The image is one R318 and R329 accept for a row and register or mask number `n`. LIST and a legal TAG of an image that has no use for them
are no ground to refuse it; a mask number outside 1 to 7 is (DEDUCED, log 30). -/
def Img.ok (i : Img) (r : Row) (n : Nat) : Bool :=
  let h := i.d.headD 0
  match Tag.ofCode i.tag with
  | none => false
  | some t =>
    i.w == r.w && bits h 54 10 == 0 && bits h 31 17 == 0 && bits h 12 4 == 0 && i.n == n && decide (i.kind < 3) &&
    (r.mxon || t != .macc) && decide (i.hwm ≤ 64 * i.w / (if t = .none then 1 else t.width / 8)) &&
    (match i.kind with
     | 0 => (i.d.drop 1).all (· == 0) && (if r.mxon then (t == .macc) == decide (15 ≤ n) else t != .macc)
     | 1 => (i.d.drop 1).all (· == 0) && decide (1 ≤ n) && decide (n ≤ 7) && !r.mxon
     | _ => n == 0 && i.ctlOk r.mxon)

/-- Lane `l` of a row, in the slices' own numbering: they may still record another owner's base lane (R327). -/
def Slice.laneOf (sl : Slice) (base l : Nat) : Nat := (base + l + 32 - sl.base % 32) % 32

/-- The bytes of register `n` that VPs in thread mode keep (R318). -/
def keptKeys (r : Row) (sl : Slice) (n : Nat) : List Nat :=
  let t := (sl.reg n).tag
  let vB := n / gop sl.ew sl.grp t.width * gop sl.ew sl.grp t.width
  (r.vps.filter fun p => p.2.st.inThread).flatMap fun p => (List.range (t.width / 8)).filterMap fun j =>
    let q := byteLoc r.w vB (t.width / 8) p.1 j
    if q.1 = n then some (sl.laneOf r.base (q.2 / 64) * 64 + q.2 % 64) else none

/-- Write a register image (R318): its bytes, tag and HWM; elements at or above the HWM are undefined (R71). -/
def writeReg (r : Row) (sl : Slice) (seed n nb : Nat) (t : Tag) (hwm : Nat) (data : List Byte) : Slice :=
  let keep := keptKeys r sl n
  let put (m : FMap BCell) (k : Nat) (c : BCell) : FMap BCell := if keep.contains k then m else FMap.set m k c
  let own := ((List.range r.w).flatMap fun l => (List.range 64).map fun b => (l, b)).foldl (fun m p =>
    let k := sl.laneOf r.base p.1 * 64 + p.2
    let e := p.2 / (if t = .none then 1 else t.width / 8) * r.w + p.1
    if p.2 < nb ∧ e < hwm then put m k (.val (data.getD (p.1 * nb + p.2) 0)) else put m k (.undef seed)) (sl.reg n).bytes
  { sl.modReg n (fun q => { q with bytes := own, tag := t, hwm := hwm }) with vdirty := sl.vdirty ||| BitVec.ofNat 32 (2 ^ n) }

/-- Write a mask image (R318). -/
def writeMask (r : Row) (sl : Slice) (n : Nat) (list : Bool) (data : List Byte) : Slice :=
  let live (e : Nat) : Bool := (r.vp e).st.inThread
  let new := (List.range (8 * data.length)).filter fun e =>
    if live e then (sl.mask n).set.contains e else ((data.getD (e / 8) 0).toNat / 2 ^ (e % 8)) % 2 == 1
  { sl with m := sl.m.setIfInBounds n { list := list, set := new } }

/-- The slices take a new owner's numbering of lanes (R327). -/
def Slice.reown (sl : Slice) (r : Row) (owner : Nat) : Slice :=
  let turn (q : VReg) : VReg :=
    if sl.base = r.base then q
    else { q with bytes := q.bytes.foldl (fun m p => FMap.set m ((p.1 / 64 + sl.base + 32 - r.base % 32) % 32 * 64 + p.1 % 64) p.2) [] }
  { sl with v := mapVec turn sl.v, owner := owner, w := r.w, base := r.base, nreg := r.nregCode }

/-- Write a control image (R318): with VOWN.VALID = 1 the slices hold OWNER's contents. -/
def State.writeCtl (s : State) (r : Row) (i : Img) : State :=
  let own := i.d.getD 6 0
  let st := i.d.getD 5 0
  let s := s.modSlice r fun sl =>
    let sl := { sl.setVgrp r.w (i.d.getD 2 0 / 4) (i.d.getD 2 0 % 4) with
      vl := i.d.getD 1 0, vestart := i.d.getD 3 0
      vdirty := BitVec.ofNat 32 (i.d.getD 4 0), strip := { opn := bit st 4, nr := bit st 3, cause := st % 8 } }
    if bit own 32 then sl.reown r (own % 2 ^ 32) else sl
  s.modRow r.id fun q => { q with vvalid := bit own 32, owner := own % 2 ^ 32 }

/-- FWRV (R318, R329). -/
def execFwrv (d : Reg) (k : Fin 4) (n : Reg) (s : State) : Out :=
  capWord k FRec.ofRow (fun h th fr s =>
    let va := (th.getX d).toNat
    let t := Tid.hnd h
    match s.recRow fr with
    | none => .stall s
    | some r =>
      if va % 64 ≠ 0 then .fault s (th.flt .misalign va)
      else if s.loadsOut fr || ((decide (15 ≤ n.val) || n == 0) && s.mxBusy fr) then .stall s
      else
        match s.loadRuns t [(va, 64)] with
        | .error f => .fault s (th.aflt f)
        | .ok (head, s1) =>
          let i := parseImg head
          if !i.ok r n then .fault s (th.flt .badimage)
          else if i.kind = 2 then .done (s1.writeCtl r i)
          else
            let tag := (Tag.ofCode i.tag).getD .none
            let nb := if i.kind = 0 then imgBytes tag i.hwm r.w else 64
            match s1.loadRuns t (if nb = 0 then [] else (List.range r.w).map fun l => (va + 64 + 64 * l, nb)) with
            | .error f => .fault s1 (th.aflt f)
            | .ok (data, s) =>
              if i.kind = 0 then
                let (seed, s) := s.fresh
                .done (s.modSlice r fun sl => writeReg r sl seed n nb tag i.hwm data)
              else .done (s.modSlice r fun sl => writeMask r sl n i.list data)) s

/-! Resuming, stepping, killing, dropping (R319 to R322). -/

/-- FRESUME (R319). -/
def execFresume (k : Fin 4) (s : State) : Out := capWord k (fun _ => true) (fun _ _ fr s => .done (s.resume fr false)) s

/-- FRESUME_T (R319): CAPBAD for an element-precise or an asynchronous record. -/
def execFresumeT (k : Fin 4) (s : State) : Out :=
  capWord k (fun fr => fr.course != 2 && fr.course != 3) (fun _ _ fr s => .done (s.resume fr true)) s

/-- Kill a frozen thread (R321): a VP stops, a handler ends as by `hdone`, and any other party's row ends. -/
def State.killFrozen (s : State) (fr : FRec) : State :=
  match fr.who with
  | .ctl row => s.endRow row true
  | .vp row e =>
    let s := (s.dropRec fr false).cancelOps fun o => o.row == row && o.vp == some e
    let s := { s with cave := { s.cave with recs := s.cave.recs.filter fun q => q.who != fr.who } }
    (s.setFrozen fr.who none).vpStop row e
  | .hnd h =>
    let s := (s.dropRec fr false).endHandler h
    { s with cave := { s.cave with recs := s.cave.recs.filter fun q => q.who != fr.who } }

/-- FKILL (R321). -/
def execFkill (k : Fin 4) (s : State) : Out := capWord k (fun _ => true) (fun _ _ fr s => .done (s.killFrozen fr)) s

/-- The step of a record begins (R320). One of a VP whose RESUME is a rejoin entry ends there, with no record (R45). -/
def State.beginStep (s : State) (fr : FRec) : State :=
  let s := (s.resumeThread fr false).setFrozen fr.who none
  match fr.who with
  | .ctl row => s.modRow row fun q => { q with stepping := some fr.id, stepVf := none }
  | .vp row e =>
    (match (s.row? row).map fun (r : Row) => (r.vp e).st with
     | some (VPState.park _) => s.stepGone (.vp row e) fr.id
     | _ => s.modVp row e fun v => { v with stepping := some fr.id })
  | .hnd h => s.modHnd h fun q => { q with stepping := some fr.id }

/-- FSTEP (R320): the handler waits for the step's end. Where a further record waits for the thread, it freezes again under it
before it issues, and the first is resolved (R308). -/
def execFstep (k : Fin 4) (s : State) : Out :=
  capWord k (fun fr => fr.course != 3) (fun h _ fr s =>
    if s.cave.recs.any fun q => q.who == fr.who && q.st == .behind then .done (s.resume fr false)
    else
      let t := Tid.hnd h
      let u := s.beginStep fr
      .done (if (u.fr? fr.id).isSome then u.setWait t (some (.fstep fr.id)) else u)) s

/-- CAPDROP (R313, R322): the record goes to the tail of the fault queue. -/
def execCapdrop (k : Fin 4) (s : State) : Out :=
  capWord k (fun _ => true) (fun h _ fr s =>
    let s := s.modHnd h fun q => { q with k := q.k.set k none }
    .done ((s.modRec fr.id fun q => { q with st := .queued }).enqueue fr.id fr.cluster)) s

/-- HDONE (R322): every capability is dropped, and the handler's slot frees; a step of the handler ends with no record (R320). -/
def execHdone (s : State) : Out :=
  frozenWord (fun h _ s =>
    let s := match s.steppingOf (.hnd h) with
      | some k => s.stepGone (.hnd h) k
      | none => s
    .ended (s.endHandler h)) s

end Sys2Proof.Machine
end

