-- ==== Sys2Proof/Machine/EvSeq.lean ====
section
/-! DEFINITION. Events of the sequencer, the bundler, the threads and the scheduler (R13, R30, R31, R41, R42, R46, R50, R52, R53, R282,
R284, R308, R309, R326, R342 to R345): each is one step of the device. An event whose rule does not let it happen is refused. -/

namespace Sys2Proof.Machine

/-- An event's outcome. -/
def ev (name : String) (o : Option State) : Out :=
  match o with
  | some s => .next s
  | none => .refused (.notEnabled name)

/-- The row an event names. -/
def State.evRow (s : State) : Option Row := s.row? s.clock.arg.a

/-! Who may issue. -/

/-- The row can run: resident, on a cluster that is not stopped. -/
def State.runs (s : State) (r : Row) : Bool := r.ctx.isSome && !(s.cluster r.cluster).stoppedHot

/-- A control thread may issue (R281, R305, R326, R342): not while it waits or is frozen, nor at its stop point once pre-emption is
asked for. -/
def State.ctlReady (s : State) (r : Row) : Bool :=
  s.runs r && r.th.wait.isNone && r.th.frozen.isNone && !(r.preempt.isSome && s.atStop r)

/-- A handler may issue (R310). -/
def State.hndReady (s : State) (h : HThread) : Bool :=
  h.th.wait.isNone && h.th.frozen.isNone && !(s.cluster h.cluster).stoppedHot

/-- The oldest block of a row may issue its next word. -/
def State.lanesReady (s : State) (r : Row) : Bool :=
  s.runs r && r.th.frozen.isNone && r.th.wait != some .faultHeld && r.held.isNone &&
  (match r.blocks with
   | k :: _ => k.started && !k.late && decide (k.idx < k.words.length)
   | [] => false)

/-- A bundle may issue its next word. -/
def State.bundleReady (s : State) (r : Row) (b : Bundle) : Bool := s.runs r && r.vvalid && !(State.dueMembers r b).isEmpty

/-- The actor may issue. -/
def State.actorReady (s : State) : Actor → Bool
  | .ctl r => ((s.row? r).map s.ctlReady).getD false
  | .hnd h => ((s.hnd? h).map s.hndReady).getD false
  | .lanes r => ((s.row? r).map s.lanesReady).getD false
  | .bundle r n => ((s.row? r).map fun q => match q.bundles[n]? with
      | some b => s.bundleReady q b
      | none => false).getD false
  | .drain r => ((s.row? r).map fun q => (s.drainReady q).isSome).getD false

/-! Time. -/

/-- Cycles of one ET tick (R13). -/
def cyclesPerTick : Nat := 3

/-- A row is ready (R282): its control thread can go on, or a block under way, or one of its VPs in THR. -/
def Row.ready (r : Row) : Bool :=
  (r.th.frozen.isNone && (r.th.wait.isNone || (match r.blocks with
    | k :: _ => k.started && decide (k.idx < k.words.length)
    | [] => false))) ||
  r.vps.any fun p => p.2.st == .thr && p.2.wait.isNone && p.2.frozen.isNone && (match r.bundleOf p.1, p.2.mid with
    | some b, _ => b.mem.any fun m => m.e == p.1 && !m.fin
    | none, some q => q.stale || decide (q.idx < q.words.length)
    | none, none => r.waitHolds p.2)

/-- Cycles of the present tick in which a row has issued: the pipeline's and the sequencer's fall together (R282). -/
def Row.cyclesIssued (r : Row) : Nat := max r.issued.1 r.issued.2

/-- STARVE.CYC counts (R282): the cycles of the tick in which the row is ready and has issued nothing, up to 2^20. -/
def Row.starveTick (r : Row) : Row :=
  { r with starve := if r.ready then min (2 ^ 20) (r.starve + (cyclesPerTick - r.cyclesIssued)) else r.starve, issued := (0, 0) }

/-- ESCAPEMENT_TICK (R13): device time moves by one, the cycle count by three, and the waiting counts of R282 and R310 with it. -/
def execEscapementTick (s : State) : Out :=
  let s := { s with clock := { s.clock with et := s.clock.et + 1, cycle := s.clock.cycle + cyclesPerTick, turn := 0 } }
  .next { s with
    rows := s.rows.map Row.starveTick
    handlers := s.handlers.map fun h => if s.hndReady h then { h with ready := h.ready + cyclesPerTick } else { h with ready := 0 } }

/-! The vector sequencer (R31, R41, R42, R53, R344, R345). -/

/-- The decoding of a block at its start fails (R105): of a queued one the `vf` faults, and the words after it have had no effect; of the
rest of a resumed block the record stands at the word it would go on from (R319, log 56). -/
def State.lateFault (s : State) (r : Row) (k : LaneRun) (p : Word) (c : Code) : State :=
  if k.started then s.raise (.ctl r.id) { code := c, pc := wordAddr k.header k.idx, header := k.header, addr1 := p.toNat, run := some k }
  else
    (s.modRow r.id fun q => { q with blocks := [], sb := k.sb, th := { q.th with x := k.xs, pc := k.vfpc, wait := none } }).raise (.ctl r.id)
      { code := c, pc := p, header := k.header, resume := some k.vfpc }

/-- VF_BLOCK_START (R31): the oldest block starts when the flags of its WAIT field are clear, and the rest of a resumed one without that test
(R319). The sends its words will make are worked out here (R49); where they hang on stream entries it waits for these. A row whose slices
are not its own takes its VOWN fault (R327). -/
def State.startBlock (s : State) (r : Row) : Option State :=
  match r.blocks with
  | k :: _ =>
    if (k.started && !k.late) || r.ctx.isNone || r.th.frozen.isSome || r.th.wait == some .faultHeld || k.words.length ≤ k.idx && !k.late then none
    else if !r.vvalid then some (s.blockVown r k)
    else
      match (if k.late then decodeBlock .vf s r k.header else .ok (k.hd, k.words)) with
      | .error (p, c) => some (s.lateFault r k p c)
      | .ok (hd, ws) =>
        let k' := { k with hd := hd, words := ws, late := false }
        if !k.started && !flagsClear hd r.cf then (if k.late then some (s.modRow r.id fun q => q.setRun k') else none)
        else if ws.length ≤ k.idx then some (s.endRun r.id)
        else
          match s.blockSends r k' with
          | .ok (sends, rcvd) => some (s.modRow r.id fun q => q.setRun { k' with started := true, sends := sends, rcvd := rcvd, since := s.clock.cycle })
          | .error (n, upto) =>
            if ((r.streams.getD n none).map fun st => decide (upto ≤ st.want)).getD true then none else some (s.wantStream r.id n upto)
  | [] => none
/-- VF_BLOCK_START. -/
def execVfBlockStart (s : State) : Out := ev "VF_BLOCK_START" (s.evRow.bind s.startBlock)

/-- The lane actors of a row in the order of R344: the vector-fetched block, the drain, then bundles by their lowest member. -/
def State.laneActors (s : State) (r : Row) : List Actor :=
  let low (b : Bundle) : Nat := (b.mem.map (·.e)).foldl min (2 ^ 15)
  let bs := (r.bundles.zipIdx.filter fun p => s.bundleReady r p.1).map fun p => (low p.1, p.2)
  (if s.lanesReady r then [Actor.lanes r.id] else []) ++ (if (s.drainReady r).isSome then [Actor.drain r.id] else []) ++
  (bs.mergeSort fun a b => decide (a.1 ≤ b.1)).map fun p => Actor.bundle r.id p.2

/-- Element groups of a word over so many slots of a lane (R53): 512 bits' worth of its widest operand each. -/
def State.wordGroups (s : State) (r : Row) (w : Option (BitVec 32)) (slots : Nat) : Nat :=
  let sl := s.slice r
  let ls := ((w.bind fun w => decodeWord w.toNat).map fun i => laneLimits (limEnv r sl fun n => (sl.reg n).tag) i).getD []
  let t := (ls.map (·.2)).foldl max 8
  (slots * t + 511) / 512

/-- Since when a lane actor's next word is ready, and its element groups (R53). -/
def State.laneRank (s : State) (r : Row) : Actor → Nat × Nat
  | .lanes _ => (match r.blocks with
      | k :: _ => (k.since, s.wordGroups r k.words[k.idx]? (((s.slice r).vl + r.w - 1) / r.w))
      | [] => (0, 0))
  | .bundle _ n => (match r.bundles[n]? with
      | some b =>
        let due := State.dueMembers r b
        let slots := (List.range r.w).foldl (fun a l => max a (due.filter fun m => m.e % r.w == l).length) 0
        (b.since, s.wordGroups r (due.head?.bind fun m => b.words[m.idx]?) slots)
      | none => (0, 0))
  | .drain _ => (match s.drainReady r with
      | some (o, b) => (max (cyclesPerTick * o.since) b.since, s.wordGroups r b.words[b.pos]? 2)
      | none => (0, 0))
  | _ => (0, 0)

/-- Rows of a cluster by rank: promoted ones first, earliest promotion first, with the lower TEAMID and ROWID on a tie (R342); then by
context. -/
def State.rankRows (s : State) (c : Nat) : List Row :=
  let rs := s.rows.filter fun r => r.cluster == c && r.ctx.isSome
  let pro := (rs.filter (·.promo.isSome)).mergeSort fun a b => decide (a.promoRank ≤ b.promoRank)
  pro ++ (rs.filter (·.promo.isNone)).mergeSort fun a b => decide (a.ctx.getD 0 ≤ b.ctx.getD 0)

/-- The order of R53 between two candidates, each with the cycle since when it is ready and its element groups: one that has been ready for
64 cycles comes first, the oldest first, and of others the one with fewer groups. -/
def before53 (now : Nat) (a b : Nat × Nat) : Bool :=
  let old (p : Nat × Nat) : Bool := decide (p.1 + 64 ≤ now)
  if old a && old b then decide (a.1 < b.1) || (a.1 == b.1 && decide (a.2 ≤ b.2))
  else old a || (!old b && decide (a.2 ≤ b.2))

/-- The lane words of a cluster that may issue now (R53, R344): those of promoted rows first, then by the order of R53; equal ranks fall to
the lower context. -/
def State.laneIssue (s : State) (c : Nat) : List Actor :=
  let rs := s.rankRows c
  let l := (rs.filter (·.promo.isNone)).flatMap fun r => (s.laneActors r).map fun a => (s.laneRank r a, a)
  (rs.filter (·.promo.isSome)).flatMap s.laneActors ++ (l.mergeSort fun a b => before53 s.clock.cycle a.1 b.1).map (·.2)

/-- A row issues in a cycle of the scalar pipeline, or of the vector sequencer (`lanes`) (R282): its waiting count starts again, and the cycle
counts for its promotion, once where both take words of it. -/
def Row.issues (r : Row) (lanes : Bool) : Row :=
  let q := { r with starve := 0, issued := if lanes then (r.issued.1, r.issued.2 + 1) else (r.issued.1 + 1, r.issued.2) }
  { q with promo := r.promo.map fun p => (p.1, p.2 + (q.cyclesIssued - r.cyclesIssued)) }

/-- The row of a lane actor. -/
def Actor.rowOf : Actor → Option Nat
  | .ctl r | .lanes r | .bundle r _ | .drain r => some r
  | .hnd _ => none

/-- VECTOR_SEQUENCER_CYCLE (R53, R344): the lane words that are ready take their places; each is then run as one instruction, whose
timing over the lanes has no effect on results (R54). -/
def execVectorSequencerCycle (s : State) : Out :=
  match s.laneIssue s.clock.arg.a with
  | [] => .refused (.notEnabled "VECTOR_SEQUENCER_CYCLE")
  | l =>
    let s := ((l.filterMap Actor.rowOf).dedup).foldl (fun s k => s.modRow k fun r => r.issues true) s
    .next { s with clock := { s.clock with issue := s.clock.issue ++ l } }

/-- TF_HELD_ELEMENT_RELEASE (R41). -/
def execTfHeldElementRelease (s : State) : Out :=
  ev "TF_HELD_ELEMENT_RELEASE" (if s.heldReady s.clock.arg.a then some (s.releaseHeld s.clock.arg.a) else none)

/-- TFFULL_TIMEOUT (R41). -/
def execTffullTimeout (s : State) : Out := ev "TFFULL_TIMEOUT" (s.heldTimeout s.clock.arg.a)

/-- The VPs of a row ready at a block boundary (R42). -/
def Row.atBoundary (r : Row) : List (Nat × VP) :=
  r.vps.filter fun p => p.2.st == .thr && p.2.wait.isNone && p.2.frozen.isNone && p.2.mid.isNone && (r.bundleOf p.1).isNone

/-- The VPs of a row ready to go on in the midst of a block, whose bundle place they gave up (R281). -/
def Row.inMidst (r : Row) : List (Nat × VP × Mid) :=
  (r.vps.filter fun p => p.2.st == .thr && p.2.wait.isNone && p.2.frozen.isNone).filterMap fun p =>
    p.2.mid.bind fun q => if q.idx < q.words.length || q.stale then some (p.1, p.2, q) else none

/-- The block of a VP in its midst is fetched again where its words are stale (R105, R130, R319): the VP takes the fault of its decoding. -/
def State.refetchMid (s : State) (row e : Nat) (q : Mid) : State :=
  if !q.stale then s
  else
    match s.row? row with
    | none => s
    | some r =>
      match decodeBlock .thread s r q.header with
      | .error (at_, c) =>
        let b : Bundle := { header := q.header, hd := q.hd, words := q.words, mem := [], since := 0 }
        s.raiseVp row e { vpFault b q.idx c at_.toNat 0 0 q.ops with resume := some (wordAddr q.header q.idx) }
      | .ok (hd, ws) =>
        if q.idx < ws.length ∨ q.ops ≠ [] then
          s.modVp row e fun v => { v with mid := some { q with hd := hd, words := ws, stale := false } }
        else (s.modVp row e fun v => { v with mid := none }).vpBoundary row e (wordAddr q.header q.idx)

/-- A bundle a regrouping may form (R345): since when its longest-waiting member is ready, its fetch address, and the bundle. -/
abbrev NewBundle := Nat × Word × Bundle

/-- The bundle of some ready VPs, each with the cycle since when it is ready (R42): members in ascending order of their elements. -/
def newBundle (now : Nat) (at_ header : Word) (hd : Header) (ws : List (BitVec 32)) (l : List (Nat × BMem)) : Option NewBundle :=
  match l with
  | [] => none
  | p :: t =>
    some (t.foldl (fun a q => min a q.1) p.1, at_,
      { header := header, hd := hd, words := ws, mem := (l.map (·.2)).mergeSort fun a b => decide (a.e ≤ b.e), since := now })

/-- The bundles of VPs that go on in the midst of a block: one for each next word. -/
def Row.midBundles (r : Row) (now : Nat) : List NewBundle :=
  let l := r.inMidst
  ((l.map fun p => (p.2.2.header, p.2.2.idx)).dedup).filterMap fun k =>
    let g := l.filter fun p => p.2.2.header == k.1 && p.2.2.idx == k.2
    g.head?.bind fun p => newBundle now (wordAddr k.1 k.2) k.1 p.2.2.hd p.2.2.words
      (g.map fun p => (p.2.1.since, { e := p.1, idx := k.2, fin := false, ops := p.2.2.ops }))

/-- The VPs ready at a block boundary with one fetch address (R30, R42, R43, R105): the fault of the block's decoding, or the bundle of
those whose WAIT condition holds. -/
def State.fetchGroup (s : State) (r : Row) (p : Word) : Except (Word × Code) (Option NewBundle) :=
  (decodeBlock .thread s r p).map fun b =>
    newBundle s.clock.cycle p p b.1 b.2
      ((r.atBoundary.filter fun q => q.2.fetch == p && flagsClear b.1 q.2.flags).map fun q =>
        (q.2.since, { e := q.1, idx := 0, fin := false, ops := [] }))

/-- Distinct fetch addresses of the VPs at a block boundary. -/
def Row.fetches (r : Row) : List Word := (r.atBoundary.map (·.2.fetch)).dedup

/-- Start new bundles, by the longest wait of a member and then by address, as far as the 8 places of a row allow (R345). -/
def Row.startBundles (r : Row) (l : List NewBundle) : Row :=
  let l := (l.mergeSort fun a b => decide (a.1 < b.1) || (a.1 == b.1 && decide (a.2.1.toNat ≤ b.2.1.toNat))).take (8 - r.bundles.length)
  let es := l.flatMap fun b => b.2.2.mem.map (·.e)
  { r with bundles := r.bundles ++ l.map (·.2.2)
           vps := r.vps.map fun p => (p.1, if es.contains p.1 then { p.2 with mid := none } else p.2) }

/-- The bundles a regrouping forms for one row: while it is to be pre-empted its VPs stop at their boundaries, and only those in the midst of a
block go on (R326); a row whose slices hold another row's contents takes its VOWN fault first (R327). -/
def State.regroupRow (s : State) (r : Row) : State :=
  if !s.runs r || (r.atBoundary.isEmpty && r.inMidst.isEmpty && r.bundles.isEmpty) then s
  else if !r.vvalid then (if r.th.frozen.isNone then s.raise (.ctl r.id) (r.th.flt .vown) else s)
  else
    let s := r.inMidst.foldl (fun s p => s.refetchMid r.id p.1 p.2.2) s
    let ps := if r.preempt.isSome then [] else r.fetches
    let s := ps.foldl (fun s p => match s.fetchGroup r p with
      | .error (at_, c) => (r.atBoundary.filter (·.2.fetch == p)).foldl (fun s q =>
          s.raiseVp r.id q.1 { code := c, pc := at_, header := p, resume := some p }) s
      | .ok _ => s) s
    match s.row? r.id with
    | none => s
    | some r =>
      let new := ps.filterMap fun p => match s.fetchGroup r p with
        | .ok b => b
        | .error _ => none
      s.modRow r.id fun q => q.startBundles (q.midBundles s.clock.cycle ++ new)

/-- The number of the regrouping that falls into this tick's cycles, if one does and it has not been made (R42): one in every four. -/
def State.regroupNow (s : State) (c : Nat) : Option Nat :=
  let g := (s.clock.cycle + cyclesPerTick - 1) / 4
  if s.clock.cycle ≤ 4 * g ∧ (s.cluster c).regroup ≤ g then some g else none

/-- REGROUPING (R42, R345). -/
def State.regroup (s : State) (c : Nat) : Option State :=
  (s.regroupNow c).map fun g =>
    ((s.rankRows c).foldl (fun s r => s.regroupRow ((s.row? r.id).getD r)) s).modCluster c fun q => { q with regroup := g + 1 }

/-- A regrouping would form a bundle or raise a fault in a row. -/
def State.regroupWork (s : State) (r : Row) : Bool :=
  if r.vvalid then
    r.inMidst.any (·.2.2.stale) || decide (r.bundles.length < 8) && !r.inMidst.isEmpty ||
    r.preempt.isNone && r.fetches.any fun p => match s.fetchGroup r p with
      | .ok b => b.isSome && decide (r.bundles.length < 8)
      | .error _ => true
  else r.th.frozen.isNone && !(r.atBoundary.isEmpty && r.inMidst.isEmpty && r.bundles.isEmpty)

/-- A regrouping is due that would change something. -/
def State.regroupDue (s : State) (c : Nat) : Bool :=
  (s.regroupNow c).isSome && s.rows.any fun r => r.cluster == c && s.runs r && s.regroupWork r

/-- REGROUPING. -/
def execRegrouping (s : State) : Out :=
  ev "REGROUPING" (if s.clock.arg.a < Config.clusters then s.regroup s.clock.arg.a else none)

/-! Waits that end (R46, R50, R52, R129, R132, R147, R219, R293). -/

/-- VJOIN_ARRIVAL (R46). -/
def State.joinArrival (s : State) (row : Nat) : Option State :=
  match s.row? row, s.waitOf (.ctl row) with
  | some r, some (.vjoin _ j _) => if s.missing r j = 0 then s.endJoin row else none
  | _, _ => none
/-- VJOIN_ARRIVAL. -/
def execVjoinArrival (s : State) : Out := ev "VJOIN_ARRIVAL" (s.joinArrival s.clock.arg.a)

/-- VJOIN_TIMEOUT (R46): an arrival in the same cycle counts. -/
def State.joinTimeout (s : State) (row : Nat) : Option State :=
  match s.row? row, s.waitOf (.ctl row) with
  | some r, some (.vjoin _ j dl) => if s.missing r j ≠ 0 ∧ dl ≤ s.clock.cycle then s.endJoin row else none
  | _, _ => none
/-- VJOIN_TIMEOUT. -/
def execVjoinTimeout (s : State) : Out := ev "VJOIN_TIMEOUT" (s.joinTimeout s.clock.arg.a)

/-- The word a VP that gave up its bundle place waits at; none where its block is to be fetched again. -/
def VP.nextWord (v : VP) : Option Instr :=
  v.mid.bind fun q => if q.stale then none else (q.words[q.idx]?).bind fun w => decodeWord w.toNat

/-- The queue word of a stalled VP can go on (R50). -/
def State.queueGo (s : State) (r : Row) (e : Nat) : Bool :=
  let v := s.thrLV r e
  let go (x : Except LErr LV) : Bool := match x with
    | .error .stall | .error (.await ..) => false
    | _ => true
  match (r.vp e).nextWord with
  | some (.qsnd src m) => go (thrQsnd src m v)
  | some (.qrcv vd m) => go (thrQrcv vd m v)
  | _ => true

/-- THREAD_QUEUE_STALL_RELEASE (R50). -/
def State.endQueueStall (s : State) (r : Row) (e : Nat) : Option State :=
  if (r.vp e).wait = some .queue ∧ s.runs r = true ∧ r.vvalid = true ∧ s.queueGo r e = true then some (s.setWait (.vp r.id e) none)
  else none
/-- THREAD_QUEUE_STALL_RELEASE. -/
def execThreadQueueStallRelease (s : State) : Out :=
  ev "THREAD_QUEUE_STALL_RELEASE" (s.evRow.bind fun r => s.endQueueStall r s.clock.arg.b)

/-- The members of quad `q` of a row that wait for their exchange, when it can complete (R52): every member in THR waits at the same word of the
same block, and none is frozen. -/
def State.quadGo (s : State) (r : Row) (q : Nat) : List Nat :=
  let es := (List.range 4).map (q * 4 + ·) |>.filter (· < s.vlmax r)
  let at_ (e : Nat) : Option (Word × Nat) := if (r.vp e).wait = some .quad then (r.vp e).mid.map fun m => (m.header, m.idx) else none
  let l := es.filter fun e => (at_ e).isSome
  let ok (e : Nat) : Bool := match (r.vp e).st with
    | .thr => at_ e == at_ (l.headD 0)
    | .froz => false
    | _ => true
  if es.all ok then l else []

/-- QUAD_EXCHANGE_THREAD_COMPLETE (R52): the members go on together. -/
def State.endQuadWait (s : State) (r : Row) (q : Nat) : Option State :=
  match (if s.runs r && r.vvalid then s.quadGo r q else []) with
  | [] => none
  | l => some (l.foldl (fun s e => s.setWait (.vp r.id e) none) s)
/-- QUAD_EXCHANGE_THREAD_COMPLETE. -/
def execQuadExchangeThreadComplete (s : State) : Out :=
  ev "QUAD_EXCHANGE_THREAD_COMPLETE" (s.evRow.bind fun r => s.endQuadWait r s.clock.arg.b)

/-- BAREXIT_GROUP_READY (R293): the group's waiters go on. -/
def State.groupReady (s : State) (k : Nat) : Option State :=
  match s.mem.groups[k]? with
  | none => none
  | some g =>
    if s.clock.et < g.time then none
    else
      let s := { s with mem := { s.mem with groups := s.mem.groups.eraseIdx k } }
      some (g.threads.foldl State.leaveBar s)
/-- BAREXIT_GROUP_READY. -/
def execBarexitGroupReady (s : State) : Out := ev "BAREXIT_GROUP_READY" (s.groupReady s.clock.arg.a)

/-- EVWAIT_GRANT (R147). -/
def execEvwaitGrant (s : State) : Out := ev "EVWAIT_GRANT" (s.grantEvent s.clock.arg.a)

/-- SETVLW_RELEASE (R132, R219): the published value covers the strip. -/
def State.endSetvlw (s : State) (row : Nat) : Option State :=
  match s.row? row, s.waitOf (.ctl row) with
  | some r, some (.setvlw d vl n) =>
    (match r.wm.getD n none with
     | none => none
     | some b =>
       match s.homeLoad (.ctl row) b.addr.toNat 8 false true with
       | .error _ => some (s.setWait (.ctl row) none)
       | .ok (_, bs, s) =>
         if b.cp.toNat + vl ≤ leNat bs ∧ s.runs r = true ∧ r.vvalid = true then
           let s := s.modRow row fun q => { q with wm := q.wm.set n (some { b with cp := b.cp + BitVec.ofNat 64 vl }) }
           some ((s.openStrip row vl (r.th.pc + 4)).release (.ctl row) d (BitVec.ofNat 64 vl))
         else none)
  | _, _ => none
/-- SETVLW_RELEASE. -/
def execSetvlwRelease (s : State) : Out := ev "SETVLW_RELEASE" (s.endSetvlw s.clock.arg.a)

/-- FENCE_RELEASE_STALL_END (R129, R234): the instruction goes on from its release. -/
def State.endFence (s : State) (t : Tid) : Option State :=
  match s.waitOf t with
  | some (.fence sc) => if s.releaseOk t sc then some (s.setWait t none) else none
  | _ => none
/-- FENCE_RELEASE_STALL_END. -/
def execFenceReleaseStallEnd (s : State) : Out := ev "FENCE_RELEASE_STALL_END" (s.endFence s.clock.arg.t)

/-! Handlers and the fault queue (R308 to R311). -/

/-- Why a spawn is a machine check: R309 and R311 name three causes. -/
inductive McCause where
  /-- A fault of a level-2 handler. -/
  | level2
  /-- A handler-table entry of 0. -/
  | noHandler
  /-- A handler-table dword that cannot be read. -/
  | unreadable
deriving DecidableEq, Repr

/-- The number logged for a cause. -/
def McCause.code : McCause → Nat
  | .level2 => 1
  | .noHandler => 2
  | .unreadable => 3

/-- The records of a cluster that wait, oldest first (R308). -/
def State.waitingRecs (s : State) (c : Nat) : List FRec :=
  ((s.cave.queue.getD (dieOf c) []).filterMap s.fr?).filter fun r => r.cluster == c && r.st == .queued

/-- The lowest free handler slot of a level on a cluster (R309): slots 0 to 7 level 1, 8 and 9 level 2. -/
def State.freeSlot (s : State) (c level : Nat) : Option Nat :=
  let slots := if level = 1 then List.range 8 else [8, 9]
  (slots.map (c * 10 + ·)).find? fun k => !(s.handlers.any (·.slot == k))

/-- The record a free slot of the cluster takes (R308): one of a level-2 handler, a machine check, needs no slot; those of level-1
handlers come before those of program threads. -/
def State.nextRec (s : State) (c : Nat) : Option FRec :=
  let l := s.waitingRecs c
  match l.find? (·.level == 2) with
  | some r => some r
  | none =>
    match l.find? fun r => r.level == 1 && (s.freeSlot c 2).isSome with
    | some r => some r
    | none => l.find? fun r => r.level == 0 && (s.freeSlot c 1).isSome

/-- The records a spawning handler takes (R309): the first and up to three more of its cluster, row, CODE and PC. -/
def State.takenRecs (s : State) (c : Nat) (r : FRec) : List FRec :=
  if (tidRow r.who).isNone then [r]
  else r :: ((s.waitingRecs c).filter fun q => q.id != r.id && q.level == r.level && tidRow q.who == tidRow r.who && q.code == r.code && q.pc == r.pc).take 3

/-- A machine check of a record (R311, R388): the launches that own the cluster's frozen records end, and with them the handlers frozen
there, which serve them (log 18). -/
def State.checkRec (s : State) (c : Nat) (r : FRec) (w : McCause) : State :=
  let s := s.machineCheck c r w.code
  (s.cave.recs.filter (·.cluster == c)).foldl (fun s q => match s.fr? q.id, q.who with
    | some q, .hnd _ => s.killFrozen q
    | _, _ => s) s

/-- The dword of the handler table a record selects (R309). -/
def State.handlerEntry (s : State) (r : FRec) : Except McCause (Nat × State) :=
  match s.eng r.part (s.pdesc r.part 9 + 8 * (if r.level = 0 then r.code.num else 0)) 8 with
  | none => .error .unreadable
  | some (_, bs, s) => if leNat bs = 0 then .error .noHandler else .ok (leNat bs, s)

/-- Start a handler (R309, R312). -/
def State.startHandler (s : State) (c slot : Nat) (r : FRec) (entry : Nat) : State :=
  let l := s.takenRecs c r
  let x : Vector Word 32 := (((Vector.replicate 32 (0 : Word)).set 10 (BitVec.ofNat 64 r.code.num)).set 11 r.pc).set 12 r.addr1
    |>.set 13 (BitVec.ofNat 64 l.length)
  let h : HThread :=
    { slot := slot, cluster := c, part := r.part, level := if r.level = 0 then 1 else 2
      th := { x := x, pc := pcExt (BitVec.ofNat 64 entry), gwct := 0, arrival := none, landing := none, wait := none, frozen := none }
      k := (List.range 4).map fun i => (l[i]?).map (·.id), ready := 0, bind := s.binding c 16, code := s.overlay c (s.binding c 16), stepping := none }
  let ids := l.map (·.id)
  { s with
    handlers := s.handlers ++ [h]
    cave := { s.cave with
      recs := s.cave.recs.map fun q => if ids.contains q.id then { q with st := .handled slot } else q
      queue := s.cave.queue.map fun (q : List Nat) => q.filter fun k => !ids.contains k } }

/-- HANDLER_SPAWN (R308, R309, R311, R388). -/
def State.spawn (s : State) (c : Nat) : Option State :=
  (s.nextRec c).map fun r =>
    if r.level = 2 then s.checkRec c r .level2
    else
      match s.handlerEntry r with
      | .error w => s.checkRec c r w
      | .ok (entry, s) => s.startHandler c ((s.freeSlot c (r.level + 1)).getD 0) r entry
/-- HANDLER_SPAWN. -/
def execHandlerSpawn (s : State) : Out := ev "HANDLER_SPAWN" (s.spawn s.clock.arg.a)

/-- FAULT_QUEUE_ENTRY_FREE (R308). -/
def execFaultQueueEntryFree (s : State) : Out := ev "FAULT_QUEUE_ENTRY_FREE" (s.freeEntry s.clock.arg.a)

/-! Pre-emption and residence (R279, R282, R284, R326, R340, R343). -/

/-- PREEMPTION_REQUEST (R326). -/
def execPreemptionRequest (s : State) : Out := ev "PREEMPTION_REQUEST" (s.preemptRequest s.clock.arg.a)

/-- The rows that stop with a row have all been asked and stand at their stop points. -/
def State.preemptDue (s : State) (r : Row) : Bool :=
  let team := (s.teamOf r).filter (·.ctx.isSome)
  r.ctx.isSome && team.all fun q => q.preempt.isSome && s.atStop q

/-- PREEMPT_STRIP_TIMEOUT (R326): a strip has not closed within 4,096 cycles, and the rows leave. -/
def execPreemptStripTimeout (s : State) : Out :=
  ev "PREEMPT_STRIP_TIMEOUT" (s.evRow.bind fun r =>
    if s.preemptDue r && ((s.teamOf r).any fun q => (s.stripOf q).opn && s.stopLate q) then s.preemptRequest r.id else none)

/-- ROW_RESUME (R340). -/
def execRowResume (s : State) : Out :=
  ev "ROW_RESUME" (s.resumeRow s.clock.arg.a (if s.clock.arg.flag then some s.clock.arg.b else none))

/-- STARVE_PROMOTION (R282): a concurrent row whose count has reached 2^20. -/
def State.promote (s : State) (r : Row) : Option State :=
  if r.cls = .conc ∧ 2 ^ 20 ≤ r.starve ∧ r.promo.isNone = true ∧ r.ready = true then
    some (s.modRow r.id fun q => { q with promo := some (s.clock.et, 0) })
  else none
/-- STARVE_PROMOTION. -/
def execStarvePromotion (s : State) : Out := ev "STARVE_PROMOTION" (s.evRow.bind s.promote)

/-- A wait in which a thread blocks (R276, R281). -/
def Wait.blocks : Wait → Bool
  | .lock .. | .waitm .. | .bar .. | .event _ | .setvlw .. | .mxon | .cvsign _ | .queue | .quad => true
  | .vjoin .. | .fence _ | .fstep _ | .faultHeld => false

/-- A row blocks (R282): its control thread does, or no thread of it can go on while one of its VPs blocks, as in a `vjoin` that waits for
blocked VPs. -/
def Row.blocksNow (r : Row) : Bool :=
  (r.th.wait.map Wait.blocks).getD false || !r.ready && r.vps.any fun p => (p.2.wait.map Wait.blocks).getD false

/-- PROMOTION_END (R282): the row blocks, or has issued for 4,096 cycles. -/
def State.demote (s : State) (r : Row) : Option State :=
  match r.promo with
  | some (_, n) => if 4096 ≤ n ∨ r.blocksNow = true then some (s.modRow r.id fun q => { q with promo := none }) else none
  | none => none
/-- PROMOTION_END. -/
def execPromotionEnd (s : State) : Out := ev "PROMOTION_END" (s.evRow.bind s.demote)

/-- The row of a list with the lowest STARVE.CYC, the higher context on a tie (R343). -/
def leastStarved (l : List Row) : Option Row :=
  l.foldl (fun o r => match o with
    | none => some r
    | some q => if r.starve < q.starve ∨ (r.starve = q.starve ∧ q.ctx.getD 0 < r.ctx.getD 0) then some r else some q) none

/-- The row that makes way for a promoted one on its cluster (R343). -/
def State.victim (s : State) (c : Nat) : Option Row :=
  let res := s.rows.filter fun r => r.cluster == c && r.ctx.isSome && r.promo.isNone
  let solo := res.filter (!·.whole)
  match leastStarved (solo.filter (·.locks == 0)) with
  | some r => some r
  | none =>
    match leastStarved solo with
    | some r => some r
    | none => (res.filter (·.whole)).foldl (fun o r => match o with
        | none => some r
        | some q => if q.prio < r.prio ∨ (q.prio = r.prio ∧ q.id < r.id) then some r else some q) none

/-- A cluster has no free context, and none of its rows is already asked to leave: one makes way (R343). -/
def State.makeWay (s : State) (p c : Nat) : Option State :=
  if (s.occNow p c).ctx ≠ [] ∨ (s.rows.any fun q => q.cluster == c && q.preempt.isSome) = true then none
  else (s.victim c).bind fun q => s.preemptRequest q.id

/-- PROMOTED_ROW_PLACEMENT (R343): with no free context on its cluster, a row is asked to make way. -/
def State.placePromoted (s : State) (r : Row) : Option State :=
  if r.promo.isNone ∨ r.ctx.isSome = true then none else s.makeWay r.part r.cluster

/-- PROMOTED_ROW_PLACEMENT for a row not placed yet, which has no cluster: one makes way on the lowest cluster of its team's die that has no
free context (R338, log 57). -/
def State.placeUnplaced (s : State) (k : Nat) : Option State :=
  let (cs, s) := State.candidates s.engine.launches [] s
  (cs.find? fun c => c.l.id == k && c.due s.clock.cycle && (s.candFit cs c).isNone).bind fun c =>
    ((c.rows.filterMap fun q => unplacedRank (c.dueAt s.clock.cycle) q.1 q.2.2).head?).bind fun rank =>
      ((s.dieClusters c.l.part (c.l.die.getD 0)).filter fun k => !s.clusterShut k (some rank)).findSome? (s.makeWay c.l.part)
/-- PROMOTED_ROW_PLACEMENT. -/
def execPromotedRowPlacement (s : State) : Out :=
  ev "PROMOTED_ROW_PLACEMENT" (if s.clock.arg.flag then s.placeUnplaced s.clock.arg.a else s.evRow.bind s.placePromoted)

/-! The scalar pipeline (R342). -/

/-- The place of a row or handler in the round robin of R342: contexts 0 to 15, then handler slots. -/
def rrPlace (last k : Nat) : Nat := (k + 26 - (last + 1)) % 26

/-- The candidates of a cluster's scalar pipeline in order, each with its place in the round robin (R342). -/
def State.scalarOrder (s : State) (c : Nat) : List (Actor × Nat) :=
  let last := (s.cluster c).last
  let hs := s.handlers.filter fun h => h.cluster == c && s.hndReady h
  let late := (hs.filter fun h => decide (15 ≤ h.ready)).mergeSort fun a b =>
    decide ((2 - a.level) * 16 + a.slot % 10 ≤ (2 - b.level) * 16 + b.slot % 10)
  let rs := (s.rankRows c).filter s.ctlReady
  let at_ (r : Row) : Actor × Nat := (.ctl r.id, r.ctx.getD 0)
  let hAt (h : HThread) : Actor × Nat := (.hnd h.slot, 16 + h.slot % 10)
  let plain := rs.filter (·.promo.isNone)
  let rr (l : List (Actor × Nat)) : List (Actor × Nat) := l.mergeSort fun a b => decide (rrPlace last a.2 ≤ rrPlace last b.2)
  late.map hAt ++ (rs.filter (·.promo.isSome)).map at_ ++
  rr ((plain.filter fun r => !r.yielded).map at_ ++ (hs.filter fun h => decide (h.ready < 15)).map hAt) ++
  rr ((plain.filter (·.yielded)).map at_)

/-- An issue resets the waiting counts of R282, R310 and R123, and counts for a promotion. -/
def State.issued (s : State) : Actor → State
  | .ctl r => s.modRow r fun q => { q.issues false with yielded := false }
  | .hnd h => s.modHnd h fun q => { q with ready := 0 }
  | _ => s

/-- SCALAR_ISSUE_CYCLE (R342): the two slots go to the first two candidates. -/
def execScalarIssueCycle (s : State) : Out :=
  let c := s.clock.arg.a
  match (s.scalarOrder c).take 2 with
  | [] => .refused (.notEnabled "SCALAR_ISSUE_CYCLE")
  | (a, k) :: t =>
    let l := a :: t.map (·.1)
    let s := (l.foldl State.issued s).modCluster c fun q => { q with last := k }
    .next { s with clock := { s.clock with issue := s.clock.issue ++ l } }

end Sys2Proof.Machine
end

