-- ==== Sys2Proof/Machine/EvMem.lean ====
section
/-! DEFINITION. Events of the homes, the lanes' outstanding operations, the engines and the matrix unit (R32, R188, R190, R192, R205,
R206, R208, R213 to R218, R232, R242, R251 to R273, R353 to R355). -/

namespace Sys2Proof.Machine

/-! Lane operations (R32 to R34). -/

/-- An operation leaves a row's blocks: a block that has run its words ends with its last unflagged operation (R32), and so does the block
of a VP, in a bundle or outside one. -/
def State.opGone (s : State) (o : Op) : State :=
  let s := s.modRow o.row fun r => { r with
    blocks := r.blocks.map fun k => { k with ops := k.ops.filter (· != o.id), flagged := k.flagged.filter (· != o.id) }
    held := r.held.map fun h => { h with run := { h.run with ops := h.run.ops.filter (· != o.id), flagged := h.run.flagged.filter (· != o.id) } }
    bundles := r.bundles.map fun b => { b with mem := b.mem.map fun m => { m with ops := m.ops.filter (· != o.id) } }
    vps := r.vps.map fun p => (p.1, { p.2 with mid := p.2.mid.map fun q => { q with ops := q.ops.filter (· != o.id) } }) }
  match s.row? o.row with
  | none => s
  | some r =>
    let s := match r.blocks with
      | k :: _ => if k.started && decide (k.words.length ≤ k.idx) && k.ops.isEmpty then s.endRun o.row else s
      | [] => s
    let fin := r.bundles.flatMap fun b => (b.mem.filter fun m => m.fin && m.ops.isEmpty).map fun m => (m.e, b.after)
    let out := r.vps.filterMap fun p => p.2.mid.bind fun q =>
      if p.2.st = .thr ∧ q.words.length ≤ q.idx ∧ q.stale = false ∧ q.ops.isEmpty = true then some (p.1, wordAddr q.header q.words.length)
      else none
    (fin ++ out).foldl (fun s p =>
      (s.modRow o.row fun q => (q.dropMember p.1).modVp p.1 fun v => { v with mid := none }).vpBoundary o.row p.1 p.2) s

/-- Complete an operation (R32, R140). -/
def State.finishOp (s : State) (o : Op) : State := (s.endOp o).opGone o

/-- The registers of a row may be written: it is resident and its slices hold its own contents. -/
def State.regsHeld (s : State) (row : Nat) : Bool :=
  match s.row? row with
  | some r => r.ctx.isSome && r.vvalid
  | none => false

/-- A byte of a destination still awaits its operation: it is undefined of the operation's own seed (R34). -/
def Slice.awaits (sl : Slice) (w vd t seed e : Nat) : Bool :=
  (List.range (t / 8)).any fun j =>
    let k := byteLoc w vd (t / 8) e j
    (FMap.get? (sl.reg k.1).bytes k.2).getD (sl.reg k.1).fill == .undef seed

/-- Write the elements an operation delivers. An element the program has written meanwhile keeps the program's value where `keep` says so:
either outcome is allowed (R34). -/
def State.deliver (s : State) (o : Op) (vd seed : Nat) (t : Tag) (keep : Bool) (vals : List (Nat × Nat)) : State :=
  match s.row? o.row with
  | none => s
  | some r => s.modSlice r fun sl => vals.foldl (fun sl p =>
      if keep && !sl.awaits r.w vd t.width seed p.1 then sl else sl.setElem r.w vd t.width p.1 p.2) sl

/-- The program has written some element an operation is still to deliver (R34). -/
def State.contested (s : State) (o : Op) : Bool :=
  match s.row? o.row, o.kind with
  | some r, .vpld vd t seed l => l.any fun p => !(s.slice r).awaits r.w vd t.width seed p.1
  | some r, .vpamo vd t seed l => l.any fun p => !(s.slice r).awaits r.w vd t.width seed p.1
  | some r, .vfg vd _ t seed l _ => l.any fun p => !(s.slice r).awaits r.w vd t.width seed p.1
  | _, _ => false

/-- OPERATION_COMPLETE (R32): a load or atomic writes its elements; a store whose writes have all been applied, and a marker whose
operations are done, end. -/
def State.laneOpDone (s : State) (o : Op) (keep : Bool) : Option State :=
  match o.kind with
  | .vpld vd t seed l | .vpamo vd t seed l => if s.regsHeld o.row then some ((s.deliver o vd seed t keep l).finishOp o) else none
  | .vpst _ => if s.mem.writes.any fun w => w.op == some o.id then none else some (s.finishOp o)
  | .marker ids => if ids.any fun k => (s.op? k).isSome then none else some (s.finishOp o)
  | _ => none
/-- OPERATION_COMPLETE. -/
def execOperationComplete (s : State) : Out :=
  ev "OPERATION_COMPLETE" ((s.op? s.clock.arg.a).bind fun o => s.laneOpDone o s.clock.arg.flag)

/-! Homes (R228, R232, R242). -/

/-- Places a write writes. -/
def PWrite.keys (w : PWrite) : List Nat := (w.items.flatMap itemLocs).map (·.key)

/-- An earlier write of the same row or handler, or of the same cluster's scalar path, to one of the same places comes first (R228,
R238). -/
def State.writeBlocked (s : State) (w : PWrite) : Bool :=
  (s.mem.writes.takeWhile (·.id != w.id)).any fun q =>
    (q.thread == w.thread || (tidRow q.thread == tidRow w.thread && (tidRow w.thread).isSome) ||
      (q.scalar && w.scalar && q.cluster == w.cluster)) && itemsHit q.items w.keys

/-- HOME_WRITE_APPLY (R232). -/
def State.homeApply (s : State) (id : Nat) : Option State :=
  (s.mem.writes.find? (·.id == id)).bind fun w => if s.writeBlocked w then none else some (s.applyWrite w)
/-- HOME_WRITE_APPLY. -/
def execHomeWriteApply (s : State) : Out := ev "HOME_WRITE_APPLY" (s.homeApply s.clock.arg.a)

/-- BYTE_LANDS (R242, R292): landed bytes lower PENDING, no further than 0, and may release the barrier. They do not land in a barrier whose
line is poisoned (DESIGN CHOICE, log 76). -/
def State.byteLands (s : State) (k : Nat) : Option State :=
  match s.mem.landing[k]? with
  | none => none
  | some l =>
    if s.clock.et ≤ l.gwct || (s.poisoned (locRun l.bar 32)).isSome then none
    else
      let s := { s with mem := { s.mem with landing := s.mem.landing.eraseIdx k } }
      let ls := locRun l.bar 32
      some (match parseBar (ls.map s.readLoc) with
        | none => s
        | some r => if r.pending = 0 then s else { r with pending := r.pending - l.n }.store (.hnd (10 * Config.clusters)) ls s)
/-- BYTE_LANDS. -/
def execByteLands (s : State) : Out := ev "BYTE_LANDS" (s.byteLands s.clock.arg.a)

/-- A row's stores and atomics that a `wmpub` covers have returned their GWCTs, and ET has passed them (R218). -/
def State.pubOk (s : State) (o : Op) : Bool :=
  match s.row? o.row with
  | none => false
  | some r =>
    !(s.mem.writes.any fun w => tidRow w.thread == some o.row && decide (w.id < o.id)) &&
    !(s.ops.any fun q => q.row == o.row && decide (q.id < o.id) && (match q.kind with
      | .wmpub .. | .ramo .. => true
      | _ => false)) &&
    decide (r.th.gwct < s.clock.et) && r.vps.all fun p => decide (p.2.gwct < s.clock.et)

/-- WMPUB_PERFORM (R218): memory := max(memory, value) at the home. A watermark that lies in a poisoned line is read as by an engine operation,
and ADDR1 is the line's address (R216, R358, log 58). -/
def State.performPub (s : State) (o : Op) : Option State :=
  match o.kind with
  | .wmpub va ls v =>
    if !s.pubOk o || o.stopped then none
    else match s.poisoned ls with
    | some i => some (s.raiseOp o (opFault o .memerr 0 (lineVa va i)))
    | none =>
      let old := leNat (s.homeBytes o.part ls)
      let (s, _) := s.applyAt (.ctl o.row) o.cluster o.part false
        ((ls.zip (leBytes 8 (max old v.toNat))).map fun p => .byte p.1 0xFF p.2)
      some (s.endOp o)
  | _ => none
/-- WMPUB_PERFORM. -/
def execWmpubPerform (s : State) : Out := ev "WMPUB_PERFORM" ((s.op? s.clock.arg.a).bind s.performPub)

/-! Streams, gathers and engines (R56, R205 to R216). -/

/-- STREAM_ENTRY_FETCH (R208, R211). -/
def State.streamFetch (s : State) (r : Row) (n : Nat) : Option State :=
  match r.streams.getD n none with
  | some st => if st.canFetch && r.ctx.isSome then some (s.fetchEntry r n st) else none
  | none => none
/-- STREAM_ENTRY_FETCH. -/
def execStreamEntryFetch (s : State) : Out := ev "STREAM_ENTRY_FETCH" (s.evRow.bind fun r => s.streamFetch r s.clock.arg.b)

/-- GATHER_UNIT_REQUEST (R205): the far request is sent. -/
def State.gatherSend (s : State) (o : Op) : Option State :=
  match o.kind with
  | .vfg vd f t n l false => some (s.modOp o.id fun q => { q with kind := .vfg vd f t n l true })
  | _ => none
/-- GATHER_UNIT_REQUEST. -/
def execGatherUnitRequest (s : State) : Out := ev "GATHER_UNIT_REQUEST" ((s.op? s.clock.arg.a).bind s.gatherSend)

/-- The first element of a gather that reads a poisoned line, with the line's address (R358). -/
def State.gatherPoison (s : State) (l : List (Nat × Nat × List (Option Loc))) : Option (Nat × Nat) :=
  l.findSome? fun p => (p.2.2.findIdx? fun o => (o.map fun k => s.mem.poison.contains (k.key / 64)).getD false).map fun i => (p.1, lineVa p.2.1 i)

/-- The operation was issued in the open strip of its row, which is restartable (R37). -/
def State.inRestartable (s : State) (o : Op) : Bool :=
  match s.row? o.row with
  | some r => (s.stripOf r).opn && !(s.stripOf r).nr && (r.rind.map fun k => decide (k.first ≤ o.id)).getD false
  | none => false

/-- VFG_COMPLETE (R205, R206): every element is read at its home; a byte the strip's own stores wrote is undefined. A line poisoned since the
issue is MEMERR (R358): with strip restart while the strip that issued the gather is open and restartable, and else, since later words have
run, with the course of an operation (DESIGN CHOICE, log 76). -/
def State.gatherDone (s : State) (o : Op) (keep : Bool) : Option State :=
  match o.kind with
  | .vfg vd f t seed l true =>
    if !s.regsHeld o.row || o.stopped then none
    else
      let s := s.settle o.row
      let bad := s.gatherPoison l
      match bad, s.inRestartable o with
      | some (e, a), true => if s.queueFull (dieOf o.cluster) then none else some (s.raiseRow o.row (opFault o .memerr e a))
      | _, _ =>
        let (now, rest) := l.partition fun p => (bad.map fun q => decide (p.1 < q.1)).getD true
        let (fr, s) := s.fresh
        let vals := now.map fun p =>
          (p.1, spotValue f [] 0 [p.2.2.zipIdx.map fun q => match q.1 with
            | some l => s.homeByte o.part l
            | none => Config.freeByte fr (p.1 * 8 + q.2)])
        let s := s.refresh o.cluster (now.flatMap fun p => p.2.2.filterMap id)
        let s := s.deliver o vd seed t keep (vals.map fun q => (q.1, q.2.1))
        let s := s.orFlags o.row (vals.foldl (fun x q => x ||| q.2.2) 0)
        some (match bad with
          | none => s.finishOp o
          | some (e, a) => (s.modOp o.id fun q => { q with kind := .vfg vd f t seed rest true }).raiseOp o (opFault o .memerr e a))
  | _ => none
/-- VFG_COMPLETE. -/
def execVfgComplete (s : State) : Out := ev "VFG_COMPLETE" ((s.op? s.clock.arg.a).bind fun o => s.gatherDone o s.clock.arg.flag)

/-- What an engine operation does (R213, R214, R221): the state and the element and fault it stops at. A remote operation stops at a next element
whose access cannot leave (R207, R222, R377), and a collective of a span of which a member has failed, which can no longer submit (R377). -/
def State.engineRun (s : State) (o : Op) : Option (State × Nat × Option AFault) :=
  match o.kind with
  | .cpy dst src idx => some (s.performCopy o dst src idx)
  | .cflush src => some (flushRun o src (src.count - o.f) o.f s)
  | .rput rem _ | .rget _ rem => (s.remoteStop o.part rem o.f).map fun f => (s, o.f, some f)
  | .ramo _ _ _ _ ad _ _ => (s.remoteAway o.part ad.toNat).map fun f => (s, 0, some f)
  | .coll .. => if s.mgmt.failed.any (·.1 == s.pdesc o.part 12) then some (s, 0, some { code := .remoteflt, addr1 := 0, addr2 := 0 }) else none
  | _ => none

/-- ENGINE_OP_COMPLETE (R140, R213). -/
def State.engineDone (s : State) (o : Op) : Option State :=
  if o.stopped then none
  else match s.engineRun o with
    | some (s, _, none) => some (s.endOp o)
    | _ => none
/-- ENGINE_OP_COMPLETE. -/
def execEngineOpComplete (s : State) : Out := ev "ENGINE_OP_COMPLETE" ((s.op? s.clock.arg.a).bind s.engineDone)

/-- ENGINE_ASYNC_FAULT (R216, R252): the elements below f are done; the operation stops, and its record is filed. -/
def State.engineFault (s : State) (o : Op) : Option State :=
  if o.stopped then none
  else if o.kind.isMatrix then
    match s.matrixReady o.cluster with
    | some (r, q) =>
      if q.id ≠ o.id then none
      else match s.matrixRun r o with
        | (s, some (f, af)) => some (s.raiseOp o (opFault o af.code f af.addr1 af.addr2))
        | (_, none) => none
    | none => none
  else match s.engineRun o with
    | some (s, f, some af) => some (s.raiseOp o (opFault o af.code f af.addr1 af.addr2))
    | _ => none
/-- ENGINE_ASYNC_FAULT. -/
def execEngineAsyncFault (s : State) : Out := ev "ENGINE_ASYNC_FAULT" ((s.op? s.clock.arg.a).bind s.engineFault)

/-! Translation (R353 to R355). -/

/-- PAGE_WALK_COMPLETE (R348, R349, R353): a walk that finds its page fills the TLBs and sets A. -/
def State.walkDone (s : State) (c p va : Nat) : Option State :=
  if !canonical va || !s.partOn p then none
  else match tlbFill s { part := p, cluster := c, hnd := false } va with
    | .ok (_, s) => some s
    | .error _ => none
/-- PAGE_WALK_COMPLETE. -/
def execPageWalkComplete (s : State) : Out := ev "PAGE_WALK_COMPLETE" (s.walkDone s.clock.arg.a s.clock.arg.b s.clock.arg.w.toNat)

/-- A request of the host on TLBINV of a partition (R354, R368); no store of a thread comes before it. -/
def State.invRequest (s : State) (p kind page : Nat) : Option State :=
  if p < 16 then some (s.tlbRequest p (kind + page % 2 ^ 48 * 2 ^ 16) 0 []) else none
/-- TLBINV_PAGE (R354). -/
def execTlbinvPage (s : State) : Out := ev "TLBINV_PAGE" (s.invRequest s.clock.arg.a 0 s.clock.arg.b)
/-- TLBINV_ALL (R354). -/
def execTlbinvAll (s : State) : Out := ev "TLBINV_ALL" (s.invRequest s.clock.arg.a 1 0)
/-- TLBINV_FLUSH (R354). -/
def execTlbinvFlush (s : State) : Out := ev "TLBINV_FLUSH" (s.invRequest s.clock.arg.a 2 s.clock.arg.b)

/-- An entry a request names (R354). -/
def TlbEnt.named (e : TlbEnt) (p kind page : Nat) : Bool :=
  let va := page * 2 ^ 16 % 2 ^ 64
  e.part == p && (kind == 1 || (decide (e.base ≤ va) && decide (va < e.base + e.size)))

/-- The places an operation translated when it issued and has still to reach. -/
def OpKind.placesLeft : OpKind → List Nat
  | .wmpub _ ls _ => ls.map (·.key)
  | .vfg _ _ _ _ es _ => es.flatMap fun e => e.2.2.filterMap fun o => o.map (·.key)
  | _ => []

/-- The place a blocked thread watches or is to have written (R147, R291, R295, R298). -/
def Wait.placesLeft : Wait → List Nat
  | .lock _ k | .waitm _ k _ | .bar k _ | .event k => [k]
  | _ => []

/-- The flat places translated accesses of a partition have still to reach (R355): writes on their way, buffered stores of strips, operations,
bytes of landing barriers, and what blocked threads wait on. -/
def State.placesLeft (s : State) (p : Nat) : List Nat :=
  (s.mem.writes.filter (·.part == p)).flatMap (fun w => (w.items.flatMap itemLocs).map (·.key)) ++
  (s.rows.filter (·.part == p)).flatMap (fun r => (r.buf.flatMap itemLocs).map (·.key)) ++
  (s.ops.filter (·.part == p)).flatMap (·.kind.placesLeft) ++
  (s.mem.landing.filter (·.part == p)).map (·.bar.key) ++
  (s.waiters.filter fun q => s.partOf q.1 == p).flatMap (·.2.placesLeft)

/-- A request has been performed (R354), and every access translated through an entry it names has performed, been applied or been
discarded (R355). -/
def State.accessesDone (s : State) (p : Nat) (r : InvReq) : Bool :=
  let spans := (s.mem.maps.filter fun m => m.2 && m.1.named p r.kind r.page).map (·.1.span)
  r.after.isEmpty && decide (r.gwct < s.clock.et) &&
  (s.placesLeft p).all fun k => spans.all fun w => decide (k < w.1) || decide (w.2 ≤ k)

/-- The pages that entries map leave L2 and the scalar L1s (R355): no copy and no pinned line of them stays. -/
def State.dropPages (s : State) (es : List TlbEnt) : State :=
  let out (n : Nat) : Bool := es.all fun e => decide (n * 64 < e.span.1) || decide (e.span.2 ≤ n * 64)
  { s with mem := { s.mem with l1 := s.mem.l1.filter fun c => out c.line, pins := s.mem.pins.filter fun q => out q.1 } }

/-- The entry the partition's tables give for an address now. -/
def State.mapNow (s : State) (p va : Nat) : List TlbEnt :=
  match walk s va 4 (s.pdesc p 0) with
  | .error _ => []
  | .ok (leaf, lv, k) => [{ part := p, base := va / pageSize lv * pageSize lv, size := pageSize lv, leaf := BitVec.ofNat 64 leaf, entry := k }]

/-- TLB_INVALIDATION_COMPLETE (R355): the oldest request of a partition. -/
def State.invDone (s : State) (p : Nat) : Option State :=
  match (s.part p).invs with
  | [] => none
  | r :: t =>
    if !s.accessesDone p r then none
    else
      let named (e : TlbEnt) : Bool := e.named p r.kind r.page
      let drop (m : FMap (List TlbEnt)) : FMap (List TlbEnt) := m.map fun q => (q.1, q.2.filter fun e => !named e)
      let s := if r.kind = 2 then
          s.dropPages (s.mapNow p (r.page * 2 ^ 16 % 2 ^ 64) ++ (s.mem.maps.map (·.1)).filter named) else s
      let maps := if r.kind = 2 then s.mem.maps.filter fun m => !named m.1
        else s.mem.maps.map fun m => (m.1, m.2 && !named m.1)
      let s := { s with mem := { s.mem with tlbC := drop s.mem.tlbC, tlbD := drop s.mem.tlbD, maps := maps } }
      some (s.modPart p fun q => { q with invs := t, invDone := q.invDone + 1 })
/-- TLB_INVALIDATION_COMPLETE. -/
def execTlbInvalidationComplete (s : State) : Out := ev "TLB_INVALIDATION_COMPLETE" (s.invDone s.clock.arg.a)

/-! The matrix unit (R246, R251, R270). -/

/-- MATRIX_UNIT_GRANT (R246). -/
def execMatrixUnitGrant (s : State) : Out := ev "MATRIX_UNIT_GRANT" (s.grantUnit s.clock.arg.a)

/-- MATRIX_OP_START (R251, R271): the operation at the head starts, or goes on with its next part; one that faults is
ENGINE_ASYNC_FAULT. -/
def State.matrixStart (s : State) (c : Nat) : Option State :=
  (s.matrixReady c).bind fun p => match s.matrixRun p.1 p.2 with
    | (s, none) => some s
    | (_, some _) => none
/-- MATRIX_OP_START. -/
def execMatrixOpStart (s : State) : Out := ev "MATRIX_OP_START" (s.matrixStart s.clock.arg.a)

/-- MATRIX_OP_COMPLETE (R140, R270): a convergence register that waited for a place in the class may then issue its load (R301). -/
def State.matrixDone (s : State) (c : Nat) : Option State :=
  (s.matrixHead c).bind fun p => if p.2.started then some ((s.endOp p.2).convCheck p.1.id) else none
/-- MATRIX_OP_COMPLETE. -/
def execMatrixOpComplete (s : State) : Out := ev "MATRIX_OP_COMPLETE" (s.matrixDone s.clock.arg.a)

end Sys2Proof.Machine
end

