-- ==== Sys2Proof/Machine/EvHost.lean ====
section
/-! DEFINITION. Events of the launch engine, the host, the partitions and the Felok domain (R222 to R225, R330 to R341, R360 to R377). -/

namespace Sys2Proof.Machine

/-! The launch engine. -/

/-- HOST_DOORBELL (R331). -/
def execHostDoorbell (s : State) : Out :=
  let g := s.clock.arg
  ev "HOST_DOORBELL" (if g.a < 16 then some (s.doorbell g.a g.b g.w.toNat) else none)

/-- LAUNCH_START (R334, R335). -/
def execLaunchStart (s : State) : Out := ev "LAUNCH_START" (s.launchStart s.clock.arg.a s.clock.arg.b)

/-- LAUNCH_ENGINE_SELECTION (R336). -/
def execLaunchEngineSelection (s : State) : Out := ev "LAUNCH_ENGINE_SELECTION" s.selectTeam

/-- TEAM_BLOCKING_TIMEOUT (R336). -/
def execTeamBlockingTimeout (s : State) : Out := ev "TEAM_BLOCKING_TIMEOUT" (s.becomeBlocking s.clock.arg.a)

/-- COMPLETION_RECORD_WRITE (R244, R341). -/
def execCompletionRecordWrite (s : State) : Out := ev "COMPLETION_RECORD_WRITE" (s.completeLaunch s.clock.arg.a)

/-! Host accesses to device memory (R362, R363). -/

/-- The bytes lie in the HBM window of a partition, its HDM range (R362). -/
def State.inWindow (s : State) (p pa n : Nat) : Bool :=
  decide (p < 16) && decide (s.pdesc p 1 ≤ pa) && decide (pa + n ≤ s.pdesc p 2) && decide (pa + n ≤ 2 ^ 39)

/-- The places of a host access: in plaintext, at their homes (R230). -/
def hostLocs (pa n : Nat) : List Loc := locRun { key := pa, enc := 0, home := 0 } n

/-- HOST_MEM_READ (R230, R363): the answer holds the bytes, or says that they are poisoned (R358). -/
def execHostMemRead (s : State) : Out :=
  let g := s.clock.arg
  let n := g.l.headD 1
  let ls := hostLocs g.b n
  ev "HOST_MEM_READ" (if !s.inWindow g.a g.b n then none
    else if (s.poisoned ls).isSome then some (s.send [4, 1])
    else some (s.send (4 :: 0 :: (s.homeBytes g.a ls).map (·.toNat))))

/-- The bytes of a host write whose bit of the byte mask is set (R363): bit `i` of the mask, in dwords, is byte `i`; no mask writes all. -/
def maskedBytes (mask : List Nat) (ls : List Loc) (bs : List Byte) : List (Loc × Byte) :=
  ((ls.zip bs).zipIdx.filter fun q => mask.isEmpty || bit (mask.getD (q.2 / 64) 0) (q.2 % 64)).map (·.1)

/-- HOST_MEM_WRITE (R229, R363): the bytes are applied at their homes under the byte mask, and the completion returns. -/
def execHostMemWrite (s : State) : Out :=
  let g := s.clock.arg
  let ws := maskedBytes g.l (hostLocs g.b g.bytes.length) g.bytes
  ev "HOST_MEM_WRITE" (if !s.inWindow g.a g.b g.bytes.length then none
    else some ((s.remoteWrite g.a (ws.map (·.1)) (ws.map (·.2))).1.send [4, 2]))

/-! Remote operations and collectives (R222 to R225, R370 to R373). -/

/-- REMOTE_REQUEST_ARRIVAL (R222, R370). -/
def execRemoteRequestArrival (s : State) : Out := ev "REMOTE_REQUEST_ARRIVAL" (s.clock.arg.req.map s.serveRemote)

/-- The lines of its target an operation writes in order (R371). -/
def Op.remoteLines (o : Op) : List Nat :=
  match o.kind with
  | .ramo .. => [o.kind.remoteAddr 0 / 64]
  | .rput dst _ => ((List.range (dst.count - o.f)).flatMap fun i => (dst.spot (o.f + i)).pieces.map (·.1 / 64)).dedup
  | _ => []

/-- An earlier operation of the row toward one of the same lines of the target is not yet acknowledged (R371). -/
def State.lineBehind (s : State) (o : Op) : Bool :=
  let ls := o.remoteLines
  s.ops.any fun q => q.row == o.row && decide (q.id < o.id) && !q.stopped && q.remoteLines.any ls.contains

/-- The answer fits the operation: one that failed names an element still to be done. -/
def Op.ackFits (o : Op) (a : RemoteAck) : Bool :=
  match o.kind, a with
  | .rput .., .put _ | .rget .., .get _ | .ramo .., .amo .. | .ramo .., .fail .. => true
  | .rput dst _, .fail f _ _ | .rget dst _, .fail f _ _ => decide (o.f ≤ f) && decide (f < dst.count)
  | _, _ => false

/-- REMOTE_ACKNOWLEDGEMENT (R222 to R224): the registers of a `ramo` need the row's own state only. -/
def State.remoteAck (s : State) (o : Op) (a : RemoteAck) : Option State :=
  if !o.ackFits a || o.stopped || s.lineBehind o then none
  else some (s.acknowledge o a)
/-- The operation of an ended row that its target has still to acknowledge (R244). -/
def State.awayOp? (s : State) (k : Nat) : Option Op := (s.engine.launches.flatMap (·.remote)).find? (·.id == k)

/-- A launch has no longer to wait for an operation of an ended row (R244): it takes the GWCT of its acknowledgement. -/
def State.dropAway (s : State) (k g : Nat) : State :=
  let took (l : Launch) : Launch :=
    if l.remote.any (·.id == k) then { l with gwct := max l.gwct g, remote := l.remote.filter (·.id != k) } else l
  { s with engine := { s.engine with launches := s.engine.launches.map took } }

/-- The GWCT an answer brings, of the elements it says are written (R241). -/
def ackGwct (a : RemoteAck) (f : Nat) : Nat :=
  match a with
  | .put g | .amo _ g => g
  | .get _ => 0
  | .fail e g _ => if f < e then g else 0

/-- An answer to an operation of an ended row (R244). -/
def State.awayAck (s : State) (o : Op) (a : RemoteAck) : Option State := if o.ackFits a then some (s.dropAway o.id (ackGwct a o.f)) else none

/-- REMOTE_ACKNOWLEDGEMENT. -/
def execRemoteAcknowledgement (s : State) : Out :=
  ev "REMOTE_ACKNOWLEDGEMENT" (s.clock.arg.ack.bind fun a => match s.op? s.clock.arg.a with
    | some o => s.remoteAck o a
    | none => (s.awayOp? s.clock.arg.a).bind fun o => s.awayAck o a)

/-- REMOTE_OP_TIMEOUT (R371): 10 ms without an acknowledgement. -/
def State.remoteTimeout (s : State) (o : Op) : Option State :=
  if o.kind.isRemote && !o.stopped && decide (o.since + 10 * 10 ^ 6 ≤ s.clock.et) then some (s.remoteFail o o.f) else none
/-- The same for an operation of an ended row: there is no thread to fault, and its launch waits for it no longer. -/
def State.awayTimeout (s : State) (o : Op) : Option State := if o.since + 10 * 10 ^ 6 ≤ s.clock.et then some (s.dropAway o.id 0) else none
/-- REMOTE_OP_TIMEOUT. -/
def execRemoteOpTimeout (s : State) : Out :=
  ev "REMOTE_OP_TIMEOUT" (match s.op? s.clock.arg.a with
    | some o => s.remoteTimeout o
    | none => (s.awayOp? s.clock.arg.a).bind s.awayTimeout)

/-- The elements this device contributes to a collective (R225). -/
def collRead (o : Op) (sh : Shape) : Nat → Nat → State → Except (Nat × AFault) (List Nat × State)
  | 0, _, s => .ok ([], s)
  | n + 1, e, s =>
    match engineRead s o.acc sh e with
    | .error f => .error (e, f)
    | .ok (_, v, s) =>
      match collRead o sh n (e + 1) s with
      | .error f => .error f
      | .ok (l, s) => .ok (v.1 :: l, s)

/-- Write the elements a collective gives this device. -/
def collWrite (o : Op) (sh : Shape) : List Nat → Nat → State → State × Option (Nat × AFault)
  | [], _, s => (s, none)
  | v :: t, e, s =>
    match engineDest s o.acc sh e with
    | .error f => (s.touch o.acc false (sh.spot e).pieces, some (e, f))
    | .ok (ls, s) => collWrite o sh t (e + 1) (s.applyAt (.ctl o.row) o.cluster o.part false (spotItems sh.fmt 0 ls v)).1

/-- COLLECTIVE_COMPLETE (R225, R372, R373): every member of the span has submitted its collective of the same position in the GROUP. Members
that disagree fail it. The data of this device is read from its own memory. -/
def State.collDone (s : State) (o : Op) (ms : List Member) : Option State :=
  match o.kind with
  | .coll d evAddr k =>
    let spann := bits (s.pdesc o.part 13) 32 14
    let me := bits (s.pdesc o.part 13) 0 14
    let ms := ms.filter (·.ordinal == k)
    if o.stopped || !(List.range spann).all fun k => ms.any (·.self == k) then none
    else if ms.any fun m => !collAgree m.desc d then some (s.raiseOp o (opFault o .remoteflt 0))
    else
      let s := s.settle o.row
      let ty := bits (d.headD 0) 16 8
      let n := collSend d spann
      let root := bits (d.headD 0) 0 8 == 3 && bits (d.headD 0) 32 32 != me
      match collRead o (collShape (d.getD 2 0) ty n) (if root then 0 else n) 0 s with
      | .error (e, f) => some (s.raiseOp o (opFault o f.code e f.addr1 f.addr2))
      | .ok (own, s) =>
        let ms := ms.map fun m => if m.self = me then { m with data := own } else m
        let out := collResult d ms me spann
        match collWrite o (collShape (d.getD 3 0) ty out.length) out 0 s with
        | (s, some (e, f)) => some (s.raiseOp o (opFault o f.code e f.addr1 f.addr2))
        | (s, none) =>
          let s := if evAddr = 0 then s else s.signalEvent o.part evAddr
          some (s.endOp o)
  | _ => none
/-- COLLECTIVE_COMPLETE. -/
def execCollectiveComplete (s : State) : Out :=
  ev "COLLECTIVE_COMPLETE" ((s.op? s.clock.arg.a).bind fun o => s.collDone o s.clock.arg.members)

/-- A partition belongs to a span of GROUP `g` that has another member `me`. -/
def State.peerOf (s : State) (g me : Nat) : Bool :=
  (List.range 16).any fun p => s.partOn p && s.pdesc p 12 == g && decide (me < bits (s.pdesc p 13) 32 14) && bits (s.pdesc p 13) 0 14 != me

/-- ET of the last answer of a member's ports to a heartbeat (R377); 0 before the first. -/
def State.heardAt (s : State) (g me : Nat) : Nat := ((s.mgmt.heard.find? fun q => q.1 == g && q.2.1 == me).map (·.2.2)).getD 0

/-- No port of a member has answered a heartbeat for 1 ms, and its failure is still to be noted (R377). -/
def State.silent (s : State) (g me : Nat) : Bool :=
  s.peerOf g me && !s.mgmt.failed.contains (g, me) && decide (s.heardAt g me + 10 ^ 6 ≤ s.clock.et)

/-- A remote operation of a span that works with a member of it, a collective with every one (R225, R377). -/
def State.toMember (s : State) (g me : Nat) (o : Op) : Bool :=
  !o.stopped && s.pdesc o.part 12 == g &&
  (match o.kind with
   | .coll .. => true
   | k => k.isRemote && k.remoteAddr o.f / 2 ^ 50 == me)

/-- A member of a span has failed (R377): the remote operations toward it fault, and the collectives, which it can no longer submit. Operations of
ended rows are waited for no longer. -/
def State.memberFails (s : State) (g me : Nat) : State :=
  let ops := s.ops.filter (s.toMember g me)
  let s := ((s.engine.launches.flatMap (·.remote)).filter (s.toMember g me)).foldl (fun s o => s.dropAway o.id 0) s
  let s := { s with mgmt := { s.mgmt with failed := (g, me) :: s.mgmt.failed } }
  ops.foldl (fun s o => s.remoteFail o (if o.kind.isRemote then o.f else 0)) s

/-- DEVICE_FAILURE_DETECTED (R377): member `a` of the span of GROUP `b` has been silent for 1 ms. -/
def execDeviceFailureDetected (s : State) : Out :=
  let g := s.clock.arg
  ev "DEVICE_FAILURE_DETECTED" (if s.silent g.b g.a then some (s.memberFails g.b g.a) else none)

/-- A member answers a heartbeat (R377): it is heard, and no longer one that has failed. -/
def State.hear (s : State) (g me : Nat) : State :=
  { s with mgmt := { s.mgmt with
      heard := (g, me, s.clock.et) :: s.mgmt.heard.filter fun q => !(q.1 == g && q.2.1 == me)
      failed := s.mgmt.failed.filter (· != (g, me)) } }

/-- HEARTBEAT (R377): a heartbeat arrives on port `a`, and the port answers; with the flag set it is itself the answer of member `b` of the
span of GROUP `w` to one of this device. -/
def execHeartbeat (s : State) : Out :=
  let g := s.clock.arg
  ev "HEARTBEAT" (if 16 ≤ g.a then none
    else if g.flag then some (s.hear g.w.toNat g.b)
    else some ({ s with mgmt := { s.mgmt with heartbeat := FMap.set s.mgmt.heartbeat g.a s.clock.et } }.send [6, g.a]))

/-- FELOK_LINK_REPLAY (R369): a replay changes only timing. -/
def execFelokLinkReplay (s : State) : Out := ev "FELOK_LINK_REPLAY" (if s.clock.arg.a < 16 then some s else none)

/-! Partitions (R325, R360, R361, R365 to R367). -/

/-- The dwords of a list of bytes by place. -/
def layoutItems (m : FMap Byte) : List Nat := m.flatMap fun q => [q.1, q.2.toNat]

/-- A firmware slot as it is measured. -/
def slotItem : Option FwImage → List Nat
  | none => [0]
  | some i => [1, i.content, i.signature, i.rollback]

/-- The measured items (R361): firmware images, address map, repair tables, key policy, layout entries. -/
def State.measured (s : State) : List Nat :=
  slotItem s.mgmt.slotA ++ slotItem s.mgmt.slotB ++
  (List.range 16).flatMap (fun p => (List.range 5).map (s.pdesc p)) ++
  s.mgmt.repairs.length :: s.mgmt.repairs ++
  (List.range 128).map (fun c => (s.cluster c).lmap.toNat) ++
  (List.range 16).map (fun p => (s.part p).keyCreated.toNat) ++
  layoutItems s.mgmt.layout

/-- A measured item has changed: an event is logged for every partition that has a key (R361). -/
def State.measuredChange (s : State) : State :=
  (List.range 16).foldl (fun s p => if (s.part p).keyCreated then s.log 9 p 0 else s) s

/-- PARTITION_CREATION (R360): the key pair is generated, and with it the key policy measured (R361). -/
def execPartitionCreation (s : State) : Out :=
  let p := s.clock.arg.a
  ev "PARTITION_CREATION" (if p < 16 ∧ (s.part p).keyCreated = false then
      some (s.modPart p fun q => { q with keyCreated := true, keyReleased := false }).measuredChange
    else none)

/-- PARTITION_DESTRUCTION (R361): the key is erased, and what was written under it stays unreadable. -/
def execPartitionDestruction (s : State) : Out :=
  let p := s.clock.arg.a
  ev "PARTITION_DESTRUCTION" (if p < 16 ∧ (s.part p).keyCreated = true ∧ s.partOn p = false ∧ (s.rows.any fun r => r.part == p) = false then
      let (n, s) := s.fresh
      let s := { s with mem := { s.mem with keys := s.mem.keys.map fun (q : Nat × Nat) => if q.2 = p + 1 then (q.1, 17 + n) else q } }
      some (s.modPart p fun q => { q with keyCreated := false, keyReleased := false }).measuredChange
    else none)

/-- Two ranges have no byte in common. -/
def apart (a b : Nat × Nat) : Bool := decide (a.2 ≤ b.1) || decide (b.2 ≤ a.1) || decide (a.2 ≤ a.1) || decide (b.2 ≤ b.1)

/-- The context pool (R339, R365): 32 KiB a slot. -/
def State.ctxPool (s : State) (p : Nat) : Nat × Nat := (s.pdesc p 10, s.pdesc p 10 + bits (s.pdesc p 11) 0 10 * 2 ^ 15)

/-- The queue range of a partition. -/
def State.queueRange (s : State) (p : Nat) : Nat × Nat :=
  let d := s.pdesc p 8
  (bits d 16 11, bits d 16 11 + bits d 0 11)

/-- Two partitions have nothing in common (R366). -/
def State.partsApart (s : State) (p q : Nat) : Bool :=
  let win (k i : Nat) : Nat × Nat := (s.pdesc k i, s.pdesc k (i + 1))
  apart (win p 1) (win q 1) && apart (win p 3) (win q 3) && (List.range 128).all (fun c => !(s.clusterIn p c && s.clusterIn q c)) &&
  apart (s.queueRange p) (s.queueRange q) && apart (s.ctxPool p) (s.ctxPool q)

/-- The alignments of R365 and the ranges of R346 hold (R366). -/
def State.partAligned (s : State) (p : Nat) : Bool :=
  let d := s.pdesc p
  d 0 % 2 ^ 20 == 0 && d 1 % 2 ^ 26 == 0 && d 7 % 32 == 0 && d 9 % 256 == 0 && d 10 % 2 ^ 15 == 0 && d 16 % 64 == 0 &&
  decide (d 1 ≤ d 2) && decide (d 2 ≤ 2 ^ 39) && (decide (d 4 ≤ d 3) || (decide (2 ^ 51 ≤ d 3) && decide (d 4 ≤ 2 ^ 52))) &&
  decide ((s.queueRange p).2 ≤ 1024)

/-- The span of the descriptor is legal (R366). Of a SPANN above the 9,216 that R21 and R365 give, R366 makes no condition, and EN may become 1 with
it (DESIGN CHOICE, log 64). -/
def State.spanOk (s : State) (p : Nat) : Bool :=
  let spann := bits (s.pdesc p 13) 32 14
  let me := bits (s.pdesc p 13) 0 14
  let buddy := bits (s.pdesc p 14) 0 14
  if spann = 0 then s.pdesc p 12 == 0 && me == 0 && buddy == 0 else decide (me < spann) && decide (buddy < spann)

/-- The snapshot regions are legal (R366, R376). -/
def State.rgnOk (s : State) (p : Nat) : Bool :=
  let r := s.rgn p
  let inWin (b n : Nat) : Bool := n == 0 || (decide (s.pdesc p 1 ≤ b) && decide (b + n ≤ s.pdesc p 2))
  (List.range 4).all (fun i => r i % 2 ^ 16 == 0) && decide (r 1 ≤ 2 ^ 36 + 2 ^ 16) && decide (r 3 ≤ 2 ^ 36 + 2 ^ 16) &&
  inWin (r 0) (r 1) && inWin (r 2) (r 3) && apart (r 0, r 0 + r 1) (r 2, r 2 + r 3)

/-- The handler image of a partition: its first address, size and code (R325). -/
def State.handlerImage (s : State) (p : Nat) : Option (Nat × Nat × List Byte × State) :=
  match s.readImage p (s.pdesc p 16) with
  | none => none
  | some (img, s) =>
    match img.ovs with
    | [] => none
    | (fo, size) :: _ =>
      if !img.roles.isEmpty || decide (2 ^ 16 < size) then none
      else (s.engRun p (s.pdesc p 16 + fo) 17 size).map fun q => (s.pdesc p 16 + fo, size, q.1, q.2)

/-- The handler image goes to the top of the scratchpads and binding 16 is set (R325). -/
def State.loadHandlers (s : State) (p base size : Nat) (code : List Byte) : State :=
  let l := up4k size
  let off := Config.spadBytes - l
  let s := ((List.range 128).filter (s.clusterIn p)).foldl (fun s c => (s.pokeBytes (spadAt c + off) code).setBinding c 16 (base, size, off)) s
  s.modPart p fun q => { q with hres := l }

/-- Change dword `i` of a descriptor. -/
def State.setDesc (s : State) (p i v : Nat) : State := s.modPart p fun q => { q with desc := q.desc.setIfInBounds i (BitVec.ofNat 64 v) }

/-- The sum of the floors in force (R381): those of partitions that are not enabled count as 0. -/
def State.floorSum (s : State) : Nat := sumL ((List.range 16).map fun p => if s.partOn p then (s.part p).floorw else 0)

/-- The rows and launches that an EN := 0 ends are not all gone (R366). -/
def State.stopping (s : State) (p : Nat) : Bool :=
  (s.rows.any fun r => r.part == p) || s.engine.launches.any fun l => l.part == p && !l.forced

/-- PARTITION_ENABLE (R366): EN becomes 1 when every condition holds; otherwise the failed condition is logged. While rows of the partition have
still to stop after EN := 0, EN stays 0 (DESIGN CHOICE, log 77). Its collectives count from 0 (R372), and its grant stays as R383 has left it
(DEDUCED, log 78). -/
def State.partEnable (s : State) (p : Nat) : Option State :=
  if 16 ≤ p ∨ s.partOn p = true then none
  else
    let others := (List.range 16).filter fun q => q != p && s.partOn q
    let fail (n : Nat) : Option State := some (s.log 10 p 0 n)
    if !others.all (s.partsApart p) then fail 1
    else if !s.partAligned p then fail 2
    else if !s.spanOk p then fail 3
    else if !s.rgnOk p then fail 4
    else if !(s.part p).keyCreated then fail 5
    else if s.stopping p then fail 7
    else
      match s.handlerImage p with
      | none => fail 6
      | some (base, size, code, s) =>
        let s := (s.loadHandlers p base size code).setDesc p 15 (2 ^ 63)
        some (s.modPart p fun q => { q with notify := 0, effw := q.floorw, collSeq := 0 })
/-- PARTITION_ENABLE. -/
def execPartitionEnable (s : State) : Out := ev "PARTITION_ENABLE" (s.partEnable s.clock.arg.a)

/-- Ask every resident row of a partition to stop (R326). -/
def State.preemptPart (s : State) (p : Nat) : State :=
  s.rows.foldl (fun s r => if r.part = p ∧ r.ctx.isSome = true then s.modRow r.id fun q => { q with preempt := some (q.preempt.getD s.clock.cycle) } else s) s

/-- No row of a partition is resident. -/
def State.partAway (s : State) (p : Nat) : Bool := !(s.rows.any fun r => r.part == p && r.ctx.isSome)

/-- The launches of a partition end with STATUS 1 (R366). -/
def State.endLaunches (s : State) (p : Nat) : State :=
  ((s.engine.launches.filter (·.part == p)).map (·.id)).foldl State.killLaunch s

/-- What the engine keeps of the launches at the heads of a partition's queues goes with them (R331, R335, R366): the slot read, the event
consumed or asked for, and the request at the event's home. -/
def State.dropHeads (s : State) (p : Nat) : State :=
  let mine (k : Nat) : Bool := decide ((s.queueRange p).1 ≤ k) && decide (k < (s.queueRange p).2)
  let clear (q : Nat × QKept) : Nat × QKept := if mine q.1 then (q.1, { q.2 with slot := none, consumed := false, evQueued := false }) else q
  { s with
    engine := { s.engine with kept := s.engine.kept.map clear }
    mem := { s.mem with eventQ := s.mem.eventQ.filter fun q => match q.2 with
      | .hnd h => decide (h < 2 ^ 20) || (h - 2 ^ 20) / 1024 != p
      | _ => true } }

/-- PARTITION_DISABLE (R366): EN := 0 fails the frozen threads and asks every row to stop; when all have, the partition's launches end. -/
def State.partDisable (s : State) (p : Nat) : Option State :=
  let finish (s : State) : State := if s.partAway p then (s.endLaunches p).modPart p fun q => { q with hres := 0 } else s
  if 16 ≤ p then none
  else if s.partOn p then
    let s := (s.setDesc p 15 0).dropHeads p
    let s := (s.cave.recs.filter (·.part == p)).foldl (fun s r => if (s.fr? r.id).isSome then s.killFrozen r else s) s
    some (finish (s.preemptPart p))
  else if s.stopping p && s.partAway p then some (finish s)
  else none
/-- PARTITION_DISABLE. -/
def execPartitionDisable (s : State) : Out := ev "PARTITION_DISABLE" (s.partDisable s.clock.arg.a)

/-! Snapshots (R374 to R376). -/

/-- The HBM ranges a list names: pairs of first byte and size, ended by a size of 0, at most 64 (PRESUMED, log 15). -/
def State.snapRanges (s : State) (list : Nat) : Nat → List (Nat × Nat)
  | 0 => []
  | n + 1 =>
    let k := list + 16 * (64 - (n + 1))
    let size := s.dwordAt (k + 8)
    if size = 0 then [] else (s.dwordAt k, size) :: s.snapRanges list n

/-- Bytes a snapshot takes (R328, R374, R376): ranges, context areas, register images, queue table and trailer. -/
def State.snapSize (s : State) (p : Nat) (rs : List (Nat × Nat)) : Nat :=
  sumL (rs.map (·.2)) + bits (s.pdesc p 11) 0 10 * 2 ^ 15 + (s.rows.filter (·.part == p)).length * 82432 +
  bits (s.pdesc p 8) 0 11 * 32 + 2 ^ 16

/-- A place lies in one of some ranges. -/
def inRanges (rs : List (Nat × Nat)) (k : Nat) : Bool := rs.any fun r => decide (r.1 ≤ k) && decide (k < r.1 + r.2)

/-- The ranges of memory a snapshot holds (R374): those of its list, the queue table, the context pool. -/
def State.snapSpans (s : State) (p : Nat) (rs : List (Nat × Nat)) : List (Nat × Nat) :=
  rs ++ [(s.queueAt p 0, bits (s.pdesc p 8) 0 11 * 32), ((s.ctxPool p).1, (s.ctxPool p).2 - (s.ctxPool p).1)]

/-- The snapshot of a partition (R374). Bytes of a range that memory does not list are 0 and left out. -/
def State.takeSnap (s : State) (p : Nat) (rs : List (Nat × Nat)) : SnapData :=
  let rows := s.rows.filter (·.part == p)
  let owns (k : Nat) (sl : Slice) : Bool := rows.any fun r => r.cluster == k / 16 && sl.owner == r.owner && sl.owner != 0
  let spans := s.snapSpans p rs
  { group := s.pdesc p 12, self := bits (s.pdesc p 13) 0 14, size := s.snapSize p rs, complete := true, ranges := spans
    cells := s.mem.cells.filter fun c => inRanges spans c.1
    keyed := (s.mem.keys.filter fun q => inRanges spans q.1 && q.2 == p + 1).map (·.1)
    ops := s.ops.filter fun o => o.part == p && !o.stopped
    collSeq := (s.part p).collSeq, rows := rows
    slices := s.slices.filter fun q => owns q.1 q.2
    launches := s.engine.launches.filter (·.part == p)
    kept := s.engine.kept.filter fun q => decide ((s.queueRange p).1 ≤ q.1) && decide (q.1 < (s.queueRange p).2) }

/-- Write a snapshot region (R376): its contents from the first byte on, then its trailer in the last 64 KiB. The layout of its bytes is not
given: they are free values (DESIGN CHOICE, log 15). Lines written whole are poisoned no longer (R358). -/
def State.writeRegion (s : State) (base size n : Nat) : State × Nat :=
  let (seed, s) := s.fresh
  let put (s : State) (k n : Nat) : State :=
    let s := s.pokeBytes k ((List.range n).map fun i => regionByte seed (k + i))
    { s with mem := { s.mem with poison := s.mem.poison.filter fun l => !(decide (k ≤ l * 64) && decide (l * 64 + 64 ≤ k + n)) } }
  if size < 2 ^ 16 then (s, seed)
  else (put (put s base (min (n - 2 ^ 16) (size - 2 ^ 16))) (base + size - 2 ^ 16) (2 ^ 16), seed)

/-- A remote operation of the partition has not been acknowledged (R375). -/
def State.remoteOut (s : State) (p : Nat) : Bool :=
  (s.ops.any fun o => o.part == p && o.kind.isRemote && !o.stopped) || s.engine.launches.any fun l => l.part == p && !l.remote.isEmpty

/-- The last step of a snapshot (R374 to R376): what has been stored is applied, the snapshot is copied to the own region, and to the buddy's
peer region where the partition belongs to a span; `buddy`: that region took it. -/
def State.copySnap (s : State) (p : Nat) (buddy : Bool) : State :=
  let s := (s.mem.writes.filter (·.part == p)).foldl State.applyWrite s
  let rs := s.snapRanges (s.part p).snapList 64
  let spann := bits (s.pdesc p 13) 32 14
  let size := s.snapSize p rs
  let fits := decide (size ≤ min (s.rgn p 1) (2 ^ 36 + 2 ^ 16)) &&
    rs.all fun r => decide (s.pdesc p 1 ≤ r.1) && decide (r.1 + r.2 ≤ s.pdesc p 2)
  let snap := s.takeSnap p rs
  let (s, seed) := s.writeRegion (s.rgn p 0) (s.rgn p 1) size
  let s := s.modPart p fun q => { q with
    snapState := if fits && (spann == 0 || buddy) then 2 else 3
    own := if fits then some { base := s.rgn p 0, size := s.rgn p 1, seed := seed, snap := snap } else none }
  if spann = 0 then s
  else { s with mgmt := { s.mgmt with snapOut := s.mgmt.snapOut ++ [(bits (s.pdesc p 14) 0 14, { snap with complete := fits })] } }

/-- SNAPSHOT (R375). The command begins it: in a span the partition takes its barrier, whose members' arrivals come with a later event; then it
asks every row to stop; when all have, and every remote operation is acknowledged, it copies the snapshot, and the rows may resume. A barrier of
a span of which a member has failed cannot complete, and fails the snapshot (DEDUCED, log 79). -/
def State.snapshot (s : State) (p list : Nat) (buddy : Bool) (ms : List Member) : Option State :=
  let spann := bits (s.pdesc p 13) 32 14
  if 16 ≤ p then none
  else if (s.part p).snapState ≠ 1 then
    let s := s.modPart p fun q => { q with snapState := 1, snapList := list, snapBar := spann != 0 }
    some (if spann = 0 then s.preemptPart p else s.send [9, p, s.pdesc p 12])
  else if (s.part p).snapBar then
    if s.mgmt.failed.any (·.1 == s.pdesc p 12) then some (s.modPart p fun q => { q with snapState := 3, snapBar := false })
    else if (List.range spann).all fun k => ms.any (·.self == k) then
      some ((s.preemptPart p).modPart p fun q => { q with snapBar := false })
    else none
  else if !s.partAway p || s.remoteOut p then none
  else some (s.copySnap p buddy)
/-- SNAPSHOT. -/
def execSnapshot (s : State) : Out :=
  ev "SNAPSHOT" (s.snapshot s.clock.arg.a s.clock.arg.w.toNat s.clock.arg.flag s.clock.arg.members)

/-- End a partition's rows and launches for a restore (R375): no completion record, no event. -/
def State.dropPart (s : State) (p : Nat) : State :=
  let s := ((s.rows.filter (·.part == p)).map (·.id)).foldl (fun s k => s.endRow k true) s
  { s with engine := { s.engine with launches := s.engine.launches.filter (·.part != p) } }

/-- A row of a snapshot as a restore leaves it: pre-empted, and frozen no longer (R375); `ops` are its operations not complete at the snapshot. -/
def Row.restored (r : Row) (et : Nat) (ops : List Op) : Row :=
  { r with
    ctx := none, preempt := none, away := some et, stepping := none, stepVf := none
    cnt := (List.range 4).map fun c => (ops.filter fun o => o.row == r.id && o.cls == some c).length
    th := { r.th with frozen := none, wait := none }
    vps := r.vps.map fun p => (p.1, { p.2 with st := if p.2.st = .froz then .thr else p.2.st, frozen := none, wait := none, stepping := none }) }

/-- Write a snapshot back (R375). -/
def State.restore (s : State) (p : Nat) (d : SnapData) : State :=
  let s := s.dropPart p
  let whole (n : Nat) : Bool := d.ranges.any fun r => decide (r.1 ≤ n * 64) && decide (n * 64 + 64 ≤ r.1 + r.2)
  let cells := d.cells.foldl (fun m c => Memory.write m c.1 c.2) (s.mem.cells.filter fun c => !inRanges d.ranges c.1)
  let s := s.modPart p fun q => { q with collSeq := d.collSeq }
  { s with
    clock := { s.clock with nextId := max s.clock.nextId (maxL (d.ops.map (·.id + 1))) }
    mem := { s.mem with
      cells := cells
      keys := d.keyed.foldl (fun m k => FMap.set m k (p + 1)) (s.mem.keys.filter fun q => !inRanges d.ranges q.1)
      poison := s.mem.poison.filter fun n => !whole n
      l1 := s.mem.l1.filter fun c => !inRanges d.ranges (c.line * 64) }
    rows := s.rows ++ d.rows.map fun r => r.restored s.clock.et d.ops
    ops := s.ops ++ d.ops
    slices := d.slices.foldl (fun m q => FMap.set m q.1 q.2) s.slices
    engine := { s.engine with
      launches := s.engine.launches ++ d.launches
      kept := d.kept.foldl (fun m q => FMap.set m q.1 q.2) s.engine.kept
      pool := s.engine.pool ++ d.rows.map fun r => p * 1024 + r.pool
      nextRow := max s.engine.nextRow (maxL (d.rows.map (·.id + 1)))
      nextId := max s.engine.nextId (maxL (d.launches.map (·.id + 1))) } }

/-- The restore's test and effect (R375, R376): a source that holds no complete snapshot of this partition fails it. -/
def State.restoreFrom (s : State) (p : Nat) (src : Option SnapData) : Option State :=
  if 16 ≤ p ∨ s.partOn p = false ∨ (s.part p).snapState = 1 then none
  else
    let fail : State := s.modPart p fun q => { q with snapState := 3 }
    match src with
    | none => some fail
    | some d =>
      if !d.complete || d.group != s.pdesc p 12 || d.self != bits (s.pdesc p 13) 0 14 then some fail
      else some ((s.restore p d).modPart p fun q => { q with snapState := 2 })

/-- The complete snapshot the own region holds (R376). -/
def State.ownSnap (s : State) (p : Nat) : Option SnapData :=
  s.snapFor (s.part p).own (s.rgn p 0) (s.rgn p 1) (s.pdesc p 12) (bits (s.pdesc p 13) 0 14)
/-- RESTORE_OWN (R375). -/
def execRestoreOwn (s : State) : Out := ev "RESTORE_OWN" (s.restoreFrom s.clock.arg.a (s.ownSnap s.clock.arg.a))
/-- RESTORE_BUDDY (R375, R376): the event brings what the buddy's peer region holds. -/
def execRestoreBuddy (s : State) : Out :=
  let p := s.clock.arg.a
  ev "RESTORE_BUDDY" (s.restoreFrom p (if bits (s.pdesc p 13) 32 14 = 0 then none else s.clock.arg.snap))

/-- PEER_SNAPSHOT_WRITE (R374, R376): a member whose BUDDY is this device writes the peer region, trailer last; the answer says whether it was
taken. One that does not fit leaves no complete snapshot there. -/
def State.peerWrite (s : State) (p : Nat) (d : SnapData) : Option State :=
  if 16 ≤ p then none
  else if !s.partOn p || d.group != s.pdesc p 12 || d.group == 0 || s.rgn p 3 == 0 then some (s.send [7, p, 0])
  else
    let (s, seed) := s.writeRegion (s.rgn p 2) (s.rgn p 3) d.size
    let fits := decide (d.size ≤ s.rgn p 3)
    some ((s.modPart p fun q => { q with
      peer := if fits then some { base := s.rgn p 2, size := s.rgn p 3, seed := seed, snap := d } else none }).send [7, p, fits.toNat])
/-- PEER_SNAPSHOT_WRITE. -/
def execPeerSnapshotWrite (s : State) : Out :=
  ev "PEER_SNAPSHOT_WRITE" (s.clock.arg.snap.bind fun d => s.peerWrite s.clock.arg.a d)

end Sys2Proof.Machine
end

