-- ==== Sys2Proof/Machine/EvMgmt.lean ====
section
/-! DEFINITION. Events of the horologer: lanes, power, current, sensors, the event log, registers without an event of their own, firmware,
identity and attestation (R3, R16, R359, R361, R368, R376, R378 to R390); and a word that is no instruction (R104). -/

namespace Sys2Proof.Machine

/-- Change the horologer's state. -/
def State.modMgmt (s : State) (f : Mgmt → Mgmt) : State := { s with mgmt := f s.mgmt }

/-! Lanes (R16, R378, R379). -/

/-- No row is resident on a cluster. -/
def State.clusterIdle (s : State) (c : Nat) : Bool := !(s.rows.any fun r => r.cluster == c && r.ctx.isSome)

/-- Errors the XOR lane rebuilds before a lane leaves (R379). -/
def State.rebuildLane (s : State) (c lane : Nat) : State :=
  match (s.cluster c).inService.findIdx? (· == lane) with
  | none => s
  | some l =>
    if !(s.cluster c).xorOk then s
    else { s with slices := s.slices.map fun (q : Nat × Slice) =>
      if q.1 / 16 = c then
        let alone (w : Nat) : Bool := (q.2.parity.filter (·.1.1 == w)).length == 1
        (q.1, { q.2 with parity := q.2.parity.filter fun p => !(q.2.base + p.1.2 == l && alone p.1.1) })
      else q }

/-- Energy of the device overhead account, in µJ (R378, R385). -/
def State.chargeOverhead (s : State) (n : Nat) : State := s.modMgmt fun m => { m with overhead := (m.overhead + n) % 2 ^ 64 }

/-- Energy of a partition, in µJ (R385). -/
def State.chargePart (s : State) (p n : Nat) : State := s.modPart p fun q => { q with energy := (q.energy + n) % 2 ^ 64 }

/-- Charge measured energy as the table of R385 has it. Ballast is split in proportion to the steps, each share rounded down (DESIGN CHOICE,
log 80). -/
def State.charge (s : State) (q : Activity × Nat) : State :=
  match q.1 with
  | .work t => s.chargePart (s.partOf t) q.2
  | .save r | .restore r => s.chargePart (s.partOf (.ctl r)) q.2
  | .scrub | .test | .idle => s.chargeOverhead q.2
  | .ballast steps => steps.foldl (fun s k => s.chargePart k.1 (q.2 * k.2 / sumL (steps.map (·.2)))) s

/-- Retire a physical lane (R16). One that would leave fewer than 30 takes the cluster out of service. -/
def State.retire (s : State) (c lane : Nat) : State :=
  let left := ((s.cluster c).inService.filter (· != lane)).length
  let gone (k : Cluster) : Cluster := { k with retired := insertNat lane k.retired, events := k.events.filter (·.1 != lane) }
  if left < 30 then ((s.modCluster c fun k => { gone k with outOfService := true }).log 8 0 c lane).measuredChange
  else ((s.rebuildLane c lane).modCluster c gone).measuredChange

/-- Nanoseconds of 24 hours. -/
def day : Nat := 24 * 3600 * 10 ^ 9

/-- Three of these times, in rising order, lie within 24 hours. -/
def threeInDay : List Nat → Bool
  | a :: b :: c :: t => decide (c ≤ a + day) || threeInDay (b :: c :: t)
  | _ => false

/-- A lane has had three corrected events within 24 hours (R379). -/
def Cluster.laneDue (k : Cluster) (lane : Nat) : Bool := threeInDay ((k.events.filter (·.1 == lane)).map (·.2))

/-- LANE_RETIREMENT (R16, R379): while no row is resident on the cluster. -/
def State.laneRetire (s : State) (c lane : Nat) : Option State :=
  if c < 128 ∧ lane ≤ 33 ∧ s.clusterIdle c = true ∧ (s.cluster c).laneDue lane = true ∧ (s.cluster c).retired.contains lane = false then
    some (s.retire c lane)
  else none
/-- LANE_RETIREMENT. -/
def execLaneRetirement (s : State) : Out := ev "LANE_RETIREMENT" (s.laneRetire s.clock.arg.a s.clock.arg.b)

/-- IN_FIELD_TEST (R378, R385): a lane that fails timing is retired, and the energy of the test goes to the overhead account. -/
def State.fieldTest (s : State) (c : Nat) (failed : Option Nat) (energy : Nat) : Option State :=
  if 128 ≤ c ∨ s.clusterIdle c = false then none
  else
    let s := s.charge (.test, energy)
    match failed with
    | none => some s
    | some l => if 33 < l ∨ (s.cluster c).retired.contains l = true then none else some (s.retire c l)
/-- IN_FIELD_TEST. -/
def execInFieldTest (s : State) : Out :=
  let g := s.clock.arg
  ev "IN_FIELD_TEST" (s.fieldTest g.a (if g.flag then some g.b else none) g.w.toNat)

/-! The power cap and the floors (R380 to R383). -/

/-- Every effective floor is the floor (R382). -/
def State.floorsInForce (s : State) : State := (List.range 16).foldl (fun s p => s.modPart p fun q => { q with effw := q.floorw }) s

/-- A write of CAPW (R381, R382). -/
def State.capWrite (s : State) (v : Nat) (force : Bool) : State :=
  let c := min v 2400
  let i := s.mgmt.idle
  let f := s.floorSum
  if c < i then (s.modMgmt fun m => { m with capStatus := 1 }).log 12 0 0 c
  else if i + f ≤ c then (s.modMgmt fun m => { m with capw := c, capStatus := 0 }).floorsInForce
  else if force then
    let s := s.modMgmt fun m => { m with capw := c, capStatus := 0 }
    (List.range 16).foldl (fun s p =>
      let on := s.partOn p
      s.modPart p fun q => { q with effw := if on then q.floorw * (c - i) / f else 0, notify := (q.notify + on.toNat) % 2 ^ 16 }) s
  else s.modMgmt fun m => { m with capStatus := 2 }
/-- CAPW_WRITE (R381, R382). -/
def execCapwWrite (s : State) : Out := ev "CAPW_WRITE" (some (s.capWrite (s.clock.arg.a % 2 ^ 16) false))
/-- CAPW_FORCE_WRITE (R382). -/
def execCapwForceWrite (s : State) : Out := ev "CAPW_FORCE_WRITE" (some (s.capWrite (s.clock.arg.a % 2 ^ 16) true))

/-- FLOORW_WRITE (R381, R382). -/
def State.floorWrite (s : State) (p f : Nat) : State :=
  let t := s.modPart p fun q => { q with floorw := f }
  if s.mgmt.capw < s.mgmt.idle + t.floorSum then s.log 14 p 0 f else t.floorsInForce
/-- FLOORW_WRITE. -/
def execFloorwWrite (s : State) : Out :=
  ev "FLOORW_WRITE" (if s.clock.arg.a < 16 then some (s.floorWrite s.clock.arg.a (s.clock.arg.b % 2 ^ 16)) else none)

/-- IDLE_FLOOR_MEASURE (R380, R382): an idle floor above the cap is logged. -/
def execIdleFloorMeasure (s : State) : Out :=
  let i := s.clock.arg.a % 2 ^ 16
  let s := s.modMgmt fun m => { m with idle := i }
  .next (if s.mgmt.capw < i then s.log 12 0 0 s.mgmt.capw else s)

/-- A die is above a temperature at one of its 16 points (R386). -/
def State.dieAbove (s : State) (d t : Nat) : Bool := ((s.mgmt.sensors.dieTemp.drop (16 * d)).take 16).any (decide <| t < ·)

/-- A partition has a cluster on a die above 105 °C (R386). -/
def State.partHot (s : State) (p : Nat) : Bool := (List.range 8).any fun d => s.dieAbove d 105 && (List.range 16).any fun k => s.clusterIn p (16 * d + k)

/-- The partition whose grant rises (R383): of those below 16 the lowest grant, then the lowest number; one that R386 treats as over the cap does
not rise. A partition that is not enabled has a grant too, and rises like the others (DEDUCED, log 78). -/
def State.riser (s : State) : Option Nat :=
  ((List.range 16).filter fun p => decide ((s.part p).grant < 16) && !s.partHot p).foldl (fun o p => match o with
    | none => some p
    | some q => if (s.part p).grant < (s.part q).grant then some p else some q) none

/-- A partition draws more than its effective floor. -/
def State.aboveFloor (s : State) (parts : List Nat) (p : Nat) : Bool := s.partOn p && decide ((s.part p).effw < parts.getD p 0)

/-- POWER_CONTROL_TICK (R383, R386): module power and the power of each partition. For a partition with a hot die P > C holds. -/
def State.powerTick (s : State) (power : Nat) (parts : List Nat) : State :=
  let c := s.mgmt.capw
  let beyond (p : Nat) : Bool := decide (c < power) || s.partHot p
  let stuck := (List.range 16).any beyond && (List.range 16).all fun p => !(beyond p && s.aboveFloor parts p) || decide ((s.part p).grant ≤ 1)
  let since := s.mgmt.overSince.getD s.clock.et
  let s := (List.range 16).foldl (fun s p =>
    let lower := beyond p && s.aboveFloor parts p && decide (1 < (s.part p).grant)
    s.modPart p fun q => { q with grant := if lower then q.grant - 1 else q.grant }) s
  let s := if power * 100 < c * 97 then (match s.riser with
      | some p => s.modPart p fun q => { q with grant := q.grant + 1 }
      | none => s) else s
  let s := s.modMgmt fun m => { m with overSince := if stuck then some since else none }
  let cool (k : Nat) : Bool := !(List.range 16).any fun p => s.clusterIn p k && s.partHot p
  if power < c then { s with clusters := s.clusters.map fun (q : Nat × Cluster) =>
    (q.1, { q.2 with mx := { q.2.mx with throttled := q.2.mx.throttled && !cool q.1 } }) }
  else s
/-- POWER_CONTROL_TICK (R383, R385): the energies measured since the last tick are charged with it. -/
def execPowerControlTick (s : State) : Out :=
  let g := s.clock.arg
  .next ((g.charges.foldl State.charge s).powerTick g.a g.l)

/-- MATRIX_THROTTLE (R383): 100 µs over the cap with every partition above its floor at grant 1; their matrix units slow down. -/
def State.throttle (s : State) (parts : List Nat) : Option State :=
  match s.mgmt.overSince with
  | none => none
  | some t =>
    if s.clock.et < t + 100000 then none
    else some ((List.range 128).foldl (fun s c =>
      if (List.range 16).any fun p => s.clusterIn p c && s.aboveFloor parts p && decide ((s.part p).grant ≤ 1) then
        s.modCluster c fun k => { k with mx := { k.mx with throttled := true } }
      else s) s)
/-- MATRIX_THROTTLE. -/
def execMatrixThrottle (s : State) : Out := ev "MATRIX_THROTTLE" (s.throttle s.clock.arg.l)

/-! Sensors and current (R384, R386). -/

/-- A die above 115 °C (R386): it stops its clusters, the launches with rows there end, and the horologer writes a record of it (R387). -/
def State.stopDie (s : State) (d : Nat) : State :=
  let s := (List.range 16).foldl (fun s k => s.modCluster (16 * d + k) fun c => { c with stoppedHot := true }) s
  let s := (((s.rows.filter fun r => dieOf r.cluster == d).map (·.launch)).dedup).foldl State.killLaunch s
  s.log 19 0 (16 * d) d

/-- SENSOR_SAMPLE (R386, R387): the reading is held, and a die above 115 °C stops. -/
def State.sample (s : State) (x : Sensors) : State :=
  let s := s.modMgmt fun m => { m with sensors := x }
  (List.range 8).foldl (fun s d => if s.dieAbove d 115 then s.stopDie d else s) s
/-- SENSOR_SAMPLE. -/
def execSensorSample (s : State) : Out := .next (s.sample s.clock.arg.sensors)

/-- The allowed activity moves by at most one eighth of the peak toward the activity asked for (R384). -/
def slewTo (old want : Nat) : Nat := if old < want then old + 1 else if want < old then old - 1 else old

/-- CURRENT_SLEW_WINDOW (R384): timing only. -/
def execCurrentSlewWindow (s : State) : Out :=
  let want := s.clock.arg.l
  .next (s.modMgmt fun m => { m with slew := m.slew.zipIdx.map fun q => slewTo q.1 (min 8 (want.getD q.2 0)) })

/-- A line of core SRAM, by flat place (R358). -/
def sramLine (line : Nat) : Bool := (List.range 128).any fun c => decide (sramAt c ≤ line * 64) && decide (line * 64 < sramAt c + 2 ^ 22)

/-- PATROL_SCRUB of HBM line `a` (R358, R359): 0 good, 1 corrected, 2 uncorrectable. What the code of a core SRAM finds of a line of it, which no
event of its own brings, comes by this one (DESIGN CHOICE, log 62). -/
def State.scrub (s : State) (line res : Nat) : Option State :=
  if (2 ^ 33 ≤ line ∧ sramLine line = false) ∨ 2 < res then none
  else if res = 0 then some s
  else if res = 1 then some (s.modMgmt fun m => { m with corrected := m.corrected + 1 })
  else some ({ s with mem := { s.mem with
    poison := insertNat line s.mem.poison, l1 := s.mem.l1.filter (·.line != line) } }.log 17 0 0 line)
/-- PATROL_SCRUB. -/
def execPatrolScrub (s : State) : Out := ev "PATROL_SCRUB" (s.scrub s.clock.arg.a s.clock.arg.b)

/-! Registers of the device owner's function and of the partitions' (R3, R354, R357, R365, R366, R368, R375, R376, R380, R383, R385, R387). -/

/-- The writable bits of a descriptor dword (R365). -/
def descMask (i v : Nat) : Nat :=
  if i = 8 then bits v 16 11 * 2 ^ 16 + bits v 0 11
  else if i = 11 then bits v 0 10
  else if i = 13 then bits v 32 14 * 2 ^ 32 + bits v 0 14
  else if i = 14 then bits v 0 14
  else v

/-- A write of dword `i` of descriptor `p` (R365, R366). -/
def State.descWrite (s : State) (p i v : Nat) : State :=
  if i = 15 then (if bit v 63 then (s.partEnable p).getD s else if s.partOn p then (s.partDisable p).getD s else s)
  else if 16 < i then s
  else
    let v := descMask i v
    if v = s.pdesc p i then s
    else if s.partOn p then s.log 11 p 0 i v
    else
      let s := s.setDesc p i v
      if i ≤ 4 then s.measuredChange else s

/-- A write of SNAPCTL (R375). -/
def State.snapWrite (s : State) (p v : Nat) (snap : Option SnapData) : State :=
  let cmd := bits v 62 2
  let list := bits v 8 54 * 2 ^ 8
  if (s.part p).snapState = 1 then s
  else if cmd = 1 then (s.snapshot p list false []).getD s
  else if cmd = 2 then (s.restoreFrom p (s.ownSnap p)).getD s
  else if cmd = 3 then (s.restoreFrom p (if bits (s.pdesc p 13) 32 14 = 0 then none else snap)).getD s
  else s

/-- A write of dword `i` of SNAPRGN (R366, R376). -/
def State.rgnWrite (s : State) (p i v : Nat) : State :=
  if v = s.rgn p i then s
  else if s.partOn p then s.log 11 p 0 (32 + i) v
  else s.modPart p fun q => { q with snapRgn := q.snapRgn.setIfInBounds i (BitVec.ofNat 64 v) }

/-- A write of a dword of the layout entries (R357): bytes 22 to 31 of an entry are 0. -/
def State.layoutWrite (s : State) (k v : Nat) : State :=
  let u := s.modMgmt fun m => { m with layout := (List.range 8).foldl (fun (l : FMap Byte) j =>
      let b : Byte := if 22 ≤ (k + j) % 32 then 0 else BitVec.ofNat 8 (bits v (8 * j) 8)
      if b = 0 then FMap.erase l (k + j) else FMap.set l (k + j) b) m.layout }
  if u.mgmt.layout = s.mgmt.layout then u else u.measuredChange

/-- A dword write at a register offset of the device owner's function; one beyond the table, or to a read-only register, does nothing
(R3, R368). An offset inside the table that is not a multiple of 8 names no register of it, and the write does nothing either (DESIGN CHOICE,
log 59). -/
def State.regWrite (s : State) (off v : Nat) (snap : Option SnapData) : State :=
  if off % 8 ≠ 0 then s
  else if 0x200000 ≤ off ∧ off < 0x201000 then s.descWrite ((off - 0x200000) / 256) ((off % 256) / 8) v
  else if 0x300000 ≤ off ∧ off < 0x300080 then s.snapWrite ((off - 0x300000) / 8) v snap
  else if 0x300100 ≤ off ∧ off < 0x300300 then s.rgnWrite ((off - 0x300100) / 32) (off % 32 / 8) v
  else if 0x400000 ≤ off ∧ off < 0x404000 then s.layoutWrite (off - 0x400000) v
  else if off = 0x500000 then s.capWrite (bits v 0 16) (bit v 63)
  else if 0x500100 ≤ off ∧ off < 0x500180 then s.floorWrite ((off - 0x500100) / 8) (bits v 0 16)
  else s
/-- Dword `d` of record place `i` of the event log ring (R387): record `n` of all ever written stands at place `n` mod 2,048; a place not yet
written reads zero. -/
def State.logDword (s : State) (i d : Nat) : Nat :=
  let first := s.mgmt.logCount - s.mgmt.log.length
  match s.mgmt.log.zipIdx.find? fun q => (first + q.2) % 2048 == i with
  | some ([et, code, part, cluster, d2, d3], _) =>
    [et, code % 2 ^ 16 + part % 16 * 2 ^ 16 + cluster % 128 * 2 ^ 20, d2, d3].getD d 0 % 2 ^ 64
  | _ => 0

/-- A dword read at a register offset of the device owner's function (R3, R368): the fields of codes RO and RW; those of codes WO and RZ, and
offsets beyond the table, read zero. -/
def State.regRead (s : State) (off : Nat) : Nat :=
  if off % 8 ≠ 0 then 0
  else if 0x200000 ≤ off ∧ off < 0x201000 then (if off % 256 / 8 < 17 then s.pdesc ((off - 0x200000) / 256) (off % 256 / 8) else 0)
  else if 0x300000 ≤ off ∧ off < 0x300080 then (s.part ((off - 0x300000) / 8)).snapState % 4
  else if 0x300100 ≤ off ∧ off < 0x300300 then s.rgn ((off - 0x300100) / 32) (off % 32 / 8)
  else if 0x400000 ≤ off ∧ off < 0x404000 then leNat ((List.range 8).map fun j => FMap.getD s.mgmt.layout (off - 0x400000 + j) 0)
  else if off = 0x500000 then s.mgmt.capStatus % 4 * 2 ^ 61 + s.mgmt.idle % 2 ^ 16 * 2 ^ 32 + s.mgmt.capw % 2 ^ 16
  else if 0x500100 ≤ off ∧ off < 0x500180 then
    (s.part ((off - 0x500100) / 8)).effw % 2 ^ 16 * 2 ^ 16 + (s.part ((off - 0x500100) / 8)).floorw % 2 ^ 16
  else if off = 0x500200 then s.mgmt.overhead % 2 ^ 64
  else if off = 0x500300 then s.mgmt.logCount % 2 ^ 64
  else if 0x600000 ≤ off ∧ off < 0x610000 then s.logDword ((off - 0x600000) / 32) (off % 32 / 8)
  else 0

/-- A dword read at a register offset of the function of partition `p` (R365, R368, R383, R385). TLBINV is WO (R354). A doorbell, to which R368 gives
no access code and no value to read, reads 0 (DESIGN CHOICE, log 81). -/
def State.vfRead (s : State) (p off : Nat) : Nat :=
  if off % 8 ≠ 0 then 0
  else if off < 0x88 then s.pdesc p (off / 8)
  else if off = 0x020808 then (s.part p).invDone % 2 ^ 64
  else if off = 0x030000 then (s.part p).notify % 2 ^ 16 * 2 ^ 48 + (s.part p).effw % 2 ^ 16 * 2 ^ 32 + (s.part p).grant % 32
  else if off = 0x030008 then (s.part p).energy % 2 ^ 64
  else 0

/-- A dword write at a register offset of the function of partition `p` (R331, R354, R368). -/
def State.vfWrite (s : State) (p off v : Nat) : State :=
  if off % 8 ≠ 0 then s
  else if 0x010000 ≤ off ∧ off < 0x020000 then s.doorbell p ((off - 0x010000) / 8) v
  else if off = 0x020800 then s.tlbRequest p v 0 []
  else s

/-- REGISTER_WRITE (R3, R368): an access of the host to a register space, that of the device owner's function, or that of the function of
partition `l.head`. The table names no event for the reads: here they are this event's second form, and the value read is the answer
(DESIGN CHOICE, log 60). -/
def execRegisterWrite (s : State) : Out :=
  let g := s.clock.arg
  ev "REGISTER_WRITE" (match g.l with
    | [] => some (if g.flag2 then s.send [8, s.regRead g.a] else s.regWrite g.a g.w.toNat g.snap)
    | p :: _ => if 16 ≤ p then none else some (if g.flag2 then s.send [8, s.vfRead p g.a] else s.vfWrite p g.a g.w.toNat))

/-! Firmware (R389). -/

/-- FIRMWARE_UPDATE (R389): accepted into the inactive slot, or discarded and logged. An image that changes what is measured is a change of a
measured item (R361). -/
def State.firmware (s : State) (i : FwImage) : State :=
  if Config.rsaVerify i.content i.signature && decide (s.mgmt.rollback ≤ i.rollback) then
    let u := s.modMgmt fun m => { m with
      slotA := if m.activeB then some i else m.slotA
      slotB := if m.activeB then m.slotB else some i
      staged := true }
    if u.measured = s.measured then u else u.measuredChange
  else s.log 15 0 0 i.rollback
/-- FIRMWARE_UPDATE. -/
def execFirmwareUpdate (s : State) : Out := ev "FIRMWARE_UPDATE" (s.clock.arg.image.map s.firmware)

/-- Lanes whose retirement waits take effect at device reset (R16). -/
def State.retireDue (s : State) : State :=
  s.clusters.foldl (fun s q =>
    (((q.2.events.map (·.1)).dedup).filter fun l => q.2.laneDue l && !q.2.retired.contains l).foldl (fun s l => s.retire q.1 l) s) s

/-- The state after a reset that boots slot A or B (R389): the reset values, with what the device keeps: lanes in service, row repairs,
firmware, rollback counter, event log. -/
def State.boot (s : State) (b : Bool) : State :=
  let s := s.retireDue
  let image := if b then s.mgmt.slotB else s.mgmt.slotA
  { State.reset with
    clock := { State.reset.clock with free := s.clock.free, nextId := s.clock.nextId, agenda := s.clock.agenda }
    clusters := s.clusters.map fun (q : Nat × Cluster) =>
      (q.1, { Cluster.shipped with retired := q.2.retired, events := q.2.events, outOfService := q.2.outOfService })
    mgmt := { State.reset.mgmt with
      slotA := s.mgmt.slotA, slotB := s.mgmt.slotB, activeB := b, repairs := s.mgmt.repairs, logCount := s.mgmt.logCount, log := s.mgmt.log
      rollback := max s.mgmt.rollback ((image.map (·.rollback)).getD 0) } }

/-- DEVICE_RESET (R389): the outcome of each slot's self-test comes with the event. -/
def execDeviceReset (s : State) : Out :=
  let b := if s.mgmt.staged then !s.mgmt.activeB else s.mgmt.activeB
  let ok (b : Bool) : Bool := if b then s.clock.arg.flag2 else s.clock.arg.flag
  if ok b then .next (s.boot b)
  else if ok (!b) then .next ((s.boot (!b)).log 16 0 0 b.toNat)
  else .fault .noBootableFirmware

/-! SPDM (R361, R390). Requests are numbered 0 GET_VERSION, 1 GET_CAPABILITIES, 2 NEGOTIATE_ALGORITHMS, 3 GET_DIGESTS,
4 GET_CERTIFICATE, 5 CHALLENGE, 6 GET_MEASUREMENTS, 7 KEY_EXCHANGE, 8 FINISH, 9 the key release. -/

/-- The secure session is established: a FINISH has followed its KEY_EXCHANGE (R390). -/
def Mgmt.session (m : Mgmt) : Bool := m.spdm.contains 8

/-- Send an answer: in a session under its key (R390). -/
def State.answer (s : State) (n : Nat) (a : List Nat) : State :=
  match s.mgmt.key with
  | some k => s.send (5 :: n :: if s.mgmt.session then Config.aesGcm k s.mgmt.outbox.length a else a)
  | none => s.send (5 :: n :: a)

/-- Answer a request and note it. -/
def State.spdmDo (s : State) (n : Nat) (a : List Nat) : State :=
  (s.answer n a).modMgmt fun m => { m with spdm := if n = 0 then [0] else m.spdm ++ [n], key := if n = 0 then none else m.key }

/-- The certificate chain as an answer. -/
def chain : Nat := Config.certificate 0

/-- The capabilities R390 uses, as SPDM 1.2 flags them: certificates, CHALLENGE, signed measurements, key exchange, encryption and MAC of a
session (PRESUMED, log 23). -/
def spdmCaps : Nat := 2 ^ 1 + 2 ^ 2 + 2 ^ 4 + 2 ^ 6 + 2 ^ 7 + 2 ^ 9

/-- GET_VERSION: SPDM 1.2. -/
def execGetVersion (s : State) : Out := .next (s.spdmDo 0 [0x12])
/-- GET_CAPABILITIES. -/
def execGetCapabilities (s : State) : Out := .next (s.spdmDo 1 [spdmCaps])
/-- NEGOTIATE_ALGORITHMS: RSASSA-3072 with SHA-256, ECDHE on secp384r1, AES-256-GCM. -/
def execNegotiateAlgorithms (s : State) : Out := .next (s.spdmDo 2 [3072, 256, 384, 256])
/-- GET_DIGESTS. -/
def execGetDigests (s : State) : Out := .next (s.spdmDo 3 [Config.measurementHash [chain]])
/-- GET_CERTIFICATE. -/
def execGetCertificate (s : State) : Out := .next (s.spdmDo 4 [chain])
/-- CHALLENGE: a signature of the identity key. -/
def execChallenge (s : State) : Out := .next (s.spdmDo 5 [Config.spdmSign s.clock.arg.a chain])
/-- GET_MEASUREMENTS (R361): the items and their signature. -/
def execGetMeasurements (s : State) : Out :=
  .next (s.spdmDo 6 (Config.spdmSign s.clock.arg.a (Config.measurementHash s.measured) :: s.measured))

/-- KEY_EXCHANGE with the peer's nonce and public value (R390): a session begins. The device answers with its own public value, signed, and holds
the key of the two. -/
def State.keyExchange (s : State) (nonce peer : Nat) : State :=
  let (seed, s) := s.fresh
  let pub := Config.ecdhPublic seed
  let s := s.modMgmt fun m => { m with spdm := m.spdm.filter (decide <| · < 6), key := none }
  (s.spdmDo 7 [pub, Config.spdmSign nonce pub]).modMgmt fun m => { m with key := some (Config.ecdhKey seed peer) }
/-- KEY_EXCHANGE. -/
def execKeyExchange (s : State) : Out := .next (s.keyExchange s.clock.arg.a s.clock.arg.b)

/-- FINISH (R390): the session is established where it follows a KEY_EXCHANGE and proves that the peer holds the session's key. -/
def State.finishSession (s : State) (proof : Nat) : State :=
  match s.mgmt.key with
  | some k => if proof = Config.finishData k ∧ s.mgmt.session = false then s.spdmDo 8 [1] else s.answer 8 [0]
  | none => s.answer 8 [0]
/-- FINISH. -/
def execFinish (s : State) : Out := .next (s.finishSession s.clock.arg.a)

/-- The session is established and the measurements were read in it (R361, R390). -/
def State.attested (s : State) : Bool := (s.mgmt.spdm.dropWhile (· != 8)).contains 6

/-- KEY_RELEASE (R361). -/
def State.keyRelease (s : State) (p hash : Nat) : State :=
  if p < 16 ∧ (s.part p).keyCreated = true ∧ s.attested = true ∧ hash = Config.measurementHash s.measured then
    (s.modPart p fun q => { q with keyReleased := true }).answer 9 [1]
  else s.answer 9 [0]
/-- KEY_RELEASE. -/
def execKeyRelease (s : State) : Out := .next (s.keyRelease s.clock.arg.a s.clock.arg.b)

/-! A word that is no instruction (R104). -/

/-- The place of the word the head of the issue list runs (R103). -/
def State.placeAt (s : State) : Actor → Place
  | .ctl r => if ((s.row? r).map (·.mxon)).getD false then .matrix else .control
  | .hnd _ => .handler
  | .lanes _ | .drain _ => .block
  | .bundle .. => .thread

/-- NON_INSTRUCTION_WORD (R104): the word of the event faults as the first failing step of R104 gives. -/
def execNonInstructionWord (s : State) : Out :=
  match s.clock.issue with
  | [] => .refused .noActor
  | a :: _ =>
    match decodeAt (s.placeAt a) (s.clock.arg.w.toNat % 2 ^ 32) with
    | .ok _ => .refused (.notEnabled "NON_INSTRUCTION_WORD")
    | .error c =>
      match a with
      | .lanes row => laneLock (fun v => .error (.fault c (lowest v.acts) 0 0 0)) row s.popIssue
      | .bundle row n => vpWord (fun _ _ _ _ s => .fault s { code := c, pc := 0 }) row n s
      | _ => ctl true false (fun _ th s => .fault s (th.flt c)) s

end Sys2Proof.Machine
end

