-- ==== Sys2Proof/Machine/Dispatch.lean ====
section
/-! DEFINITION. The meaning of every instruction and event: one arm a constructor. -/

namespace Sys2Proof.Machine

/-- What an instruction or event does. -/
def exec (i : Instr) (s : State) : Host.Outcome State Fault Refusal :=
  match i with
  | .add d a b => Sys2Proof.Machine.execAdd d a b s
  | .sub d a b => Sys2Proof.Machine.execSub d a b s
  | .and d a b => Sys2Proof.Machine.execAnd d a b s
  | .or d a b => Sys2Proof.Machine.execOr d a b s
  | .xor d a b => Sys2Proof.Machine.execXor d a b s
  | .sll d a b => Sys2Proof.Machine.execSll d a b s
  | .srl d a b => Sys2Proof.Machine.execSrl d a b s
  | .sra d a b => Sys2Proof.Machine.execSra d a b s
  | .mul d a b => Sys2Proof.Machine.execMul d a b s
  | .mulhS d a b => Sys2Proof.Machine.execMulhS d a b s
  | .mulhN d a b => Sys2Proof.Machine.execMulhN d a b s
  | .divS d a b => Sys2Proof.Machine.execDivS d a b s
  | .divN d a b => Sys2Proof.Machine.execDivN d a b s
  | .remS d a b => Sys2Proof.Machine.execRemS d a b s
  | .remN d a b => Sys2Proof.Machine.execRemN d a b s
  | .sltS d a b => Sys2Proof.Machine.execSltS d a b s
  | .sltN d a b => Sys2Proof.Machine.execSltN d a b s
  | .minS d a b => Sys2Proof.Machine.execMinS d a b s
  | .minN d a b => Sys2Proof.Machine.execMinN d a b s
  | .maxS d a b => Sys2Proof.Machine.execMaxS d a b s
  | .maxN d a b => Sys2Proof.Machine.execMaxN d a b s
  | .clz d a => Sys2Proof.Machine.execClz d a s
  | .ctz d a => Sys2Proof.Machine.execCtz d a s
  | .pop d a => Sys2Proof.Machine.execPop d a s
  | .bswap d a => Sys2Proof.Machine.execBswap d a s
  | .addi d a imm => Sys2Proof.Machine.execAddi d a imm s
  | .andi d a imm => Sys2Proof.Machine.execAndi d a imm s
  | .ori d a imm => Sys2Proof.Machine.execOri d a imm s
  | .xori d a imm => Sys2Proof.Machine.execXori d a imm s
  | .sltiS d a imm => Sys2Proof.Machine.execSltiS d a imm s
  | .slli d a n => Sys2Proof.Machine.execSlli d a n s
  | .srli d a n => Sys2Proof.Machine.execSrli d a n s
  | .srai d a n => Sys2Proof.Machine.execSrai d a n s
  | .lui d disp => Sys2Proof.Machine.execLui d disp s
  | .addpc d disp => Sys2Proof.Machine.execAddpc d disp s
  | .beq a b disp => Sys2Proof.Machine.execBeq a b disp s
  | .bne a b disp => Sys2Proof.Machine.execBne a b disp s
  | .bltS a b disp => Sys2Proof.Machine.execBltS a b disp s
  | .bgeS a b disp => Sys2Proof.Machine.execBgeS a b disp s
  | .bltN a b disp => Sys2Proof.Machine.execBltN a b disp s
  | .bgeN a b disp => Sys2Proof.Machine.execBgeN a b disp s
  | .jal d disp => Sys2Proof.Machine.execJal d disp s
  | .jalr d a imm => Sys2Proof.Machine.execJalr d a imm s
  | .csrr d csr => Sys2Proof.Machine.execCsrr d csr s
  | .csrw csr a => Sys2Proof.Machine.execCsrw csr a s
  | .csrs csr a => Sys2Proof.Machine.execCsrs csr a s
  | .csrc csr a => Sys2Proof.Machine.execCsrc csr a s
  | .ldBs d a disp => Sys2Proof.Machine.execLdBs d a disp s
  | .ldBn d a disp => Sys2Proof.Machine.execLdBn d a disp s
  | .ldHs d a disp => Sys2Proof.Machine.execLdHs d a disp s
  | .ldHn d a disp => Sys2Proof.Machine.execLdHn d a disp s
  | .ldWs d a disp => Sys2Proof.Machine.execLdWs d a disp s
  | .ldWn d a disp => Sys2Proof.Machine.execLdWn d a disp s
  | .ldD d a disp => Sys2Proof.Machine.execLdD d a disp s
  | .stB d a disp => Sys2Proof.Machine.execStB d a disp s
  | .stH d a disp => Sys2Proof.Machine.execStH d a disp s
  | .stW d a disp => Sys2Proof.Machine.execStW d a disp s
  | .stD d a disp => Sys2Proof.Machine.execStD d a disp s
  | .amoAdd d a b sc od word => Sys2Proof.Machine.execAmoAdd d a b sc od word s
  | .amoAnd d a b sc od word => Sys2Proof.Machine.execAmoAnd d a b sc od word s
  | .amoOr d a b sc od word => Sys2Proof.Machine.execAmoOr d a b sc od word s
  | .amoXor d a b sc od word => Sys2Proof.Machine.execAmoXor d a b sc od word s
  | .amoMinS d a b sc od word => Sys2Proof.Machine.execAmoMinS d a b sc od word s
  | .amoMinN d a b sc od word => Sys2Proof.Machine.execAmoMinN d a b sc od word s
  | .amoMaxS d a b sc od word => Sys2Proof.Machine.execAmoMaxS d a b sc od word s
  | .amoMaxN d a b sc od word => Sys2Proof.Machine.execAmoMaxN d a b sc od word s
  | .amoSwap d a b sc od word => Sys2Proof.Machine.execAmoSwap d a b sc od word s
  | .amoCas d a b sc od word => Sys2Proof.Machine.execAmoCas d a b sc od word s
  | .amoFadd d a b sc od => Sys2Proof.Machine.execAmoFadd d a b sc od s
  | .fenceAcq sc => Sys2Proof.Machine.execFenceAcq sc s
  | .fenceRel sc => Sys2Proof.Machine.execFenceRel sc s
  | .fenceAr sc => Sys2Proof.Machine.execFenceAr sc s
  | .setvl d a => Sys2Proof.Machine.execSetvl d a s
  | .setvlw d a w => Sys2Proof.Machine.execSetvlw d a w s
  | .vcfg d ew g => Sys2Proof.Machine.execVcfg d ew g s
  | .vtagw d tag => Sys2Proof.Machine.execVtagw d tag s
  | .vtagr d a => Sys2Proof.Machine.execVtagr d a s
  | .vhwm d a => Sys2Proof.Machine.execVhwm d a s
  | .vf disp => Sys2Proof.Machine.execVf disp s
  | .vfD disp => Sys2Proof.Machine.execVfD disp s
  | .vjoin d j t => Sys2Proof.Machine.execVjoin d j t s
  | .vjoinReg d j t => Sys2Proof.Machine.execVjoinReg d j t s
  | .waitf flags => Sys2Proof.Machine.execWaitf flags s
  | .waitc cls n => Sys2Proof.Machine.execWaitc cls n s
  | .qseed a => Sys2Proof.Machine.execQseed a s
  | .qdrain d => Sys2Proof.Machine.execQdrain d s
  | .sbput n a => Sys2Proof.Machine.execSbput n a s
  | .sbget d n => Sys2Proof.Machine.execSbget d n s
  | .mxon zp band keep => Sys2Proof.Machine.execMxon zp band keep s
  | .launch d a => Sys2Proof.Machine.execLaunch d a s
  | .evsig a => Sys2Proof.Machine.execEvsig a s
  | .evwait a => Sys2Proof.Machine.execEvwait a s
  | .vld vd xb vx fmt m => Sys2Proof.Machine.execVld vd xb vx fmt m s
  | .vlds vd xb vx fmt m => Sys2Proof.Machine.execVlds vd xb vx fmt m s
  | .vldseg vd xb vx fmt m => Sys2Proof.Machine.execVldseg vd xb vx fmt m s
  | .vldx vd xb vx fmt m => Sys2Proof.Machine.execVldx vd xb vx fmt m s
  | .vfg vd xb vx fmt m => Sys2Proof.Machine.execVfg vd xb vx fmt m s
  | .vldt vd vr m => Sys2Proof.Machine.execVldt vd vr m s
  | .vst vd xb vx fmt m => Sys2Proof.Machine.execVst vd xb vx fmt m s
  | .vsts vd xb vx fmt m => Sys2Proof.Machine.execVsts vd xb vx fmt m s
  | .vstseg vd xb vx fmt m => Sys2Proof.Machine.execVstseg vd xb vx fmt m s
  | .vstx vd xb vx fmt m => Sys2Proof.Machine.execVstx vd xb vx fmt m s
  | .vstxa vd xb vx fmt m => Sys2Proof.Machine.execVstxa vd xb vx fmt m s
  | .vstt vd vr m => Sys2Proof.Machine.execVstt vd vr m s
  | .sbind n a => Sys2Proof.Machine.execSbind n a s
  | .sbindx n a vi => Sys2Proof.Machine.execSbindx n a vi s
  | .sclose n => Sys2Proof.Machine.execSclose n s
  | .cpy d a => Sys2Proof.Machine.execCpy d a s
  | .cpyx d a vi => Sys2Proof.Machine.execCpyx d a vi s
  | .wmpub n a => Sys2Proof.Machine.execWmpub n a s
  | .wmbind n a cls => Sys2Proof.Machine.execWmbind n a cls s
  | .pfetch a lvl => Sys2Proof.Machine.execPfetch a lvl s
  | .cflush a => Sys2Proof.Machine.execCflush a s
  | .rput d a => Sys2Proof.Machine.execRput d a s
  | .rget d a => Sys2Proof.Machine.execRget d a s
  | .ramo d a b op od => Sys2Proof.Machine.execRamo d a b op od s
  | .coll d a => Sys2Proof.Machine.execColl d a s
  | .vadd vd va src m => Sys2Proof.Machine.execVadd vd va src m s
  | .vsub vd va src m => Sys2Proof.Machine.execVsub vd va src m s
  | .vmul vd va src m => Sys2Proof.Machine.execVmul vd va src m s
  | .vmulhS vd va src m => Sys2Proof.Machine.execVmulhS vd va src m s
  | .vmulhN vd va src m => Sys2Proof.Machine.execVmulhN vd va src m s
  | .vminS vd va src m => Sys2Proof.Machine.execVminS vd va src m s
  | .vminN vd va src m => Sys2Proof.Machine.execVminN vd va src m s
  | .vmaxS vd va src m => Sys2Proof.Machine.execVmaxS vd va src m s
  | .vmaxN vd va src m => Sys2Proof.Machine.execVmaxN vd va src m s
  | .vand vd va src m => Sys2Proof.Machine.execVand vd va src m s
  | .vor vd va src m => Sys2Proof.Machine.execVor vd va src m s
  | .vxor vd va src m => Sys2Proof.Machine.execVxor vd va src m s
  | .vsll vd va src m => Sys2Proof.Machine.execVsll vd va src m s
  | .vsrl vd va src m => Sys2Proof.Machine.execVsrl vd va src m s
  | .vsra vd va src m => Sys2Proof.Machine.execVsra vd va src m s
  | .vclz vd src m => Sys2Proof.Machine.execVclz vd src m s
  | .vpop vd src m => Sys2Proof.Machine.execVpop vd src m s
  | .vabs vd src m => Sys2Proof.Machine.execVabs vd src m s
  | .vneg vd src m => Sys2Proof.Machine.execVneg vd src m s
  | .vmv vd src m => Sys2Proof.Machine.execVmv vd src m s
  | .vsel vd va src m => Sys2Proof.Machine.execVsel vd va src m s
  | .vcmpEq md va src m => Sys2Proof.Machine.execVcmpEq md va src m s
  | .vcmpNe md va src m => Sys2Proof.Machine.execVcmpNe md va src m s
  | .vcmpLtS md va src m => Sys2Proof.Machine.execVcmpLtS md va src m s
  | .vcmpLtN md va src m => Sys2Proof.Machine.execVcmpLtN md va src m s
  | .vcmpLeS md va src m => Sys2Proof.Machine.execVcmpLeS md va src m s
  | .vcmpLeN md va src m => Sys2Proof.Machine.execVcmpLeN md va src m s
  | .vidx vd m => Sys2Proof.Machine.execVidx vd m s
  | .vimm vd imm m => Sys2Proof.Machine.execVimm vd imm m s
  | .vwmulS vd va src m => Sys2Proof.Machine.execVwmulS vd va src m s
  | .vwmulN vd va src m => Sys2Proof.Machine.execVwmulN vd va src m s
  | .vwmacS vd va src m => Sys2Proof.Machine.execVwmacS vd va src m s
  | .vwmacN vd va src m => Sys2Proof.Machine.execVwmacN vd va src m s
  | .vwmacSn vd va src m => Sys2Proof.Machine.execVwmacSn vd va src m s
  | .vnsr vd va src m => Sys2Proof.Machine.execVnsr vd va src m s
  | .vnsra vd va src m => Sys2Proof.Machine.execVnsra vd va src m s
  | .vsaddS vd va src m => Sys2Proof.Machine.execVsaddS vd va src m s
  | .vsaddN vd va src m => Sys2Proof.Machine.execVsaddN vd va src m s
  | .vssubS vd va src m => Sys2Proof.Machine.execVssubS vd va src m s
  | .vssubN vd va src m => Sys2Proof.Machine.execVssubN vd va src m s
  | .vavg vd va src m => Sys2Proof.Machine.execVavg vd va src m s
  | .vcvt vd rm vb m => Sys2Proof.Machine.execVcvt vd rm vb m s
  | .vretag vd tag => Sys2Proof.Machine.execVretag vd tag s
  | .vfadd vd va src m => Sys2Proof.Machine.execVfadd vd va src m s
  | .vfsub vd va src m => Sys2Proof.Machine.execVfsub vd va src m s
  | .vfmul vd va src m => Sys2Proof.Machine.execVfmul vd va src m s
  | .vfma vd va src m => Sys2Proof.Machine.execVfma vd va src m s
  | .vfms vd va src m => Sys2Proof.Machine.execVfms vd va src m s
  | .vfnma vd va src m => Sys2Proof.Machine.execVfnma vd va src m s
  | .vfmin vd va src m => Sys2Proof.Machine.execVfmin vd va src m s
  | .vfmax vd va src m => Sys2Proof.Machine.execVfmax vd va src m s
  | .vfdiv vd va src m => Sys2Proof.Machine.execVfdiv vd va src m s
  | .vfsqrt vd rm vb m => Sys2Proof.Machine.execVfsqrt vd rm vb m s
  | .vfrcp vd rm vb m => Sys2Proof.Machine.execVfrcp vd rm vb m s
  | .vfrsq vd rm vb m => Sys2Proof.Machine.execVfrsq vd rm vb m s
  | .vfexp2 vd rm vb m => Sys2Proof.Machine.execVfexp2 vd rm vb m s
  | .vfcmpEq md va src m => Sys2Proof.Machine.execVfcmpEq md va src m s
  | .vfcmpLt md va src m => Sys2Proof.Machine.execVfcmpLt md va src m s
  | .vfcmpLe md va src m => Sys2Proof.Machine.execVfcmpLe md va src m s
  | .vfclass vd src m => Sys2Proof.Machine.execVfclass vd src m s
  | .vfsgnj vd va src m => Sys2Proof.Machine.execVfsgnj vd va src m s
  | .mand md ma mb => Sys2Proof.Machine.execMand md ma mb s
  | .mor md ma mb => Sys2Proof.Machine.execMor md ma mb s
  | .mxor md ma mb => Sys2Proof.Machine.execMxor md ma mb s
  | .mnot md ma => Sys2Proof.Machine.execMnot md ma s
  | .mlist md => Sys2Proof.Machine.execMlist md s
  | .mbits md => Sys2Proof.Machine.execMbits md s
  | .mpop vd ma => Sys2Proof.Machine.execMpop vd ma s
  | .mfirst vd ma => Sys2Proof.Machine.execMfirst vd ma s
  | .vpopx vd src m => Sys2Proof.Machine.execVpopx vd src m s
  | .vxsect vd va src m => Sys2Proof.Machine.execVxsect vd va src m s
  | .vsegl vd src m => Sys2Proof.Machine.execVsegl vd src m s
  | .vslup vd va src m => Sys2Proof.Machine.execVslup vd va src m s
  | .vsldn vd va src m => Sys2Proof.Machine.execVsldn vd va src m s
  | .vperm vd va src m => Sys2Proof.Machine.execVperm vd va src m s
  | .vcompress vd va m => Sys2Proof.Machine.execVcompress vd va m s
  | .vexpand vd va m => Sys2Proof.Machine.execVexpand vd va m s
  | .vmatch vd va src m => Sys2Proof.Machine.execVmatch vd va src m s
  | .vredsum vd va src m => Sys2Proof.Machine.execVredsum vd va src m s
  | .vredmax vd va src m => Sys2Proof.Machine.execVredmax vd va src m s
  | .vredmin vd va src m => Sys2Proof.Machine.execVredmin vd va src m s
  | .vscan vd src m => Sys2Proof.Machine.execVscan vd src m s
  | .qswpH vd vs m => Sys2Proof.Machine.execQswpH vd vs m s
  | .qswpV vd vs m => Sys2Proof.Machine.execQswpV vd vs m s
  | .qswpD vd vs m => Sys2Proof.Machine.execQswpD vd vs m s
  | .qbc vd va sel m => Sys2Proof.Machine.execQbc vd va sel m s
  | .qsnd src m => Sys2Proof.Machine.execQsnd src m s
  | .qrcv vd m => Sys2Proof.Machine.execQrcv vd m s
  | .tf disp => Sys2Proof.Machine.execTf disp s
  | .tfc disp m => Sys2Proof.Machine.execTfc disp m s
  | .tsetf n => Sys2Proof.Machine.execTsetf n s
  | .vpld vd va src m => Sys2Proof.Machine.execVpld vd va src m s
  | .vpst vd va src m => Sys2Proof.Machine.execVpst vd va src m s
  | .vpamo vd va op sc od m => Sys2Proof.Machine.execVpamo vd va op sc od m s
  | .mlat side half xa xs fmt => Sys2Proof.Machine.execMlat side half xa xs fmt s
  | .mlatg half xa vi fmt => Sys2Proof.Machine.execMlatg half xa vi fmt s
  | .mlatv side half vs => Sys2Proof.Machine.execMlatv side half vs s
  | .mlut vc => Sys2Proof.Machine.execMlut vc s
  | .mop ha hb k => Sys2Proof.Machine.execMop ha hb k s
  | .mopz ha hb k => Sys2Proof.Machine.execMopz ha hb k s
  | .mband side vs => Sys2Proof.Machine.execMband side vs s
  | .mdrain n => Sys2Proof.Machine.execMdrain n s
  | .mdrainSz vs vz n => Sys2Proof.Machine.execMdrainSz vs vz n s
  | .mrow n => Sys2Proof.Machine.execMrow n s
  | .mstat d => Sys2Proof.Machine.execMstat d s
  | .barInit a b cls => Sys2Proof.Machine.execBarInit a b cls s
  | .barArrive a => Sys2Proof.Machine.execBarArrive a s
  | .barArriveCap a k => Sys2Proof.Machine.execBarArriveCap a k s
  | .barWait a => Sys2Proof.Machine.execBarWait a s
  | .barBytes a b => Sys2Proof.Machine.execBarBytes a b s
  | .lkacq d a cls => Sys2Proof.Machine.execLkacq d a cls s
  | .lkrel a => Sys2Proof.Machine.execLkrel a s
  | .waitm d a b cls => Sys2Proof.Machine.execWaitm d a b cls s
  | .cvinit n a b cls => Sys2Proof.Machine.execCvinit n a b cls s
  | .cvsign n => Sys2Proof.Machine.execCvsign n s
  | .clsq d a => Sys2Proof.Machine.execClsq d a s
  | .fsnap d k => Sys2Proof.Machine.execFsnap d k s
  | .frdx d k n => Sys2Proof.Machine.execFrdx d k n s
  | .fwrx d k n => Sys2Proof.Machine.execFwrx d k n s
  | .frdv d k n => Sys2Proof.Machine.execFrdv d k n s
  | .fwrv d k n => Sys2Proof.Machine.execFwrv d k n s
  | .frdm d k n => Sys2Proof.Machine.execFrdm d k n s
  | .fresume k => Sys2Proof.Machine.execFresume k s
  | .fresumeT k => Sys2Proof.Machine.execFresumeT k s
  | .fkill k => Sys2Proof.Machine.execFkill k s
  | .fstep k => Sys2Proof.Machine.execFstep k s
  | .capdrop k => Sys2Proof.Machine.execCapdrop k s
  | .ecall => Sys2Proof.Machine.execEcall s
  | .ebreak => Sys2Proof.Machine.execEbreak s
  | .yield => Sys2Proof.Machine.execYield s
  | .halt => Sys2Proof.Machine.execHalt s
  | .fenceOv => Sys2Proof.Machine.execFenceOv s
  | .vcommit => Sys2Proof.Machine.execVcommit s
  | .mxoff => Sys2Proof.Machine.execMxoff s
  | .tstop => Sys2Proof.Machine.execTstop s
  | .mzero => Sys2Proof.Machine.execMzero s
  | .mfold => Sys2Proof.Machine.execMfold s
  | .hdone => Sys2Proof.Machine.execHdone s
  | .escapementTick => Sys2Proof.Machine.execEscapementTick s
  | .vfBlockStart => Sys2Proof.Machine.execVfBlockStart s
  | .vectorSequencerCycle => Sys2Proof.Machine.execVectorSequencerCycle s
  | .tfHeldElementRelease => Sys2Proof.Machine.execTfHeldElementRelease s
  | .tffullTimeout => Sys2Proof.Machine.execTffullTimeout s
  | .regrouping => Sys2Proof.Machine.execRegrouping s
  | .vjoinArrival => Sys2Proof.Machine.execVjoinArrival s
  | .vjoinTimeout => Sys2Proof.Machine.execVjoinTimeout s
  | .threadQueueStallRelease => Sys2Proof.Machine.execThreadQueueStallRelease s
  | .quadExchangeThreadComplete => Sys2Proof.Machine.execQuadExchangeThreadComplete s
  | .operationComplete => Sys2Proof.Machine.execOperationComplete s
  | .homeWriteApply => Sys2Proof.Machine.execHomeWriteApply s
  | .barexitGroupReady => Sys2Proof.Machine.execBarexitGroupReady s
  | .byteLands => Sys2Proof.Machine.execByteLands s
  | .evwaitGrant => Sys2Proof.Machine.execEvwaitGrant s
  | .setvlwRelease => Sys2Proof.Machine.execSetvlwRelease s
  | .wmpubPerform => Sys2Proof.Machine.execWmpubPerform s
  | .fenceReleaseStallEnd => Sys2Proof.Machine.execFenceReleaseStallEnd s
  | .streamEntryFetch => Sys2Proof.Machine.execStreamEntryFetch s
  | .gatherUnitRequest => Sys2Proof.Machine.execGatherUnitRequest s
  | .vfgComplete => Sys2Proof.Machine.execVfgComplete s
  | .engineOpComplete => Sys2Proof.Machine.execEngineOpComplete s
  | .engineAsyncFault => Sys2Proof.Machine.execEngineAsyncFault s
  | .pageWalkComplete => Sys2Proof.Machine.execPageWalkComplete s
  | .matrixUnitGrant => Sys2Proof.Machine.execMatrixUnitGrant s
  | .matrixOpStart => Sys2Proof.Machine.execMatrixOpStart s
  | .matrixOpComplete => Sys2Proof.Machine.execMatrixOpComplete s
  | .handlerSpawn => Sys2Proof.Machine.execHandlerSpawn s
  | .faultQueueEntryFree => Sys2Proof.Machine.execFaultQueueEntryFree s
  | .preemptionRequest => Sys2Proof.Machine.execPreemptionRequest s
  | .preemptStripTimeout => Sys2Proof.Machine.execPreemptStripTimeout s
  | .rowResume => Sys2Proof.Machine.execRowResume s
  | .scalarIssueCycle => Sys2Proof.Machine.execScalarIssueCycle s
  | .starvePromotion => Sys2Proof.Machine.execStarvePromotion s
  | .promotionEnd => Sys2Proof.Machine.execPromotionEnd s
  | .promotedRowPlacement => Sys2Proof.Machine.execPromotedRowPlacement s
  | .laneRetirement => Sys2Proof.Machine.execLaneRetirement s
  | .inFieldTest => Sys2Proof.Machine.execInFieldTest s
  | .hostDoorbell => Sys2Proof.Machine.execHostDoorbell s
  | .launchStart => Sys2Proof.Machine.execLaunchStart s
  | .launchEngineSelection => Sys2Proof.Machine.execLaunchEngineSelection s
  | .teamBlockingTimeout => Sys2Proof.Machine.execTeamBlockingTimeout s
  | .completionRecordWrite => Sys2Proof.Machine.execCompletionRecordWrite s
  | .hostMemRead => Sys2Proof.Machine.execHostMemRead s
  | .hostMemWrite => Sys2Proof.Machine.execHostMemWrite s
  | .remoteRequestArrival => Sys2Proof.Machine.execRemoteRequestArrival s
  | .remoteAcknowledgement => Sys2Proof.Machine.execRemoteAcknowledgement s
  | .remoteOpTimeout => Sys2Proof.Machine.execRemoteOpTimeout s
  | .collectiveComplete => Sys2Proof.Machine.execCollectiveComplete s
  | .deviceFailureDetected => Sys2Proof.Machine.execDeviceFailureDetected s
  | .tlbinvPage => Sys2Proof.Machine.execTlbinvPage s
  | .tlbinvAll => Sys2Proof.Machine.execTlbinvAll s
  | .tlbinvFlush => Sys2Proof.Machine.execTlbinvFlush s
  | .tlbInvalidationComplete => Sys2Proof.Machine.execTlbInvalidationComplete s
  | .partitionEnable => Sys2Proof.Machine.execPartitionEnable s
  | .partitionDisable => Sys2Proof.Machine.execPartitionDisable s
  | .snapshot => Sys2Proof.Machine.execSnapshot s
  | .restoreOwn => Sys2Proof.Machine.execRestoreOwn s
  | .restoreBuddy => Sys2Proof.Machine.execRestoreBuddy s
  | .capwWrite => Sys2Proof.Machine.execCapwWrite s
  | .capwForceWrite => Sys2Proof.Machine.execCapwForceWrite s
  | .floorwWrite => Sys2Proof.Machine.execFloorwWrite s
  | .registerWrite => Sys2Proof.Machine.execRegisterWrite s
  | .powerControlTick => Sys2Proof.Machine.execPowerControlTick s
  | .matrixThrottle => Sys2Proof.Machine.execMatrixThrottle s
  | .idleFloorMeasure => Sys2Proof.Machine.execIdleFloorMeasure s
  | .sensorSample => Sys2Proof.Machine.execSensorSample s
  | .currentSlewWindow => Sys2Proof.Machine.execCurrentSlewWindow s
  | .patrolScrub => Sys2Proof.Machine.execPatrolScrub s
  | .firmwareUpdate => Sys2Proof.Machine.execFirmwareUpdate s
  | .deviceReset => Sys2Proof.Machine.execDeviceReset s
  | .getVersion => Sys2Proof.Machine.execGetVersion s
  | .getCapabilities => Sys2Proof.Machine.execGetCapabilities s
  | .negotiateAlgorithms => Sys2Proof.Machine.execNegotiateAlgorithms s
  | .getDigests => Sys2Proof.Machine.execGetDigests s
  | .getCertificate => Sys2Proof.Machine.execGetCertificate s
  | .challenge => Sys2Proof.Machine.execChallenge s
  | .getMeasurements => Sys2Proof.Machine.execGetMeasurements s
  | .keyExchange => Sys2Proof.Machine.execKeyExchange s
  | .finish => Sys2Proof.Machine.execFinish s
  | .keyRelease => Sys2Proof.Machine.execKeyRelease s
  | .nonInstructionWord => Sys2Proof.Machine.execNonInstructionWord s
  | .partitionCreation => Sys2Proof.Machine.execPartitionCreation s
  | .partitionDestruction => Sys2Proof.Machine.execPartitionDestruction s
  | .felokLinkReplay => Sys2Proof.Machine.execFelokLinkReplay s
  | .heartbeat => Sys2Proof.Machine.execHeartbeat s
  | .peerSnapshotWrite => Sys2Proof.Machine.execPeerSnapshotWrite s

end Sys2Proof.Machine
end

