-- ==== Sys2Proof/Machine/Arbiter.lean ====
section
/-! DEFINITION. What the device does next: which event, which fetched word (R13, R53, R104, R120, R224, R324, R342). Among the orders the
spec allows the choice is the model's own (log 12). -/

namespace Sys2Proof.Machine

/-! Fetching. -/

/-- What the head of the issue list gives to run. -/
inductive Fetched where
  /-- A word. -/
  | word (w : Nat)
  /-- No overlay holds the address (R43, R120). -/
  | miss
  /-- The next word of a drain, whose place in the block its operation holds (R265). -/
  | drain (o : Op)
  /-- Nothing: it cannot issue now. -/
  | idle
deriving DecidableEq, Repr

/-- A fetched address as its outcome. -/
def Fetched.of : Option Nat → Fetched
  | some w => .word w
  | none => .miss

/-- The word an actor runs next: at the thread's PC, or the next one of its block (R27, R324). -/
def State.fetched (s : State) (a : Actor) : Fetched :=
  if !s.actorReady a then .idle
  else
    match a with
    | .ctl r => (match s.row? r with
        | some q => .of (q.fetchWord q.th.pc)
        | none => .idle)
    | .hnd h => (match s.hnd? h with
        | some q => .of (fetchWord q.code q.cluster q.bind q.th.pc)
        | none => .idle)
    | .lanes r => (match (s.row? r).bind fun q => q.blocks.head?.bind fun k => k.words[k.idx]? with
        | some w => .word w.toNat
        | none => .idle)
    | .bundle r n => (match (s.row? r).bind fun q => q.bundles[n]?.bind fun b => (State.dueMembers q b).head?.bind fun m => b.words[m.idx]? with
        | some w => .word w.toNat
        | none => .idle)
    | .drain r => (match (s.row? r).bind s.drainReady with
        | some (o, _) => .drain o
        | none => .idle)

/-- OVLMISS of the thread at the head of the issue list (R120). -/
def State.fetchMiss (s : State) : Out := ctl true false (fun _ th s => .fault s (th.flt .ovlmiss)) s

/-- The x registers a word of a control stream reads or writes. -/
def xregs (i : Instr) : List Reg :=
  match i with
  | .vf _ | .vfD _ => List.finRange 32
  | .add d a b | .sub d a b | .and d a b | .or d a b | .xor d a b | .sll d a b | .srl d a b | .sra d a b | .mul d a b
  | .mulhS d a b | .mulhN d a b | .divS d a b | .divN d a b | .remS d a b | .remN d a b | .sltS d a b | .sltN d a b
  | .minS d a b | .minN d a b | .maxS d a b | .maxN d a b | .amoAdd d a b _ _ _ | .amoAnd d a b _ _ _ | .amoOr d a b _ _ _
  | .amoXor d a b _ _ _ | .amoMinS d a b _ _ _ | .amoMinN d a b _ _ _ | .amoMaxS d a b _ _ _ | .amoMaxN d a b _ _ _
  | .amoSwap d a b _ _ _ | .amoCas d a b _ _ _ | .amoFadd d a b _ _ | .ramo d a b _ _ | .waitm d a b _ => [d, a, b]
  | .clz d a | .ctz d a | .pop d a | .bswap d a | .addi d a _ | .andi d a _ | .ori d a _ | .xori d a _ | .sltiS d a _
  | .slli d a _ | .srli d a _ | .srai d a _ | .jalr d a _ | .ldBs d a _ | .ldBn d a _ | .ldHs d a _ | .ldHn d a _
  | .ldWs d a _ | .ldWn d a _ | .ldD d a _ | .stB d a _ | .stH d a _ | .stW d a _ | .stD d a _ | .setvl d a | .setvlw d a _
  | .vtagr d a | .vhwm d a | .launch d a | .cpy d a | .cpyx d a _ | .rput d a | .rget d a | .coll d a | .lkacq d a _
  | .clsq d a => [d, a]
  | .lui d _ | .addpc d _ | .jal d _ | .csrr d _ | .vcfg d _ _ | .vtagw d _ | .vjoin d _ _ | .qdrain d | .sbget d _
  | .mstat d | .fsnap d _ | .frdx d _ _ | .fwrx d _ _ | .frdv d _ _ | .fwrv d _ _ | .frdm d _ _ => [d]
  | .beq a b _ | .bne a b _ | .bltS a b _ | .bgeS a b _ | .bltN a b _ | .bgeN a b _ | .barInit a b _ | .barBytes a b
  | .cvinit _ a b _ => [a, b]
  | .csrw _ a | .csrs _ a | .csrc _ a | .qseed a | .sbput _ a | .evsig a | .evwait a | .sbind _ a | .sbindx _ a _
  | .wmpub _ a | .wmbind _ a _ | .pfetch a _ | .cflush a | .barArrive a | .barArriveCap a _ | .barWait a | .lkrel a => [a]
  | .vjoinReg d _ t => [d, t]
  | .vlds _ xb xs _ _ | .vsts _ xb xs _ _ => [xb, xs]
  | .vld _ xb _ _ _ | .vldseg _ xb _ _ _ | .vldx _ xb _ _ _ | .vfg _ xb _ _ _ | .vst _ xb _ _ _
  | .vstseg _ xb _ _ _ | .vstx _ xb _ _ _ | .vstxa _ xb _ _ _ => [xb]
  | .mlat _ _ xa xs _ => [xa, xs]
  | .mlatg _ xa _ _ => [xa]
  | _ => []

/-- A word of a row waits for an outstanding `ramo`: one whose register it reads or writes, or one with acquire order (R129, R224). -/
def State.ramoWait (s : State) (a : Actor) (i : Instr) : Bool :=
  match a with
  | .ctl r => s.ops.any fun o => o.row == r && (match o.kind with
      | .ramo d _ _ od _ _ _ => od == .acq || od == .ar || (d != 0 && (xregs i).contains d)
      | _ => false)
  | _ => false

/-! Events. -/

/-- An event and its arguments. -/
abbrev Event := Instr × EvArg

/-- The state in which an event is run. -/
def State.withArg (s : State) (a : EvArg) : State := { s with clock := { s.clock with arg := a } }

/-- The outcome is a next state. -/
def isNext : Out → Bool
  | .next _ => true
  | _ => false

/-- The event can happen. -/
def State.can (s : State) (e : Event) : Bool := isNext (exec e.1 (s.withArg e.2))

/-- Clusters with rows, handlers or waiting records, ascending. -/
def State.busyClusters (s : State) : List Nat :=
  ((s.rows.map (·.cluster) ++ s.handlers.map (·.cluster) ++ s.cave.recs.map (·.cluster)).dedup).mergeSort fun a b => decide (a ≤ b)

/-- Waits that may end for a row and its VPs. -/
def rowEvents (r : Row) : List Event :=
  [(.vjoinArrival, { a := r.id }), (.vjoinTimeout, { a := r.id }), (.setvlwRelease, { a := r.id }),
   (.fenceReleaseStallEnd, { t := .ctl r.id }), (.tfHeldElementRelease, { a := r.id }), (.tffullTimeout, { a := r.id }),
   (.vfBlockStart, { a := r.id })] ++
  r.vps.flatMap fun p => match p.2.wait with
    | some (.fence _) => [(.fenceReleaseStallEnd, { t := .vp r.id p.1 })]
    | some .queue => [(.threadQueueStallRelease, { a := r.id, b := p.1 })]
    | some .quad => [(.quadExchangeThreadComplete, { a := r.id, b := p.1 / 4 })]
    | _ => []

/-- Entries a row's stream registers may fetch. -/
def streamEvents (r : Row) : List Event :=
  (r.streams.zipIdx.filter fun p => (p.1.map (·.canFetch)).getD false).map fun p => (.streamEntryFetch, { a := r.id, b := p.2 })

/-- A choice R34 leaves open, drawn for an operation. -/
def choiceOf (id : Nat) : Bool := Config.freeNat (2 ^ 64 + id) % 2 == 1

/-- How an outstanding operation may go on. -/
def State.opEvents (s : State) (o : Op) : List Event :=
  let keep := s.contested o && choiceOf o.id
  match o.kind with
  | .vpld .. | .vpst _ | .vpamo .. | .marker _ => [(.operationComplete, { a := o.id, flag := keep })]
  | .mdrain .. => []
  | .vfg .. => [(.gatherUnitRequest, { a := o.id }), (.vfgComplete, { a := o.id, flag := keep })]
  | .cpy .. | .cflush _ => [(.engineOpComplete, { a := o.id }), (.engineAsyncFault, { a := o.id })]
  | .wmpub .. => [(.wmpubPerform, { a := o.id })]
  | .rput .. | .rget .. | .ramo .. => [(.engineAsyncFault, { a := o.id }), (.remoteOpTimeout, { a := o.id })]
  | _ => [(.engineAsyncFault, { a := o.id })]

/-- The events of a cluster's matrix unit. The words of a drain take their turn among the lanes' candidates instead (R344). -/
def State.matrixEvents (s : State) (c : Nat) : List Event :=
  let drains := match s.matrixReady c with
    | some p => (s.drainReady p.1).isSome
    | none => false
  [(.matrixUnitGrant, { a := c }), (.matrixOpComplete, { a := c })] ++ if drains then [] else [(.matrixOpStart, { a := c })]

/-- Rows that may resume, in the order of R284 and R343: holders, promoted rows, then the others, each by the time they left. -/
def State.resumeEvents (s : State) : List Event :=
  let l := (s.rows.filter fun r => r.ctx.isNone && s.partOn r.part && !s.snapHolds r.part).mergeSort fun a b =>
    decide (a.away.getD 0 ≤ b.away.getD 0)
  (l.filter (·.holder) ++
    ((l.filter fun r => !r.holder && r.promo.isSome).mergeSort fun a b => decide (a.promoRank ≤ b.promoRank)) ++ l.filter fun r => !r.holder && r.promo.isNone).map fun r =>
    (.rowResume, { a := r.id })

/-- Rows to stop. -/
def State.stopEvents (s : State) : List Event :=
  (s.rows.filter s.preemptDue).flatMap fun r => [(.preemptStripTimeout, { a := r.id }), (.preemptionRequest, { a := r.id })]

/-- Promotions of R282 and R343. -/
def promoEvents (r : Row) : List Event :=
  [(.promotionEnd, { a := r.id }), (.starvePromotion, { a := r.id }), (.promotedRowPlacement, { a := r.id })]

/-- The launch engine's events (R331 to R341). -/
def State.launchEvents (s : State) : List Event :=
  s.engine.launches.map (fun l => (.completionRecordWrite, { a := l.id })) ++
  s.engine.launches.flatMap (fun l => l.remote.map fun o => ((.remoteOpTimeout, { a := o.id }) : Event)) ++
  (List.range 16).flatMap (fun p => if s.partOn p then
      (s.engine.kept.filter fun q => decide ((s.queueRange p).1 ≤ q.1) && decide (q.1 < (s.queueRange p).2)).map fun q =>
        ((.launchStart, { a := p, b := q.1 - (s.queueRange p).1 }) : Event)
    else []) ++
  (if s.engine.launches.isEmpty then [] else [((.launchEngineSelection, {}) : Event)]) ++
  s.engine.launches.flatMap fun l =>
    [(.teamBlockingTimeout, { a := l.id }), ((.promotedRowPlacement, { a := l.id, flag := true }) : Event)]

/-- Events of a partition that go on by themselves (R355, R366, R375, R377). -/
def State.partEvents (s : State) (p : Nat) : List Event :=
  (if (s.part p).invs.isEmpty then [] else [((.tlbInvalidationComplete, { a := p }) : Event)]) ++
  (if s.partOn p then [] else [((.partitionDisable, { a := p }) : Event)]) ++
  (if (s.part p).snapState = 1 then [((.snapshot, { a := p, flag := Config.freeNat (2 ^ 65 + s.clock.et) % 2 == 1 }) : Event)] else []) ++
  (if s.partOn p then
    ((List.range (bits (s.pdesc p 13) 32 14)).filter (s.silent (s.pdesc p 12))).map fun k =>
      ((.deviceFailureDetected, { a := k, b := s.pdesc p 12 }) : Event)
   else [])

/-- Events that can follow from the state alone, in the order the model takes them. -/
def State.internal (s : State) : List Event :=
  s.rows.flatMap rowEvents ++
  s.handlers.map (fun h => (.fenceReleaseStallEnd, { t := .hnd h.slot })) ++
  ((s.mem.eventQ.map (·.1)).dedup).map (fun k => (.evwaitGrant, { a := k })) ++
  (List.range s.mem.groups.length).map (fun k => (.barexitGroupReady, { a := k })) ++
  (List.range s.mem.landing.length).map (fun k => (.byteLands, { a := k })) ++
  s.mem.writes.map (fun w => (.homeWriteApply, { a := w.id })) ++
  s.ops.flatMap s.opEvents ++
  s.busyClusters.flatMap s.matrixEvents ++
  s.rows.flatMap streamEvents ++
  (List.range 8).map (fun d => (.faultQueueEntryFree, { a := d })) ++
  s.busyClusters.map (fun c => (.handlerSpawn, { a := c })) ++
  s.stopEvents ++ s.resumeEvents ++ s.rows.flatMap promoEvents ++
  (List.range 16).flatMap s.partEvents ++ s.launchEvents ++
  (s.busyClusters.filter s.regroupDue).map fun c => (.regrouping, { a := c })

/-- The issue cycles still to come in this round (R53, R342): of each cluster the scalar pipeline, then the lanes. -/
def State.cycles (s : State) : List (Nat × Event) :=
  (s.busyClusters.flatMap fun c => [(2 * c, ((.scalarIssueCycle, { a := c }) : Event)), (2 * c + 1, (.vectorSequencerCycle, { a := c }))]).filter
    fun p => decide (s.clock.turn ≤ p.1)

/-- The next event of a device that is given none and has no word to run: the first that can happen of those its state brings about, of
this round's issue cycles, or the tick of the escapement; with the round's place after it. -/
def State.nextEvent (s : State) : Event × Nat :=
  match s.internal.find? s.can with
  | some e => (e, s.clock.turn)
  | none =>
    match s.cycles.find? fun p => s.can p.2 with
    | some p => (p.2, p.1 + 1)
    | none => ((.escapementTick, {}), 0)

/-! One step. -/

/-- The state in which the event of the arbiter is run. -/
def State.atTurn (s : State) (n : Nat) : State := { s with clock := { s.clock with turn := n } }

/-- An event that comes with its arguments is taken off the agenda. -/
def State.popAgenda (s : State) : State := { s with clock := { s.clock with agenda := s.clock.agenda.drop 1 } }

/-- The word at the head of the issue list runs: the instruction it decodes to at its place, or the fault of R104. -/
def State.runWord (s : State) (a : Actor) (w : Nat) : Out :=
  match decodeAt (s.placeAt a) w with
  | .error _ => exec .nonInstructionWord (s.withArg { w := BitVec.ofNat 64 w })
  | .ok i => if s.ramoWait a i then .next s.popIssue else exec i s

/-- The next word of a drain runs, or takes its fault (R251, R252, R265). -/
def State.runDrain (s : State) (o : Op) : Out :=
  let start := exec .matrixOpStart (s.popIssue.withArg { a := o.cluster })
  if isNext start then start else exec .engineAsyncFault (s.popIssue.withArg { a := o.id })

/-- The head of the issue list runs; one that cannot issue is passed over. -/
def State.runActor (s : State) (a : Actor) : Out :=
  match s.fetched a with
  | .drain o => s.runDrain o
  | .idle => .next s.popIssue
  | .miss => s.fetchMiss
  | .word w => s.runWord a w

end Sys2Proof.Machine
end

