-- ==== Sys2Proof/Machine/Place.lean ====
section
/-! DEFINITION. Placing one instruction word so that the next step runs it. On the device a program comes to run by way of the host: it
writes an image to memory, and the launch engine places a row (R330 to R339); what stands here is the state such a load leads to, with
the word at the thread's PC (log 16). -/

namespace Sys2Proof.Machine

/-- The first place of R103 at which a word may stand; a control thread's where there is none. -/
def placeFor (w : Nat) : Place :=
  ([Place.control, .matrix, .handler, .block, .thread].find? fun p => (placeFault p w).isNone).getD .control

/-- A launch of one row, for the placed row. -/
def probeLaunch (s : State) : Launch :=
  { id := s.engine.nextId, part := 0, q := 0, seq := 1, image := 0, args := 0, teams := 1, mix := [(0, 1)], done := 0, doneEv := 0
    next := 0, placed := [], die := none, since := 0, unfit := none, blocking := none, killed := 0, forced := false, gwct := 0, late := []
    rejected := false }

/-- A block of one word. -/
def probeHeader : Header := { len := 1, wait := 0, seta := 15, setb := 15, tfp := true }

/-- A row of 32 lanes on cluster 0, context 0, its binding the scratchpad from address 0 and its PC at `pc`. -/
def probeRow (s : State) (pc : Nat) : Row :=
  Row.create s.engine.nextRow (probeLaunch s) 0 0 true
    { rowid := 0, roleIx := 0, role := { ov := 0, off := 0, dcode := 3, nreg := 0, cls := .conc, tslots := 8, sram := 0 }, cluster := 0
      base := 0, w := 32, ctx := 0 }
    (s.placeWord 0 0 32 3 0 0) 0 0 0 (Vector.replicate 32 0) pc (0, Config.spadBytes, 0) (s.overlay 0 (0, Config.spadBytes, 0))

/-- The probe row as its word's place asks for. -/
def probeAt (r : Row) (w : Nat) : Place → Row
  | .control | .handler => r
  | .matrix => { r with mxon := true }
  | .block => { r with blocks :=
      [{ vfpc := 0, header := 0, hd := probeHeader, words := [BitVec.ofNat 32 w], idx := 0, started := true, x := r.th.x, sb := r.sb
         xs := r.th.x, ops := [], flagged := [], sends := [], rcvd := [], late := false, since := 0 }] }
  | .thread => { r with
      vps := [(0, { VP.fresh with st := .thr })]
      bundles := [{ header := 0, hd := probeHeader, words := [BitVec.ofNat 32 w], mem := [{ e := 0, idx := 0, fin := false, ops := [] }]
                    since := 0 }] }

/-- A handler thread on cluster 0 with no record. -/
def probeHandler (s : State) : HThread :=
  { slot := 0, cluster := 0, part := 0, level := 1
    th := { x := Vector.replicate 32 0, pc := 0, gwct := 0, arrival := none, landing := none, wait := none, frozen := none }
    k := List.replicate 4 none, ready := 0, bind := (0, Config.spadBytes, 0)
    code := s.overlay 0 (0, Config.spadBytes, 0), stepping := none }

/-- Write a word, or a block of the one word, at the foot of cluster 0's scratchpad. -/
def State.pokeProgram (s : State) (pl : Place) (w : Nat) : State :=
  match pl with
  | .block | .thread => s.pokeBytes (spadAt 0) (leBytes 4 0xFC0001FF ++ leBytes 4 w)
  | _ => s.pokeBytes (spadAt 0) (leBytes 4 w)

/-- The word in its place, in a state whose next step runs it. -/
def State.placeWordAt (s : State) (nbits w : Nat) : State :=
  let w := w % 2 ^ min nbits 32
  let pl := placeFor w
  let s := s.pokeProgram pl w
  let id := s.engine.nextRow
  let go (s : State) (a : Actor) : State := { s with clock := { s.clock with agenda := [], issue := [a] } }
  match pl with
  | .handler => go { s with handlers := s.handlers.filter (·.slot != 0) ++ [probeHandler s] } (.hnd 0)
  | _ =>
    let r := probeAt (probeRow s 0) w pl
    let (seed, s) := s.fresh
    let sl := { Slice.fresh seed with owner := r.owner, w := 32, nreg := r.nregCode, vl := 16 }
    let sl := if pl = .block then { sl with strip := { StripV.closed with opn := true } } else sl
    let s := { s with
      rows := s.rows.filter (·.cluster != 0) ++ [r]
      slices := FMap.set s.slices (sliceKey 0 0) sl
      engine := { s.engine with nextRow := id + 1, nextId := s.engine.nextId + 1, launches := s.engine.launches ++ [probeLaunch s] } }
    let s := if pl = .matrix then s.modCluster 0 fun c => { c with mx := { c.mx with holder := some id } } else s
    go s (match pl with
      | .block => .lanes id
      | .thread => .bundle id 0
      | _ => .ctl id)

end Sys2Proof.Machine
end

