-- ==== Sys2Proof/Machine/Step.lean ====
section
/-! DEFINITION. One step of the device, and the placing of one instruction for it. -/

namespace Sys2Proof.Machine

/-- One step: an event that was given, else the word at the head of the issue list, else the device's own next event. -/
def step (s : State) : Host.Outcome State Fault Refusal :=
  match s.clock.agenda with
  | e :: _ => exec e.1 (s.popAgenda.withArg e.2)
  | [] =>
    match s.clock.issue with
    | a :: _ => s.runActor a
    | [] => exec s.nextEvent.1.1 ((s.atTurn s.nextEvent.2).withArg s.nextEvent.1.2)

/-- `s` with one instruction placed so that the next step fetches and runs it. -/
def State.withFetchWord (s : State) (nbits w : Nat) : State := s.placeWordAt nbits w

end Sys2Proof.Machine
end

