-- ==== Sys2Proof/Safety.lean ====
section
/-! DEFINITION. What a state the device can be in satisfies, and the conditions under which a word of the issue list runs: the terms in
which claims are stated. -/

namespace Sys2Proof.Machine

/-- Memory is in its canonical form. -/
def State.MemOk (s : State) : Prop := Memory.wf s.mem.cells = true

/-- Control or handler thread `t`, with record `th`, issues the next word and nothing holds it: no vector-fetched block it must wait
for (`ahead`: the word may run ahead of blocks, R31, R37), and for a word on vector state (`vec`) slices that hold the row's own contents
(R327). -/
structure State.Issues (s : State) (ahead vec : Bool) (t : Tid) (th : Thread) : Prop where
  actor : s.ctlActor = some t
  thread : s.thread? t = some th
  free : s.mustWait t ahead vec = false
  own : (vec && s.vownBad t) = false

/-- The control thread of row `r` issues the next word and nothing holds it. -/
structure State.RowIssues (s : State) (ahead vec : Bool) (r : Row) : Prop where
  actor : s.ctlActor = some (.ctl r.id)
  row : s.row? r.id = some r
  free : s.mustWait (.ctl r.id) ahead vec = false
  own : (vec && s.vownBad (.ctl r.id)) = false

/-- The handler thread `h` issues the next word. -/
structure State.HandlerIssues (s : State) (h : HThread) : Prop where
  actor : s.ctlActor = some (.hnd h.slot)
  handler : s.hnd? h.slot = some h

/-- Block `k`, the oldest of row `r`, issues its next word, with the row's own contents in the slices (R327). -/
structure State.LanesIssue (s : State) (r : Row) (k : LaneRun) : Prop where
  actor : s.clock.issue.head? = some (.lanes r.id)
  row : s.row? r.id = some r
  block : r.blocks.head? = some k
  own : r.vvalid = true

/-- Bundle `b`, number `n` of row `r`, issues its next word, and member `m` is the one member due. -/
structure State.VpIssues (s : State) (r : Row) (n : Nat) (b : Bundle) (m : BMem) : Prop where
  actor : s.clock.issue.head? = some (.bundle r.id n)
  row : s.row? r.id = some r
  bundle : r.bundles[n]? = some b
  due : State.dueMembers r b = [m]

/-- What a word that only computes may change: the record of its own thread, and the model's own clock. Everything else is as it was. -/
structure State.OnlyThread (s u : State) (t : Tid) : Prop where
  mem : u.mem = s.mem
  slices : u.slices = s.slices
  clusters : u.clusters = s.clusters
  ops : u.ops = s.ops
  cave : u.cave = s.cave
  engine : u.engine = s.engine
  parts : u.parts = s.parts
  mgmt : u.mgmt = s.mgmt
  time : u.clock.et = s.clock.et ∧ u.clock.cycle = s.clock.cycle
  others : ∀ q, q ≠ t → u.thread? q = s.thread? q
  rows : ∀ q x, s.row? q = some x → ∃ th, u.row? q = some { x with th := th }
  handlers : ∀ q x, s.hnd? q = some x → ∃ th, u.hnd? q = some { x with th := th }

end Sys2Proof.Machine
end

