-- ==== Sys2Proof/Certificates/Slice0/Obligations.lean ====
section
/-! DEFINITION. The statements about the model that the provers settle, with the tables they are stated by: what the rules of the spec
give as results, written from those rules. -/

namespace Sys2Proof.Claims

open Sys2Proof.Machine

/-! Scalar words (R115 to R120). -/

/-- The register a register-register word writes and its value (R115, R116): division by BitVec's own operations. -/
def regReg (th : Thread) : Instr → Option (Reg × Word)
  | .add d a b => some (d, th.getX a + th.getX b)
  | .sub d a b => some (d, th.getX a - th.getX b)
  | .and d a b => some (d, th.getX a &&& th.getX b)
  | .or d a b => some (d, th.getX a ||| th.getX b)
  | .xor d a b => some (d, th.getX a ^^^ th.getX b)
  | .sll d a b => some (d, th.getX a <<< ((th.getX b).extractLsb' 0 6).toNat)
  | .srl d a b => some (d, th.getX a >>> ((th.getX b).extractLsb' 0 6).toNat)
  | .sra d a b => some (d, (th.getX a).sshiftRight ((th.getX b).extractLsb' 0 6).toNat)
  | .mul d a b => some (d, th.getX a * th.getX b)
  | .mulhS d a b => some (d, ((th.getX a).signExtend 128 * (th.getX b).signExtend 128).extractLsb' 64 64)
  | .mulhN d a b => some (d, ((th.getX a).zeroExtend 128 * (th.getX b).zeroExtend 128).extractLsb' 64 64)
  | .divS d a b => some (d, if th.getX b = 0 then -1 else (th.getX a).sdiv (th.getX b))
  | .remS d a b => some (d, (th.getX a).srem (th.getX b))
  | .divN d a b => some (d, if th.getX b = 0 then -1 else th.getX a / th.getX b)
  | .remN d a b => some (d, th.getX a % th.getX b)
  | .sltS d a b => some (d, if (th.getX a).slt (th.getX b) then 1 else 0)
  | .sltN d a b => some (d, if (th.getX a).ult (th.getX b) then 1 else 0)
  | .minS d a b => some (d, if (th.getX a).slt (th.getX b) then th.getX a else th.getX b)
  | .maxS d a b => some (d, if (th.getX a).slt (th.getX b) then th.getX b else th.getX a)
  | .minN d a b => some (d, if (th.getX a).ult (th.getX b) then th.getX a else th.getX b)
  | .maxN d a b => some (d, if (th.getX a).ult (th.getX b) then th.getX b else th.getX a)
  | _ => none

/-- The unary members of the group (R115): counts over the bits from the top, from the bottom, and of all; the bytes reversed. -/
def regUnary (th : Thread) : Instr → Option (Reg × Word)
  | .clz d a => some (d, BitVec.ofNat 64 (((List.range 64).takeWhile fun i => !(th.getX a).getMsbD i).length))
  | .ctz d a => some (d, BitVec.ofNat 64 (((List.range 64).takeWhile fun i => !(th.getX a).getLsbD i).length))
  | .pop d a => some (d, BitVec.ofNat 64 (((List.range 64).filter fun i => (th.getX a).getLsbD i).length))
  | .bswap d a =>
    let x := th.getX a
    some (d, x.extractLsb' 0 8 ++ x.extractLsb' 8 8 ++ x.extractLsb' 16 8 ++ x.extractLsb' 24 8 ++ x.extractLsb' 32 8 ++
      x.extractLsb' 40 8 ++ x.extractLsb' 48 8 ++ x.extractLsb' 56 8)
  | _ => none

/-- The immediate group (R117, R118). -/
def regImm (th : Thread) : Instr → Option (Reg × Word)
  | .addi d a i => some (d, th.getX a + i.signExtend 64)
  | .andi d a i => some (d, th.getX a &&& i.zeroExtend 64)
  | .ori d a i => some (d, th.getX a ||| i.zeroExtend 64)
  | .xori d a i => some (d, th.getX a ^^^ i.zeroExtend 64)
  | .sltiS d a i => some (d, if (th.getX a).slt (i.signExtend 64) then 1 else 0)
  | .slli d a n => some (d, th.getX a <<< n.toNat)
  | .srli d a n => some (d, th.getX a >>> n.toNat)
  | .srai d a n => some (d, (th.getX a).sshiftRight n.toNat)
  | .lui d i => some (d, i.signExtend 64 <<< 16)
  | .addpc d i => some (d, th.pc + 4 * i.signExtend 64)
  | _ => none

/-- A word writes `v` to x[d], a write to x0 being discarded, and goes on at PC + 4; with no step of a record under way nothing else of
the device changes. -/
def WritesReg (i : Instr) (s : State) (t : Tid) (th : Thread) (d : Reg) (v : Word) : Prop :=
  exec i s = .next ((s.popIssue.modThread t fun q => q.setX d v).finish t) ∧
  (s.steppingOf t = none →
    ∃ u, exec i s = .next u ∧ u.thread? t = some { th.setX d v with pc := pcExt (th.pc + 4) } ∧ s.OnlyThread u t)

/-- A place where the scalar words stand (R103). -/
def scalarPlace (pl : Place) : Prop := pl = .control ∨ pl = .matrix ∨ pl = .handler

/-- A branch's test and displacement (R119). -/
def branchTest (th : Thread) : Instr → Option (Bool × BitVec 13)
  | .beq a b i => some (decide (th.getX a = th.getX b), i)
  | .bne a b i => some (decide (th.getX a ≠ th.getX b), i)
  | .bltS a b i => some ((th.getX a).slt (th.getX b), i)
  | .bgeS a b i => some (!(th.getX a).slt (th.getX b), i)
  | .bltN a b i => some ((th.getX a).ult (th.getX b), i)
  | .bgeN a b i => some (!(th.getX a).ult (th.getX b), i)
  | _ => none

/-- A word passes control to `pc`, with x[d] written first; with no step of a record under way nothing else of the device changes. -/
def Jumps (i : Instr) (s : State) (t : Tid) (th : Thread) (w : Thread → Thread) (pc : Word) : Prop :=
  exec i s = .next ((s.popIssue.modThread t w).goTo t pc) ∧
  (s.steppingOf t = none → ∃ u, exec i s = .next u ∧ u.thread? t = some { w th with pc := pcExt pc } ∧ s.OnlyThread u t)

/-! Control and status registers (R23, R60 to R65, R121). -/

/-- Codes of 4 bits each of the tags of 16 registers from `b`, as VTAGLO and VTAGHI hold them (R63). -/
def tagField (sl : Slice) (b : Nat) : Nat := ((List.range 16).map fun i => (sl.reg (b + i)).tag.code * 2 ^ (4 * i)).sum

/-- The value a row's thread reads from a CSR (R23, R60, R63, R65). -/
def csrValue (s : State) (r : Row) : Nat → Option Nat
  | 0x800 => some (s.slice r).vl
  | 0x801 => some (tagField (s.slice r) 0)
  | 0x802 => some (tagField (s.slice r) 16)
  | 0x808 => some (((List.range 7).map fun i => if ((s.slice r).mask (i + 1)).list then 2 ^ (i + 1) else 0).sum)
  | 0x80A => some (if r.vvalid then (if (s.slice r).strip.opn then 16 else 0) + (if (s.slice r).strip.nr then 8 else 0) +
      (s.slice r).strip.cause % 8 else 0)
  | 0x803 => some ((s.slice r).ew * 4 + (s.slice r).grp)
  | 0x804 => some (512 * r.w)
  | 0x805 => some (512 * r.w * 2 ^ (s.slice r).grp / (8 * 2 ^ (s.slice r).ew))
  | 0x806 => some (s.slice r).vestart
  | 0x807 => some (s.slice r).vdirty.toNat
  | 0x809 => some ((if r.vvalid then 2 ^ 32 else 0) + r.owner)
  | 0x80B => some (s.part r.part).grant
  | 0x810 => some r.vxrm
  | 0x811 => some (if r.vsat then 1 else 0)
  | 0x812 => some r.frm
  | 0x813 => some r.fflags
  | 0x820 => some ((if r.zp then 4 else 0) + (if r.band then 2 else 0) + (if r.mxon then 1 else 0))
  | 0x821 => some r.mxrow
  | 0x822 => some r.mxk
  | 0x830 => some r.cls.code
  | 0x831 => some (2 ^ 8 * r.nregCode + r.roleIx)
  | 0x832 => some r.team
  | 0x833 => some r.rowid
  | 0x834 => some r.starve
  | 0x840 => some s.clock.et
  | 0x841 => some r.th.gwct
  | 0xF00 => some 0x24000100
  | 0xF01 => some r.place.toNat
  | 0xF02 => some (s.cluster r.cluster).lmap.toNat
  | _ => none

/-- The state a write of value `v` leaves (R3, R61, R63, R65), `ones` the bits a W1C field takes as ones: the RW and W1C fields, and the
registers whose fields are all RO. -/
def csrWritten (s : State) (r : Row) (n v ones : Nat) : Option State :=
  match n with
  | 0x806 => some (s.modSlice r fun sl => { sl with vestart := v % 2 ^ 15 })
  | 0x807 => some (s.modSlice r fun sl => { sl with vdirty := sl.vdirty &&& ~~~(BitVec.ofNat 32 ones) })
  | 0x810 => some (s.modRow r.id fun q => { q with vxrm := v % 4 })
  | 0x811 => some (s.modRow r.id fun q => { q with vsat := decide (v % 2 = 1) })
  | 0x812 => if v % 8 ≤ 4 then some (s.modRow r.id fun q => { q with frm := v % 8 }) else none
  | 0x813 => some (s.modRow r.id fun q => { q with fflags := v % 32 })
  | 0x821 => some (s.modRow r.id fun q => { q with mxrow := v % 64 })
  | 0x800 | 0x804 | 0x805 | 0x808 | 0x80A | 0x80B | 0x820 | 0x822 | 0x830 | 0x831 | 0x832 | 0x833 | 0x834 | 0x840 | 0x841
  | 0xF00 | 0xF01 | 0xF02 => some s
  | _ => none

/-- No matrix operation of the row is outstanding: each that is still held has stopped, and its record is filed (R216, R250, R308). -/
def matrixQuiet (s : State) (r : Row) : Prop :=
  ∀ o ∈ s.ops, o.row = r.id → o.kind.isMatrix = true → o.stopped = true ∧ ∀ q ∈ s.cave.heldOps, q.op ≠ some o.id

/-- A row's thread may act on CSR `n` now: the number is named, a vector CSR needs the row's own contents in the slices (R327), and
FFLAGS, MXROW and MXK wait for the row's matrix operations (R250), and VDIRTY, VSAT and FFLAGS for the loads, stores and atomics of its
vector-fetched blocks (R62). -/
def csrFree (s : State) (r : Row) (n : Nat) : Prop :=
  csrKnown n = true ∧ (csrVec n = true → r.vvalid = true) ∧
  (n = 0x813 ∨ n = 0x821 ∨ n = 0x822 → matrixQuiet s r) ∧
  (n = 0x807 ∨ n = 0x811 ∨ n = 0x813 → s.blockOpsOut r.id = false)

/-- Register `b + i` has another tag than the one code `i` of a VTAG value names. -/
def tagChanged (sl : Slice) (b v i : Nat) : Prop := (sl.reg (b + i)).tag.code ≠ v / 2 ^ (4 * i) % 16

/-- What a write of value `v` to VTAGLO (`b` 0) or VTAGHI (`b` 16) leaves of the slices (R72, R134): a register whose tag it changes has the tag
of its code, HWM 0 and its bit of VDIRTY set, its bytes as they were; everything else is as before. -/
def TagsWritten (sl u : Slice) (b v : Nat) : Prop :=
  (∀ i < 16, tagChanged sl b v i → (u.reg (b + i)).tag.code = v / 2 ^ (4 * i) % 16 ∧ (u.reg (b + i)).hwm = 0 ∧
    (u.reg (b + i)).bytes = (sl.reg (b + i)).bytes ∧ (u.reg (b + i)).fill = (sl.reg (b + i)).fill) ∧
  (∀ n < 32, (∀ i < 16, n = b + i → ¬ tagChanged sl b v i) → u.reg n = sl.reg n) ∧
  (∀ n < 32, u.vdirty.getLsbD n = true ↔ sl.vdirty.getLsbD n = true ∨ ∃ i < 16, n = b + i ∧ tagChanged sl b v i) ∧
  u = { sl with v := u.v, vdirty := u.vdirty }

/-- The csr words that write: the CSR, the value from the old one, the bits taken as written ones (R121). -/
def csrWrite (th : Thread) : Instr → Option (Nat × (Nat → Nat) × Nat)
  | .csrw c a => some (c.toNat, fun _ => (th.getX a).toNat, (th.getX a).toNat)
  | .csrs c a => some (c.toNat, fun o => o ||| (th.getX a).toNat, (th.getX a).toNat)
  | .csrc c a => some (c.toNat, fun o => o &&& (~~~(th.getX a)).toNat, 0)
  | _ => none

/-! Scalar memory words (R125 to R130). -/

/-- The `n` bytes at `va` can be accessed at their homes for thread `t`: they translate to the places `ls`, and none of these is poisoned once the
writes that precede the access are applied, which leaves `u` (R228, R238, R346 to R358). -/
def Reads (s : State) (t : Tid) (va n : Nat) (wr obj : Bool) (ls : List Loc) (u : State) : Prop :=
  ∃ v, xlateN s (s.acc t) va n wr obj = .ok (ls, v) ∧ u = v.force t (ls.map (·.key)) ∧ u.poisoned ls = none

/-- The state after an access at the homes has read its bytes: they have reached the thread's cluster (R228). -/
def fetchedBy (s u : State) (t : Tid) (ls : List Loc) : State := u.refresh (s.clusterOf t) ls

/-- The number an access at the homes reads. -/
def valueAt (s u : State) (t : Tid) (ls : List Loc) : Nat := leNat (u.homeBytes (s.partOf t) ls)

/-- The state in which a thread that issues a word waits: a VP gives up its bundle place (R281). -/
def blocked (u : State) (t : Tid) (w : Wait) : State :=
  match t with
  | .vp r e => (u.setWait t (some w)).modRow r fun q => q.giveUp e
  | _ => u.setWait t (some w)

/-- A load: bytes, the value xd receives from them, xd, the base and the displacement (R125). -/
def loadForm : Instr → Option (Nat × (Nat → Word) × Reg × Reg × BitVec 13)
  | .ldBs d a i => some (1, fun v => (BitVec.ofNat 8 v).signExtend 64, d, a, i)
  | .ldBn d a i => some (1, fun v => (BitVec.ofNat 8 v).zeroExtend 64, d, a, i)
  | .ldHs d a i => some (2, fun v => (BitVec.ofNat 16 v).signExtend 64, d, a, i)
  | .ldHn d a i => some (2, fun v => (BitVec.ofNat 16 v).zeroExtend 64, d, a, i)
  | .ldWs d a i => some (4, fun v => (BitVec.ofNat 32 v).signExtend 64, d, a, i)
  | .ldWn d a i => some (4, fun v => (BitVec.ofNat 32 v).zeroExtend 64, d, a, i)
  | .ldD d a i => some (8, fun v => BitVec.ofNat 64 v, d, a, i)
  | _ => none

/-- A store: bytes, the register stored, the base and the displacement (R126). -/
def storeForm : Instr → Option (Nat × Reg × Reg × BitVec 13)
  | .stB d a i => some (1, d, a, i)
  | .stH d a i => some (2, d, a, i)
  | .stW d a i => some (4, d, a, i)
  | .stD d a i => some (8, d, a, i)
  | _ => none

/-- The address of a scalar access (R125). -/
def accessAddr (th : Thread) (a : Reg) (i : BitVec 13) : Nat := (th.getX a + i.signExtend 64).toNat

/-- Places of `n` bytes from a first one. -/
def run (l : Loc) (n : Nat) : List Loc := (List.range n).map fun i => { l with key := l.key + i }

/-- The index a walk has at a level (R348). -/
def walkIndex (va : Nat) : Nat → Nat
  | 4 => va / 2 ^ 39 % 2 ^ 17
  | 3 => va / 2 ^ 26 % 2 ^ 13
  | 2 => va / 2 ^ 21 % 32
  | _ => va / 2 ^ 16 % 32

/-- The size of a leaf's page (R348). -/
def pageOf (lv : Nat) : Nat := if lv = 3 then 2 ^ 26 else if lv = 2 then 2 ^ 21 else 2 ^ 16

/-- A leaf of level `lv` that no access may use (R349, R350, R352). -/
def badLeaf (lv e : Nat) : Prop :=
  e / 2 ^ 52 ≠ 0 ∨ lv = 4 ∨ e / 2 ^ 8 % 2 ^ 8 ≠ 0 ∨
  (if e / 4 % 4 = 1 then lv ≠ 1 ∨ e / 2 ^ 44 % 2 ≠ 0 ∨ e / 2 ^ 30 % 16 ≠ 0 ∨ e / 2 ^ 16 % 2 ^ 10 ≠ 0
   else e / 2 ^ 16 % 2 ^ 36 * 2 ^ 16 % pageOf lv ≠ 0)

/-- A pointer of level `lv` that a walk does not follow (R349, R350). -/
def badPointer (lv e : Nat) : Prop :=
  e / 2 ^ 52 ≠ 0 ∨ e / 4 % 2 ^ 6 ≠ 0 ∨ lv = 1 ∨ lv = 4 ∧ e / 2 ^ 8 % 2 ^ 44 * 256 % 2 ^ 16 ≠ 0

/-- The leaf by which an access translates, the size of its page and the place of its entry: what the cluster's TLB holds, then what the die's
holds, and else what a walk from the partition's root finds, with A (R348, R349, R351, R353). -/
def leafFor (s : State) (a : Acc) (va : Nat) : Except Code (Nat × Nat × Nat) :=
  match (tlbFind (FMap.getD s.mem.tlbC a.cluster []) a.part va).or (tlbFind (FMap.getD s.mem.tlbD (dieOf a.cluster) []) a.part va) with
  | some e => .ok (e.leaf.toNat, e.size, e.entry)
  | none => (walk s va 4 (s.pdesc a.part 0)).map fun q => (q.1 ||| 0x40, pageOf q.2.1, q.2.2)

/-- Where `n` bytes of partition `p` at `va` lie under a leaf (R346, R350, R352, R360, R361, R364); none where the access may not be made. -/
def placeUnder (s : State) (p va n : Nat) (wr obj : Bool) (leaf size : Nat) : Option Loc :=
  let enc := leaf / 2 ^ 5 % 2 = 1
  let readable := enc → (s.part p).keyReleased = true
  let pa := leaf / 2 ^ 16 % 2 ^ 36 * 2 ^ 16 + va % size
  let c := leaf / 2 ^ 45 % 128
  let k := 4096 * (leaf / 2 ^ 34 % 2 ^ 10) + va % 2 ^ 16
  if wr = true ∧ leaf / 2 ^ 4 % 2 = 0 then none
  else if leaf / 4 % 4 = 1 then
    if readable ∧ s.clusterIn p c = true ∧ va % 2 ^ 16 + n ≤ 4096 * (leaf / 2 ^ 26 % 16 + 1) ∧ k + n ≤ 2 ^ 22 then
      some { key := 2 ^ 52 + c * 2 ^ 22 + k, enc := 0, home := 1 }
    else none
  else if s.pdesc p 1 ≤ pa ∧ pa + n ≤ s.pdesc p 2 ∧ pa + n ≤ 2 ^ 39 then
    if readable then some { key := pa, enc := if enc then p + 1 else 0, home := leaf / 4 % 4 } else none
  else if s.pdesc p 3 ≤ pa ∧ pa + n ≤ s.pdesc p 4 ∧ 2 ^ 51 ≤ pa ∧ pa + n ≤ 2 ^ 52 ∧ obj = false then some { key := pa, enc := 0, home := 3 }
  else none

/-- An atomic: operation, xd, the address register, the operand register, scope, order, word or dword (R127). -/
def amoForm : Instr → Option (AmoOp × Reg × Reg × Reg × Scope × Order × Bool)
  | .amoAdd d a b sc od w => some (.add, d, a, b, sc, od, w)
  | .amoAnd d a b sc od w => some (.and, d, a, b, sc, od, w)
  | .amoOr d a b sc od w => some (.or, d, a, b, sc, od, w)
  | .amoXor d a b sc od w => some (.xor, d, a, b, sc, od, w)
  | .amoMinS d a b sc od w => some (.minS, d, a, b, sc, od, w)
  | .amoMinN d a b sc od w => some (.minN, d, a, b, sc, od, w)
  | .amoMaxS d a b sc od w => some (.maxS, d, a, b, sc, od, w)
  | .amoMaxN d a b sc od w => some (.maxN, d, a, b, sc, od, w)
  | .amoSwap d a b sc od w => some (.swap, d, a, b, sc, od, w)
  | .amoCas d a b sc od w => some (.cas, d, a, b, sc, od, w)
  | .amoFadd d a b sc od => some (.fadd, d, a, b, sc, od, true)
  | _ => none

/-- The new value of an integer atomic on words or dwords (R127). -/
def amoValue (n : Nat) (op : AmoOp) (old v exp : BitVec n) : Option (BitVec n) :=
  match op with
  | .add => some (old + v)
  | .and => some (old &&& v)
  | .or => some (old ||| v)
  | .xor => some (old ^^^ v)
  | .minS => some (if old.sle v then old else v)
  | .minN => some (if old.ule v then old else v)
  | .maxS => some (if old.sle v then v else old)
  | .maxN => some (if old.ule v then v else old)
  | .swap => some v
  | .cas => some (if old = exp then v else old)
  | .fadd => none

/-- The exception of an access fault at a word. -/
def accessFault (th : Thread) (f : AFault) : FInfo := { code := f.code, pc := th.pc, addr1 := f.addr1, addr2 := f.addr2 }

/-- An order with a release half (R128). -/
def releases (od : Order) : Bool := od == .rel || od == .ar

/-- An order with an acquire half (R128). -/
def acquires (od : Order) : Bool := od == .acq || od == .ar

/-- A word that stored marks the open strip of its row with cause SCALAR (R36). -/
def stored (u : State) (t : Tid) : State :=
  match t with
  | .ctl r => u.stripNr r 3
  | _ => u

/-- The fences by scope: whether it has a release half, and the scope (R129). -/
def fenceForm : Instr → Option (Bool × Scope)
  | .fenceAcq sc => some (false, sc)
  | .fenceRel sc => some (true, sc)
  | .fenceAr sc => some (true, sc)
  | _ => none

/-! Strips and vector control (R35 to R38, R44, R46, R122 to R124, R131 to R147). -/

/-- The state with the row's strip closed, if one is open (R35, R131). -/
def stripClosed (s : State) (r : Row) : State := if (s.slice r).strip.opn then s.closeStrip r.id else s

/-- Nothing holds back a close of the row's strip: no operation of it is outstanding or may still fault (R131), and no pre-emption waits
for this boundary (R326). -/
def canClose (s : State) (r : Row) : Prop := s.stripBusy r = false ∧ ((s.slice r).strip.opn = true → r.preempt = none)

/-- The word stays at its address and executes again. -/
def Retries (i : Instr) (s : State) : Prop := exec i s = .next s.popIssue

/-- The word raises `c` with the given addresses: the exception is taken at the word's own PC. -/
def Raises (i : Instr) (s : State) (t : Tid) (pc : Word) (c : Code) (a1 : Nat := 0) : Prop :=
  exec i s = .next (s.popIssue.raise t { code := c, pc := pc, addr1 := a1 })

/-- The word completes in `u`, with x[d] written, and the thread goes on. -/
def Completes (i : Instr) (s : State) (t : Tid) (d : Reg) (v : Word) (u : State) : Prop :=
  exec i s = .next ((u.modThread t fun q => q.setX d v).finish t)

/-- The slice with another element width and group: mask bits at or above the new VLMAX are lost (R73, R133). -/
def regrouped (w ew g : Nat) (sl : Slice) : Slice :=
  { sl with ew := ew, grp := g, m := sl.m.map fun k => { k with set := k.set.filter (· < 512 * w * 2 ^ g / (8 * 2 ^ ew)) } }

/-- What `qdrain` hands over (R143): an integer sign-extended to 64 bits, any other value zero-extended. -/
def drainValue (q : QEnt) : Word :=
  match q.tag.width with
  | 8 => if q.tag.isInt then (q.v.extractLsb' 0 8).signExtend 64 else (q.v.extractLsb' 0 8).zeroExtend 64
  | 16 => if q.tag.isInt then (q.v.extractLsb' 0 16).signExtend 64 else (q.v.extractLsb' 0 16).zeroExtend 64
  | 32 => if q.tag.isInt then (q.v.extractLsb' 0 32).signExtend 64 else (q.v.extractLsb' 0 32).zeroExtend 64
  | _ => q.v

/-- The timeout of a `vjoin` in cycles (R138). -/
def joinForm (th : Thread) : Instr → Option (Reg × BitVec 8 × Nat)
  | .vjoin d j t => some (d, j, t.toNat)
  | .vjoinReg d j t => some (d, j, min (th.getX t).toNat (2 ^ 32 - 1))
  | _ => none

/-! Synchronisation (R272 to R303). -/

/-- A word of the synchronisation opcode issues and nothing holds it: for the control thread of a row, for the one due VP of a bundle, whose
operands are elements of i64 registers it may name (R101), and where `hnd` for a handler (R276, R310). `cls`, `tok` and `get` are the
thread's class (R274), its token (R278) and its registers. -/
def SyncIssues (s : State) (hnd : Bool) (t : Tid) (cls : Cls) (tok : Nat) (get : Reg → Word) (regs : List Reg) : Prop :=
  (∃ r, t = .ctl r.id ∧ s.RowIssues false false r ∧ cls = r.cls ∧ tok = (r.token none).toNat ∧ get = r.th.getX) ∨
  (∃ r n b m, t = .vp r.id m.e ∧ s.VpIssues r n b m ∧ cls = r.cls ∧ tok = (r.token (some m.e)).toNat ∧
    vpRegFault s r regs = none ∧ get = fun v : Reg => BitVec.ofNat 64 ((s.slice r).elem r.w v 64 m.e)) ∨
  (∃ h, hnd = true ∧ t = .hnd h.slot ∧ s.HandlerIssues h ∧ cls = .conc ∧ tok = (s.token (.hnd h.slot)).toNat ∧ get = h.th.getX)

/-- The barrier record at `ls` after one more arrival at `x` (R289, R293): the last one, with nothing pending, counts GEN up, takes ARRIVED
to 0 and releases the waiters of the old generation. -/
def arrivalStored (x : BarRec) (t : Tid) (l : Loc) (ls : List Loc) (u : State) : State :=
  if x.arrived + 1 = x.count ∧ x.pending = 0 then
    (u.homeStore t (l :: ls) { x with gen := (x.gen + 1) % 2 ^ 32, arrived := 0 }.bytes).1.releaseBar l.key x.gen
  else (u.homeStore t (l :: ls) { x with arrived := x.arrived + 1 }.bytes).1

/-- The 32 bytes of a record that `bar.init` has made (R286, R288). -/
def freshBar (cls : Cls) (n tok : Nat) : List Byte :=
  leBytes 8 (cls.code * 2 ^ 61 + 2 ^ 60 + n) ++ leBytes 8 0 ++ leBytes 8 (tok / 2 ^ 22 * 2 ^ 22) ++ leBytes 8 0

/-! Streams, copies, watermarks and remote operations (R107, R140, R207 to R225). -/

/-- The state after a word of row `r` has issued an operation (R140): it stands last in the list of outstanding operations, with the
next number of its class, whose count goes up. -/
def issues (s : State) (r : Row) (kind : OpKind) (cls : Option Nat) (landing : Option Word) : State :=
  let o : Op :=
    { id := s.clock.nextId, row := r.id, part := r.part, cluster := r.cluster, kind := kind, cls := cls
      seq := match cls with | some c => r.seqs.getD c 0 | none => 0
      pc := r.th.pc, flags := [], vp := none, f := 0, started := false, landing := landing, since := s.clock.et, stopped := false }
  let u := { s with clock := { s.clock with nextId := s.clock.nextId + 1 } }
  let u := match cls with
    | some c => u.modRow r.id fun q => { q with cnt := incAt q.cnt c, seqs := incAt q.seqs c }
    | none => u
  { u with ops := u.ops ++ [o] }

/-- The row's stream register bound anew, at its first entry (R208). -/
def bound (u : State) (r : Row) (n : Fin 8) (o : Option Stream) : State :=
  u.modRow r.id fun q => { q with streams := q.streams.set n o }

/-- A stream at its first entry: its tag is the load result of its format (R194, R208). -/
def firstEntry (sh : Shape) (idx : Option (List Nat)) (total : Nat) : Stream :=
  { shape := sh, idx := idx, total := total, tag := sh.fmt.resultTag .none, got := [], fetched := 0, pos := 0, want := 0 }

/-- The register holds a shape record (R107): it may be named, its tag is i64, and its sixteen dwords are the record `sh`. -/
def HoldsShape (s : State) (r : Row) (v : Reg) (remote : Bool) (sh : Shape) : Prop :=
  operandOk (s.slice r) (nregOf r.nregCode) v ((s.slice r).reg v).tag.width = true ∧ ((s.slice r).reg v).tag = .i64 ∧
  parseShape ((List.range 16).map fun e => (s.slice r).elem r.w v 64 e) remote = some sh

/-- The register holds the indices `ix` (R209, R214): its elements 0 to VL − 1, zero-extended from an integer tag. -/
def HoldsIdx (s : State) (r : Row) (v : Reg) (ix : List Nat) : Prop :=
  operandOk (s.slice r) (nregOf r.nregCode) v ((s.slice r).reg v).tag.width = true ∧ ((s.slice r).reg v).tag.isInt = true ∧
  ix = (List.range (s.slice r).vl).map fun e => (s.slice r).elem r.w v ((s.slice r).reg v).tag.width e

/-! The matrix unit and blocks (R27 to R31, R103 to R105, R137, R246 to R273). -/

/-- The matrix words (R100, R251): whether the word counts in the matrix class (R140), the operation it issues, and what must hold of the
row at issue (R252). -/
def matrixForm (s : State) (r : Row) : Instr → Option (Bool × OpKind × Prop)
  | .mzero => some (false, .mzero, True)
  | .mlat side half xa xs f => some (true, .mlat side half (r.th.getX xa) (r.th.getX xs) f false, True)
  | .mlatg half xa vi f => some (true, .mlatg half (r.th.getX xa) vi f false,
      operandOk (s.slice r) (nregOf r.nregCode) vi ((s.slice r).reg vi).tag.width = true ∧ ((s.slice r).reg vi).tag.isInt = true)
  | .mlatv side half vs => some (false, .mlatv side half vs, ∃ t, matVec r (s.slice r) vs (fun t => t == .bf16 || t == .i8) = .ok t)
  | .mlut vc => some (false, .mlut vc, ∃ t, matVec r (s.slice r) vc (· == .bf16) = .ok t)
  | .mop ha hb k => some (true, .mop false ha hb (k.toNat + 1), True)
  | .mopz ha hb k => some (true, .mop true ha hb (k.toNat + 1), r.zp = true)
  | .mband side vs => some (false, .mband side vs, r.band = true ∧ ∃ t, matVec r (s.slice r) vs (· == .bf16) = .ok t)
  | .mfold => some (false, .mfold, r.band = true)
  | .mrow n => some (false, .mrow n.toNat, True)
  | _ => none

/-! Lane words (R25, R40, R49, R66 to R86, R148 to R185). -/

/-- A lane word over the oldest block of row `r`, whose view of the row is `v`, leaves the view `w`: VESTART is 0 and the block goes to
its next word (R25, R31, R49). -/
def LeavesLock (i : Instr) (s : State) (r : Row) (v w : LV) : Prop :=
  ∀ k, s.LanesIssue r k → v = s.lockLV r k →
    exec i s = .next ((s.popIssue.putLV { w with sl := { w.sl with vestart := 0 } }).advanceRun r.id
      { k with sends := w.sends, rcvd := w.rcvd })

/-- A lane word leaves the view `w` in lockstep, and for a VP of a bundle whose view is `v` (R40, R42). -/
def Leaves (i : Instr) (s : State) (r : Row) (v w : LV) : Prop :=
  LeavesLock i s r v w ∧
  ∀ n b m, s.VpIssues r n b m → v = s.thrLV r m.e → exec i s = .next ((s.popIssue.putLV w).advanceVp r.id m.e)

/-- Some element is active, and the vector operand and the source give their values at the active elements (R58, R148). -/
def ReadsTwo (v : LV) (va : Reg) (src : Src) (m : MaskReg) (a b : Opd) (u : LV) : Prop :=
  v.active m ≠ [] ∧ ∃ t, (v.noteMask m).vec va (v.active m) = .ok (a, t) ∧ t.src src (v.active m) = .ok (b, u)

/-- Some element is active, and the source gives its values at the active elements. -/
def ReadsOne (v : LV) (src : Src) (m : MaskReg) (b : Opd) (u : LV) : Prop :=
  v.active m ≠ [] ∧ (v.noteMask m).src src (v.active m) = .ok (b, u)

/-- Element by element, a function of bit patterns of `n` bits. -/
def each2 (n : Nat) (f : BitVec n → BitVec n → BitVec n) (xs ys : List Nat) : List Nat :=
  List.zipWith (fun x y => (f (BitVec.ofNat n x) (BitVec.ofNat n y)).toNat) xs ys

/-- One bits of a pattern. -/
def ones {n : Nat} (x : BitVec n) : Nat := ((List.range n).filter fun i => x.getLsbD i).length

/-- The two-operand integer words (R154, R175): whether narrower operands are sign-extended, and the result of `n`-bit patterns. -/
def laneInt2 : Instr → Option (Bool × (∀ n, BitVec n → BitVec n → BitVec n) × Reg × Reg × Src × MaskReg)
  | .vadd d a b m => some (true, fun _ x y => x + y, d, a, b, m)
  | .vsub d a b m => some (true, fun _ x y => x - y, d, a, b, m)
  | .vmul d a b m => some (true, fun _ x y => x * y, d, a, b, m)
  | .vmulhS d a b m => some (true, fun n x y => (x.signExtend (2 * n) * y.signExtend (2 * n)).extractLsb' n n, d, a, b, m)
  | .vmulhN d a b m => some (false, fun n x y => (x.zeroExtend (2 * n) * y.zeroExtend (2 * n)).extractLsb' n n, d, a, b, m)
  | .vminS d a b m => some (true, fun _ x y => if y.slt x then y else x, d, a, b, m)
  | .vminN d a b m => some (false, fun _ x y => if y.ult x then y else x, d, a, b, m)
  | .vmaxS d a b m => some (true, fun _ x y => if x.slt y then y else x, d, a, b, m)
  | .vmaxN d a b m => some (false, fun _ x y => if x.ult y then y else x, d, a, b, m)
  | .vand d a b m => some (true, fun _ x y => x &&& y, d, a, b, m)
  | .vor d a b m => some (true, fun _ x y => x ||| y, d, a, b, m)
  | .vxor d a b m => some (true, fun _ x y => x ^^^ y, d, a, b, m)
  | .vsll d a b m => some (true, fun n x y => x <<< (y.toNat % n), d, a, b, m)
  | .vsrl d a b m => some (true, fun n x y => x >>> (y.toNat % n), d, a, b, m)
  | .vsra d a b m => some (true, fun n x y => x.sshiftRight (y.toNat % n), d, a, b, m)
  | .vxsect d a b m => some (true, fun n x y => if x &&& y = 0 then BitVec.allOnes n else BitVec.ofNat n
      (((List.range n).filter fun i => x.getLsbD i && (List.range (i + 1)).all fun j => !(x &&& y).getLsbD j).length), d, a, b, m)
  | _ => none

/-- The unary integer words (R155). -/
def laneInt1 : Instr → Option ((∀ n, BitVec n → BitVec n) × Reg × Src × MaskReg)
  | .vclz d b m => some (fun n x => BitVec.ofNat n (((List.range n).takeWhile fun i => !x.getMsbD i).length), d, b, m)
  | .vpop d b m => some (fun n x => BitVec.ofNat n (ones x), d, b, m)
  | .vabs d b m => some (fun _ x => if x.msb then -x else x, d, b, m)
  | .vneg d b m => some (fun _ x => -x, d, b, m)
  | _ => none

/-- The integer comparisons (R157). -/
def laneCmp : Instr → Option (Bool × (∀ n, BitVec n → BitVec n → Bool) × MaskReg × Reg × Src × MaskReg)
  | .vcmpEq d a b m => some (true, fun _ x y => x == y, d, a, b, m)
  | .vcmpNe d a b m => some (true, fun _ x y => x != y, d, a, b, m)
  | .vcmpLtS d a b m => some (true, fun _ x y => x.slt y, d, a, b, m)
  | .vcmpLtN d a b m => some (false, fun _ x y => x.ult y, d, a, b, m)
  | .vcmpLeS d a b m => some (true, fun _ x y => x.sle y, d, a, b, m)
  | .vcmpLeN d a b m => some (false, fun _ x y => x.ule y, d, a, b, m)
  | _ => none

/-- The widening words (R159): whether each operand is signed, and whether the product is added to vd. -/
def laneWiden : Instr → Option (Bool × Bool × Bool × Reg × Reg × Src × MaskReg)
  | .vwmulS d a b m => some (true, true, false, d, a, b, m)
  | .vwmulN d a b m => some (false, false, false, d, a, b, m)
  | .vwmacS d a b m => some (true, true, true, d, a, b, m)
  | .vwmacN d a b m => some (false, false, true, d, a, b, m)
  | .vwmacSn d a b m => some (true, false, true, d, a, b, m)
  | _ => none

/-- A pattern as an integer. -/
def asZ (signed : Bool) {n : Nat} (x : BitVec n) : Int := if signed then x.toInt else x.toNat

/-- The saturating and averaging words (R161): the exact value from the operands as integers, before the clamp to the range of the
destination; vavg needs no clamp. -/
def laneSat (vxrm : Nat) : Instr → Option (Bool × (Int → Int → Int) × Reg × Reg × Src × MaskReg)
  | .vsaddS d a b m => some (true, fun x y => x + y, d, a, b, m)
  | .vsaddN d a b m => some (false, fun x y => x + y, d, a, b, m)
  | .vssubS d a b m => some (true, fun x y => x - y, d, a, b, m)
  | .vssubN d a b m => some (false, fun x y => x - y, d, a, b, m)
  | .vavg d a b m => some (true, fun x y => rshiftRound (x + y) 1 vxrm, d, a, b, m)
  | _ => none

/-- The range of `n` bits. -/
def rangeOf (signed : Bool) (n : Nat) : Int × Int := if signed then (-2 ^ (n - 1), 2 ^ (n - 1) - 1) else (0, 2 ^ n - 1)

/-- A value clamped to the range of `n` bits. -/
def clamp (signed : Bool) (n : Nat) (z : Int) : Int := max (rangeOf signed n).1 (min (rangeOf signed n).2 z)

/-- The two-operand float words (R164 to R166, R170): the result and flags of one element. -/
def laneFloat2 : Instr → Option ((FFmt → RMode → Nat → Nat → Nat × Nat) × Reg × Reg × Src × MaskReg)
  | .vfadd d a b m => some (fun g rm x y => fArith2 g rm (xadd rm) x y, d, a, b, m)
  | .vfsub d a b m => some (fun g rm x y => fArith2 g rm (fun p q => xadd rm p (xneg q)) x y, d, a, b, m)
  | .vfmul d a b m => some (fun g rm x y => fArith2 g rm xmul x y, d, a, b, m)
  | .vfdiv d a b m => some (fun g rm x y =>
      ((roundDiv g rm (g.decode x) (g.decode y)).1, (roundDiv g rm (g.decode x) (g.decode y)).2 ||| snanFlag g [x, y]), d, a, b, m)
  | .vfmin d a b m => some (fun g _ x y => fminmax g false x y, d, a, b, m)
  | .vfmax d a b m => some (fun g _ x y => fminmax g true x y, d, a, b, m)
  | .vfsgnj d a b m => some (fun g _ x y => (x % 2 ^ (g.width - 1) + (if g.neg y then 2 ^ (g.width - 1) else 0), 0), d, a, b, m)
  | _ => none

/-- The fused words (R165): whether the product and the addend are negated. -/
def laneFma : Instr → Option (Bool × Bool × Reg × Reg × Src × MaskReg)
  | .vfma d a b m => some (false, false, d, a, b, m)
  | .vfms d a b m => some (false, true, d, a, b, m)
  | .vfnma d a b m => some (true, false, d, a, b, m)
  | _ => none

/-- The float functions of one operand (R167). -/
def laneFloat1 : Instr → Option ((FFmt → RMode → XF → Nat × Nat) × Reg × Rm × Reg × MaskReg)
  | .vfsqrt d rm b m => some (roundSqrt, d, rm, b, m)
  | .vfrcp d rm b m => some (roundRcp, d, rm, b, m)
  | .vfrsq d rm b m => some (roundRsq, d, rm, b, m)
  | .vfexp2 d rm b m => some (roundExp2, d, rm, b, m)
  | _ => none

/-- The float comparisons (R168): whether a quiet NaN is invalid too, and the test on the order of two numbers. -/
def laneFcmp : Instr → Option (Bool × (Int → Bool) × MaskReg × Reg × Src × MaskReg)
  | .vfcmpEq d a b m => some (false, fun c => c == 0, d, a, b, m)
  | .vfcmpLt d a b m => some (true, fun c => decide (c < 0), d, a, b, m)
  | .vfcmpLe d a b m => some (true, fun c => decide (c ≤ 0), d, a, b, m)
  | _ => none

/-- The class code of a float pattern, one bit for each class (R169). -/
def classCode (g : FFmt) (x : Nat) : Nat :=
  match g.decode x with
  | .nan => if g.isSnan x then 2 ^ 8 else 2 ^ 9
  | .inf _ => if g.neg x then 2 ^ 0 else 2 ^ 7
  | .fin _ p _ =>
    if p = 0 then (if g.neg x then 2 ^ 3 else 2 ^ 4)
    else if bits x g.mb g.eb = 0 then (if g.neg x then 2 ^ 2 else 2 ^ 5)
    else if g.neg x then 2 ^ 1 else 2 ^ 6

/-- Flags of all elements together. -/
def allFlags (l : List (Nat × Nat)) : Nat := l.foldl (fun x q => x ||| q.2) 0

/-- The mask logicals (R171). -/
def maskLogic : Instr → Option ((Bool → Bool → Bool) × MaskReg × MaskReg × MaskReg)
  | .mand d a b => some (fun x y => x && y, d, a, b)
  | .mor d a b => some (fun x y => x || y, d, a, b)
  | .mxor d a b => some (fun x y => Bool.xor x y, d, a, b)
  | .mnot d a => some (fun x _ => !x, d, a, a)
  | _ => none

/-- The slides and the permute (R177, R178): the element whose value an active element with index value `n` receives, or none for 0; none
leaves it. -/
def slideForm (v : LV) : Instr → Option (Reg × Reg × Src × MaskReg × (Nat → Nat → Option (Option Nat)))
  | .vslup d a b m => some (d, a, b, m, fun e n => if n ≤ e then some (some (e - n)) else none)
  | .vsldn d a b m => some (d, a, b, m, fun e n => some (if e + n < v.vlmax then some (e + n) else none))
  | .vperm d a b m => some (d, a, b, m, fun _ n => some (if n < v.vlmax then some n else none))
  | _ => none

/-- Some element is active and the vector operand may be named; `es` are the elements of it the word reads (R36, R58). -/
def ReadsAt (v : LV) (va : Reg) (m : MaskReg) (es : List Nat) (o : Opd) (u : LV) : Prop :=
  v.active m ≠ [] ∧ (v.noteMask m).vecAt va (v.active m) es = .ok (o, u)

/-- The reductions (R181): their combine. -/
def reduceForm : Instr → Option (Nat × Reg × Reg × Src × MaskReg)
  | .vredsum d a b m => some (0, d, a, b, m)
  | .vredmax d a b m => some (1, d, a, b, m)
  | .vredmin d a b m => some (2, d, a, b, m)
  | _ => none

/-- The quad exchanges (R183, R184): the element an element reads. -/
def quadForm : Instr → Option (Reg × Reg × MaskReg × (Nat → Nat))
  | .qswpH d a m => some (d, a, m, fun e => if e % 2 = 0 then e + 1 else e - 1)
  | .qswpV d a m => some (d, a, m, fun e => if e % 4 < 2 then e + 2 else e - 2)
  | .qswpD d a m => some (d, a, m, fun e => e / 4 * 4 + (3 - e % 4))
  | .qbc d a i m => some (d, a, m, fun e => e / 4 * 4 + i.toNat)
  | _ => none

/-- The word acts over lanes other than its own element's and runs in lockstep only, with no VP in thread mode (R40, R44, R152). -/
def lockstepOk (v : LV) : Prop := v.thr = none ∧ v.r.threadLive = false

/-! Vector memory words and per-VP memory (R32 to R36, R188 to R207). -/

/-- The vector loads: how they find their elements, format, vd, base, third register and mask (R193, R207). -/
def vloadForm : Instr → Option (VMode × Fmt × Reg × Reg × Reg × MaskReg)
  | .vld d b x f m => some (.unit, f, d, b, x, m)
  | .vlds d b x f m => some (.strided, f, d, b, x, m)
  | .vldseg d b x f m => some (.seg, f, d, b, x, m)
  | .vldx d b x f m => some (.indexed, f, d, b, x, m)
  | .vldt d x m => some (.tensor, .native, d, 0, x, m)
  | _ => none

/-- The vector stores: as the loads, and whether the word adds (R197, R203, R204, R207). -/
def vstoreForm : Instr → Option (VMode × Fmt × Bool × Reg × Reg × Reg × MaskReg)
  | .vst d b x f m => some (.unit, f, false, d, b, x, m)
  | .vsts d b x f m => some (.strided, f, false, d, b, x, m)
  | .vstseg d b x f m => some (.seg, f, false, d, b, x, m)
  | .vstx d b x f m => some (.indexed, f, false, d, b, x, m)
  | .vstxa d b x f m => some (.indexed, f, true, d, b, x, m)
  | .vstt d x m => some (.tensor, .native, false, d, 0, x, m)
  | _ => none

/-- The format a vector memory word is checked with: a tensor form takes its record's (R207). -/
def formFmt (v : LV) (mode : VMode) (fmt : Fmt) (vx : Reg) : Fmt := if mode = .tensor then (tensorFmt v vx).getD .native else fmt

/-- Bytes of an element in a format of whole bytes; none for the packed formats (R79, R194). -/
def wholeBytes (T : Tag) : Fmt → Option Nat
  | .native => some (T.width / 8)
  | .i8 | .e4m3 | .e5m2 => some 1
  | .i16 | .fp16 | .bf16 => some 2
  | .i32 | .f32 => some 4
  | .i64 => some 8
  | _ => none

/-- One piece of `n` bytes at an address: a whole element. -/
def wholeSpot (e field : Nat) (a : Word) (n : Nat) : Spot := { e := e, field := field, pieces := [(a.toNat, n)], shift := 0 }

/-- The word has done its part: VESTART is 0 and the thread goes on (R49). -/
def vectorDone (u : State) (r : Row) : State := (u.modSlice r fun sl => { sl with vestart := 0 }).finish (.ctl r.id)

/-- What a store takes for an element, with the flags of its conversion (R81, R197, R204). -/
def storedValue (v : LV) (p : VPlan) (add : Bool) (T : Tag) (vd : Reg) (q : Spot) : Nat × Nat :=
  if p.fmt = .b1 then ((v.sl.maskBit (vd.val % 8) q.e).toNat, 0)
  else
    let x := v.sl.elem v.r.w (vd.val + q.field * gop v.sl.ew v.sl.grp T.width) T.width q.e
    if add then (x, 0) else narrow T p.fmt (RMode.ofFrm v.r.frm) x

/-- The state in which a per-VP memory word looks at its elements: earlier stores that matter have reached their homes, and a word of a block that
is a cause of R36 has marked the strip not restartable, with cause PERVP (`e` is none in lockstep, the element of a VP in thread mode). -/
def memStart (s : State) (r : Row) (nr : Bool) (e : Option Nat) : State :=
  let s1 := s.popIssue.settle r.id
  if nr && e.isNone then s1.stripNr r.id 6 else s1

/-- A per-VP memory word leaves the state `u` of its translation with the view `w`, and starts an operation under the flag its header names,
or under none; `after` is what it does at the homes, and `kind` the operation, once the view is back. `e` is none in lockstep, and the element
of a VP (R32, R33, R40, R149, R189), which reads the slices as they stood before the earlier stores reached their homes. -/
def LeavesMem (i : Instr) (s : State) (r : Row) (flag : Header → Nat) (nr : Bool) (e : Option Nat) (v w : LV) (u : State)
    (after : State → State) (kind : State → OpKind) (items : List WItem) : Prop :=
  let s1 := memStart s r nr e
  let r1 := (s1.row? r.id).getD r
  match e with
  | none => ∀ k, s.LanesIssue r k → (flag k.hd < 12 → s.flagCount (.ctl r.id) (flag k.hd) < 15) → v = s1.lockLV r1 k →
      let c := u.putLV { w with sl := { w.sl with vestart := 0 } }
      let z := (after c).startLaneOp r (.ctl r.id) none (flag k.hd) (wordAddr k.header k.idx) (kind c) items
      exec i s = .next (z.2.advanceRun r.id (k.noteOp (flag k.hd) z.1))
  | some x => ∀ n b m, s.VpIssues r n b m → m.e = x → (flag b.hd < 12 → s.flagCount (.vp r.id x) (flag b.hd) < 15) →
      v = { s1.thrLV r1 x with sl := s.slice r } →
      let c := u.putLV { w with sl := Slice.join (s.slice r) w.sl (s1.slice r) }
      let z := (after c).startLaneOp r (.vp r.id x) (some x) (flag b.hd) (wordAddr b.header m.idx) (kind c) items
      exec i s = .next ((if flag b.hd < 12 then z.2
        else z.2.modRow r.id fun q => q.modMember x fun y => { y with ops := y.ops ++ [z.1] }).finish (.vp r.id x))

/-- The thread on whose behalf a per-VP word accesses memory. -/
def accessThread (r : Row) : Option Nat → Tid
  | none => .ctl r.id
  | some x => .vp r.id x

/-- The address of an element: va plus its offset, a vector's sign-extended from its own width (R189). -/
def pvAddr (o : Opd) (a x : Nat) : Nat :=
  (BitVec.ofNat 64 a + (match o.tag with
    | some t => (BitVec.ofNat t.width x).signExtend 64
    | none => BitVec.ofNat 64 x)).toNat

/-- The view with the elements of the destination undefined until the operation completes (R34). -/
def awaiting (v : LV) (vd : Reg) (T : Tag) (acts : List Nat) : LV :=
  { v with sl := acts.foldl (fun sl e => sl.undefElem v.r.w vd T.width e v.free) v.sl, free := v.free + 1
           wr := v.wr ++ (acts.map (regOf v.r.w vd T.width)).dedup }

/-- The registers of an operand of tag `T` may be given that tag now (R44, R150): they have it, or no VP of the row is in thread mode. -/
def mayTag (v : LV) (vd : Nat) (T : Tag) (nf : Nat) : Prop :=
  v.r.threadLive = false ∨ ∀ n < gop v.sl.ew v.sl.grp T.width * nf, (v.sl.reg (vd + n)).tag = T

/-- A mask destination of which no element is active: it is left in bitmask form (R73). -/
def bitmaskForm (v : LV) (n : Nat) : LV :=
  if (v.sl.mask n).list then { v with sl := { v.sl with m := v.sl.m.setIfInBounds n { list := false, set := (v.sl.mask n).set } } } else v

/-! Rounding (R75, R77). A number to be rounded is given by the rationals below it and above it. -/

/-- A power of two. -/
def pow2 (e : Int) : Rat := if 0 ≤ e then ((2 ^ e.toNat : Nat) : Rat) else 1 / ((2 ^ (-e).toNat : Nat) : Rat)

/-- The number a finite value is. -/
def numOf : XF → Rat
  | .fin n m e => (if n then -1 else 1) * (m : Rat) * pow2 e
  | _ => 0

/-- Numbers with the significand bits of a format, whatever their size; `low`: no finer than its subnormals. -/
def inFormat (f : FFmt) (low : Bool) (z : Rat) : Prop :=
  ∃ k q : Int, k.natAbs < 2 ^ (f.mb + 1) ∧ (low = true → 1 - (f.bias : Int) - f.mb ≤ q) ∧ z = (k : Rat) * pow2 q

/-- `y` is the one of the numbers in `C` that a mode of R75 rounds to: the nearest, a tie going to the even one or away from zero, or the next one
toward zero, down or up. `lt r`: `r` is below the number rounded; `gt r`: above. -/
def roundsTo (C : Rat → Prop) (rm : RMode) (lt gt : Rat → Prop) (y : Rat) : Prop :=
  C y ∧ ∀ z, C z →
    let mid := (y + z) / 2
    let down := ¬ gt y ∧ (¬ gt z → z ≤ y)
    let up := ¬ lt y ∧ (¬ lt z → y ≤ z)
    match rm with
    | .rne => let even := ∃ j : Int, y = 2 * (j : Rat) * (z - y)
      (z < y → lt mid ∨ ¬ gt mid ∧ even) ∧ (y < z → gt mid ∨ ¬ lt mid ∧ even)
    | .rmm => (z < y → lt mid ∨ ¬ gt mid ∧ 0 < y) ∧ (y < z → gt mid ∨ ¬ lt mid ∧ y < 0)
    | .rtz => (¬ gt 0 → down) ∧ (¬ lt 0 → up)
    | .rdn => down
    | .rup => up

/-- A pattern and its flags are those of rounding into a format (R75): the number in the format and NX where it is not exact, with UF where it is
tiny after rounding; and OF and NX beyond the largest number, with an infinity or the largest number by the mode, ±448 in e4m3. -/
def roundedInto (f : FFmt) (rm : RMode) (lt gt : Rat → Prop) (neg : Bool) (p : Nat × Nat) : Prop :=
  ∃ y y', roundsTo (inFormat f true) rm lt gt y ∧ roundsTo (inFormat f false) rm lt gt y' ∧
    let top : Rat := if f.hasInf then ((2 ^ (f.mb + 1) - 1 : Nat) : Rat) * pow2 (2 ^ f.eb - 2 - (f.bias : Int) - f.mb) else 448
    let exact := ¬ lt y ∧ ¬ gt y
    let tiny := -pow2 (1 - (f.bias : Int)) < y' ∧ y' < pow2 (1 - (f.bias : Int))
    let sign := neg.toNat * 2 ^ (f.eb + f.mb)
    (-top ≤ y → y ≤ top → p.1 < 2 ^ f.width ∧ f.neg p.1 = neg ∧ (∃ a m e, f.decode p.1 = .fin a m e) ∧ numOf (f.decode p.1) = y ∧
      (exact → p.2 = 0) ∧ (¬ exact → tiny → p.2 = 3) ∧ (¬ exact → ¬ tiny → p.2 = 1)) ∧
    (y < -top ∨ top < y →
      let inf := f.hasInf = true ∧ (rm = .rne ∨ rm = .rmm ∨ rm = .rup ∧ neg = false ∨ rm = .rdn ∧ neg = true)
      let largest := if f.hasInf then (2 ^ f.eb - 1) * 2 ^ f.mb - 1 else 0x7E
      (inf → p = (sign + (2 ^ f.eb - 1) * 2 ^ f.mb, 5)) ∧ (¬ inf → p = (sign + largest, 5)))

/-! The arithmetic of the matrix unit (R87, R259 to R266). -/

/-- rne(x + y, f32) (R87). -/
def addF32 (x : Nat) (y : XF) : Nat := (roundX fmtF32 .rne (xadd .rne (fmtF32.decode x) y).1).1

/-- The value is finite (0 included). -/
def finiteX : XF → Bool
  | .fin .. => true
  | _ => false

/-- One step on an accumulator (R259): skipped where one factor is +0 and the other is finite. -/
def macStep (x : Nat) (p : XF × XF) : Nat :=
  if (p.1.isPosZero && finiteX p.2) || (p.2.isPosZero && finiteX p.1) then x else addF32 x (xmul p.1 p.2).1

/-- The half of a side an operation names (R253). -/
def halfOf (s : State) (r : Row) (side half : Bool) : LHalf :=
  (s.cluster r.cluster).mx.half.getD (side.toNat * 2 + half.toNat) LHalf.fresh

/-- Steps one part of a `mop` takes (R269, R271): by the wider origin of its two halves. -/
def stepsAtOnce (a b : LHalf) : Nat := if max a.origin b.origin = 16 then 1 else if max a.origin b.origin = 8 then 2 else 4

/-- acc + rne(part × SA × SB), rounded once each (R262). -/
def foldValue (acc part : Nat) (sa sb : XF) : Nat :=
  addF32 acc (fmtF32.decode (roundX fmtF32 .rne (xmul (xmul (fmtF32.decode part) sa).1 sb).1).1)

/-- rne(s × (acc − z × rowsum)), exact inside (R266). -/
def scaledValue (acc rowsum : Nat) (sv zv : XF) : Nat :=
  (roundX fmtF32 .rne (xmul sv (xadd .rne (fmtF32.decode acc) (xneg (xmul zv (fmtF32.decode rowsum)).1)).1).1).1

/-- Element `i, j` of acc (`vB` 24) or part (16) of a row (R248). -/
def cellOf (sl : Slice) (w vB i j : Nat) : Nat := sl.elem w vB 32 (i * (2 * w) + j)

/-! Block ends, exceptions, and the frozen-state words (R29, R30, R37, R39 to R41, R186, R187, R305 to R322). -/

/-- Nothing but VP `e`'s own state and its bundle membership distinguishes the rows. -/
def sameButVp (r q : Row) (e : Nat) : Prop :=
  (∀ x, x ≠ e → q.vp x = r.vp x) ∧ q.th = r.th ∧ q.blocks = r.blocks ∧ q.buf = r.buf ∧ q.cf = r.cf

/-- The handler acts through kN on a record whose row, if it has one, is resident (R313). -/
def ActsOn (s : State) (h : HThread) (k : Fin 4) (fr : FRec) : Prop :=
  s.HandlerIssues h ∧ s.capOf h.slot k = some fr ∧ ∀ r, s.recRow fr = some r → r.ctx ≠ none

/-- The words of 0x33 that name a capability (R312, R313): the capability, whether R314 to R320 let it act on the record, and the register
of its memory operand, if it has one. -/
def capForm (fr : FRec) : Instr → Option (Fin 4 × Bool × Option Reg)
  | .fsnap d k => some (k, true, some d)
  | .frdx _ k _ => some (k, true, none)
  | .fwrx _ k _ => some (k, true, none)
  | .frdv d k _ => some (k, decide (fr.party ∈ [0, 1, 4]), some d)
  | .fwrv d k _ => some (k, decide (fr.party ∈ [0, 1, 4]), some d)
  | .frdm d k _ => some (k, decide (fr.party ∈ [0, 1, 4]), some d)
  | .fresume k => some (k, true, none)
  | .fresumeT k => some (k, decide (fr.course ∉ [2, 3]), none)
  | .fkill k => some (k, true, none)
  | .fstep k => some (k, decide (fr.course ≠ 3), none)
  | _ => none

/-- The words of 0x33 (R102). -/
def isFrozenWord (i : Instr) : Prop :=
  (∃ d k n, i = .frdx d k n ∨ i = .fwrx d k n ∨ i = .frdv d k n ∨ i = .fwrv d k n ∨ i = .frdm d k n ∨ i = .fsnap d k ∨
    i = .fresume k ∨ i = .fresumeT k ∨ i = .fkill k ∨ i = .fstep k ∨ i = .capdrop k) ∨ i = .hdone

/-- A handler's word completes in `u`, and the handler goes on. -/
def HandlerDone (i : Instr) (s : State) (h : HThread) (u : State) : Prop := exec i s = .next (u.finish (.hnd h.slot))

/-- Nothing delays the reading of the frozen thread's registers: no load of it has still to write them, and for v15 and above no matrix
operation of it runs (R37, R271). -/
def registersSettled (s : State) (fr : FRec) (mx : Prop) : Prop := s.loadsOut fr = false ∧ (mx → s.mxBusy fr = false)

/-- No `ramo` of the frozen control thread has still to write x[n] (R224). -/
def scalarSettled (s : State) (fr : FRec) (n : Reg) : Prop :=
  ∀ row, fr.who = .ctl row → ∀ o ∈ s.ops, o.row = row → o.stopped = false → ∀ op w od a v x, o.kind ≠ .ramo n op w od a v x

/-- The record with VVALID and SOWNER of what its row's slices hold now (R307). -/
def asHeldNow (s : State) (fr : FRec) : FRec :=
  match s.recRow fr with
  | some r => { fr with vvalid := r.vvalid, sowner := (s.slice r).owner }
  | none => fr

/-- A handler's store of runs of bytes is under way (R313, R349): the addresses translate for writing, and `u` is the state with the one write
that carries the bytes. -/
def Stores (s : State) (t : Tid) (runs : List (Nat × List Byte)) (u : State) : Prop :=
  ∃ ls v, spotLocs s (s.acc t) true false (runs.map fun p => (p.1 % 2 ^ 64, p.2.length)) = .ok (ls, v) ∧
    let w : PWrite := { id := v.clock.nextId, thread := t, cluster := s.clusterOf t, part := s.partOf t, scalar := true, op := none
                        items := (ls.flatten.zip (runs.flatMap (·.2))).map fun p => .byte p.1 0xFF p.2 }
    u = { v with clock := { v.clock with nextId := v.clock.nextId + 1 }, mem := { v.mem with writes := v.mem.writes ++ [w] } }

/-- A handler's loads of runs of bytes give `bs` one after another, and leave `u` (R313). -/
def Loads (t : Tid) : List (Nat × Nat) → State → List Byte → State → Prop
  | [], s, bs, u => bs = [] ∧ u = s
  | (va, n) :: rest, s, bs, u => ∃ b v c, s.scalarLoad t (va % 2 ^ 64) n = .ok (b, v) ∧ Loads t rest v c u ∧ bs = b ++ c

/-- A record is filed for a party that was not frozen (R305, R308): last in the cave and last in its die's queue, and the party is frozen
under it. -/
def Filed (s u : State) (t : Tid) (cluster : Nat) (fr : FRec) : Prop :=
  u.cave.recs = s.cave.recs ++ [fr] ∧ fr.id = s.cave.next ∧ fr.who = t ∧ fr.st = .queued ∧ fr.cluster = cluster ∧
  u.cave.queue = s.cave.queue.set (dieOf cluster) (s.cave.queue.getD (dieOf cluster) [] ++ [s.cave.next]) ∧
  u.frozenOf t = some s.cave.next

/-! Device events (spec/95): their arguments stand in `s.clock.arg`. -/

/-- The event happens, and leaves `u`. -/
def Happens (i : Instr) (s u : State) : Prop := exec i s = .next u

/-- The event cannot happen in this state. -/
def NotYet (i : Instr) (s : State) : Prop := ∃ name, exec i s = .refused (.notEnabled name)

/-- The waits of these threads are over. -/
def waitsOver (l : List Tid) (s : State) : State := l.foldl (fun u t => u.setWait t none) s

/-- The row is resident with its own contents in its slices. -/
def holdsRegs (s : State) (o : Op) (r : Row) : Prop := s.row? o.row = some r ∧ r.ctx ≠ none ∧ r.vvalid = true

/-- A row's slices after an operation delivers values under a tag (R34): an element the program has meanwhile written keeps its value where
`keep` says so, either outcome being allowed. -/
def delivered (r : Row) (vd seed : Nat) (T : Tag) (keep : Bool) (vals : List (Nat × Nat)) (sl : Slice) : Slice :=
  vals.foldl (fun sl p => if keep && !sl.awaits r.w vd T.width seed p.1 then sl else sl.setElem r.w vd T.width p.1 p.2) sl

/-- The event of the matrix unit or of an engine files this fault of the operation (R216). -/
def opFaultAt (o : Op) (f : Nat) (a : AFault) : FInfo := { code := a.code, pc := o.pc, f := some f, addr1 := a.addr1, addr2 := a.addr2 }

/-- An engine reads `n` elements of a record from `e` on (R195, R216, R225): each is aligned, translates and holds no poison. -/
def ReadsRun (o : Op) (x : Shape) : Nat → Nat → State → List Nat → State → Prop
  | 0, _, s, vs, u => vs = [] ∧ u = s
  | n + 1, e, s, vs, u => x.aligned e = true ∧ ∃ ls v rest, spotLocs s o.acc false false (x.spot e).pieces = .ok (ls, v) ∧
      v.spotPoison (x.spot e) ls = none ∧ ReadsRun o x n (e + 1) (v.refresh o.cluster ls.flatten) rest u ∧
      vs = (spotValue x.fmt [] (x.spot e).shift (ls.map (v.homeBytes o.part))).1 :: rest

/-- An engine writes elements of a record from `e` on (R216, R225, R232): each translates for writing, and is applied at its home. -/
def WritesRun (o : Op) (x : Shape) : List Nat → Nat → State → State → Prop
  | [], _, s, u => u = s
  | y :: t, e, s, u => ∃ ls v, spotLocs s o.acc true false (x.spot e).pieces = .ok (ls, v) ∧
      WritesRun o x t (e + 1) (v.applyAt (.ctl o.row) o.cluster o.part false (spotItems x.fmt 0 ls.flatten y)).1 u

/-- A flush passes `n` elements from `e` on (R221): each is aligned and translates, and the cluster keeps no copy of its lines. -/
def Flushes (o : Op) (x : Shape) : Nat → Nat → State → State → Prop
  | 0, _, s, u => u = s
  | n + 1, e, s, u => x.aligned e = true ∧ ∃ ls v,
      spotLocs s { part := o.part, cluster := o.cluster, hnd := false } false false (x.spot e).pieces = .ok (ls, v) ∧
      Flushes o x n (e + 1) { v with mem := { v.mem with
        l1 := v.mem.l1.filter fun c => !(c.cluster == o.cluster && (ls.flatten.map fun l => l.key / 64).contains c.line) } } u

/-- Changes that touch management state only. -/
def OnlyMgmt (s u : State) : Prop := u = { s with mgmt := u.mgmt }

/-- An SPDM answer (R390): in a session it is under the session's key. -/
def answered (s : State) (n : Nat) (a : List Nat) : List Nat :=
  match s.mgmt.key with
  | some k => 5 :: n :: (if 8 ∈ s.mgmt.spdm then Config.aesGcm k s.mgmt.outbox.length a else a)
  | none => 5 :: n :: a

/-- What an SPDM request answers, after it has been noted (R390). -/
def spdmForm (s : State) : Instr → Option (Nat × List Nat)
  | .getVersion => some (0, [0x12])
  | .getCapabilities => some (1, [2 ^ 1 + 2 ^ 2 + 2 ^ 4 + 2 ^ 6 + 2 ^ 7 + 2 ^ 9])
  | .negotiateAlgorithms => some (2, [3072, 256, 384, 256])
  | .getDigests => some (3, [Config.measurementHash [Config.certificate 0]])
  | .getCertificate => some (4, [Config.certificate 0])
  | .challenge => some (5, [Config.spdmSign s.clock.arg.a (Config.certificate 0)])
  | .getMeasurements => some (6, Config.spdmSign s.clock.arg.a (Config.measurementHash s.measured) :: s.measured)
  | _ => none

/-! The device as a whole. -/

/-- The encoder gives the instruction a word: it is not a device event. -/
def isWord (i : Instr) : Prop := encode i ≠ none

/-- The major opcode of an instruction's word (R89). -/
def majorOf (i : Instr) : Nat := ((encode i).getD 0) / 2 ^ 26

/-- The words of a control stream that wait while a vector-fetched block before them may still fault (log 12): all but those of 0x01 to 0x0C, vf,
vjoin, waitf, waitc, yield, qseed, pfetch and the banks, but the reads of CSRs that blocks do not write and, past blocks without memory words,
the loads, and but the words of lane groups, which no control stream holds. -/
def waitsForBlocks (s : State) (i : Instr) : Prop :=
  isWord i ∧ (0x0D ≤ majorOf i ∧ majorOf i ≤ 0x19 ∨ majorOf i = 0x2C ∨ majorOf i = 0x32 ∨ majorOf i = 0x33) ∧
  (∀ d, i ≠ .vf d) ∧ (∀ d j t, i ≠ .vjoin d j t) ∧ (∀ d j t, i ≠ .vjoinReg d j t) ∧ (∀ f, i ≠ .waitf f) ∧ (∀ c n, i ≠ .waitc c n) ∧
  i ≠ .yield ∧ (∀ a, i ≠ .qseed a) ∧ (∀ a l, i ≠ .pfetch a l) ∧ (∀ n a, i ≠ .sbput n a) ∧ (∀ d n, i ≠ .sbget d n) ∧ (∀ d c, i = .csrr d c → csrAhead c.toNat = false) ∧
  (loadForm i ≠ none → s.blocksQuiet = false)

/-- The words of R327 that are no csr access: those on the vector registers, masks, streams and the matrix unit of the row. They fault as VOWN
while the slices hold another row's contents, and wait until every block before them has ended (log 12). -/
def vectorWord : Instr → Bool
  | .vf _ | .vfD _ | .setvl .. | .setvlw .. | .vcommit | .vcfg .. | .vtagw .. | .vtagr .. | .vhwm .. | .vld .. | .vlds .. | .vldseg ..
  | .vldx .. | .vldt .. | .vfg .. | .vst .. | .vsts .. | .vstseg .. | .vstx .. | .vstxa .. | .vstt .. | .sbind .. | .sbindx .. | .cpy ..
  | .cpyx .. | .cflush .. | .rput .. | .rget .. | .mxon .. | .mxoff | .mstat .. | .mzero | .mlat .. | .mlatg .. | .mlatv .. | .mlut ..
  | .mop .. | .mopz .. | .mband .. | .mfold | .mdrain .. | .mdrainSz .. | .mrow .. | .cvinit .. => true
  | _ => false

/-- A csr access that R327 names. -/
def vownCsr : Instr → Bool
  | .csrr _ n | .csrw n _ | .csrs n _ | .csrc n _ =>
    decide (0x800 ≤ n.toNat ∧ n.toNat ≤ 0x808 ∨ 0x820 ≤ n.toNat ∧ n.toNat ≤ 0x822)
  | _ => false

/-- Words the spec's encoding examples of vectors, scalars and vector memory give, with the instructions they stand for (R89 to R103; 07, 09, 11, 13). -/
def specWordsA : List (Nat × Instr) :=
  [ (0x4C040008, .vcfg 0 2 0), (0x4CC05000, .setvl 6 5), (0x4C260003, .vtagw 1 .i32), (0x582A0000, .vld 1 10 0 .native 0),
    (0x50000004, .vf 4), (0x5C2B0000, .vst 1 11 0 .native 0), (0x4C0C0000, .vcommit), (0x38000003, .halt),
    (0x80210800, .vadd 1 1 (.vec 1) 0), (0x80222940, .vadd 1 2 (.scal 5) 1), (0x44A73479, .amoCas 5 7 6 .dev .ar true),
    (0x54040001, .waitc 0 1), (0x84813843, .vwmacN 4 1 (.scal 7) 0), (0x85044085, .vnsr 8 4 (.imm 8) 0),
    (0x8442180C, .vcvt 2 .rtz 3 0), (0x98860026, .vpamo 4 6 .add .dev .rlx 0), (0x9BFFEA01, .tfc 0x7FFD 2), (0x98400003, .tsetf 2),
    (0x582A1042, .vldseg 1 10 2 .i8 0), (0x584A2A84, .vfg 2 10 5 .e4m3 0), (0x5D0CA01C, .vstxa 8 12 20 .native 3) ]

/-- The same for the engines, the matrix unit and the bracket (R89 to R103; 17, 27). -/
def specWordsB : List (Nat × Instr) :=
  [ (0x60866000, .cpy 4 6), (0x6040A000, .sbind 2 10), (0x602C9001, .wmbind 1 9 .par), (0x602A7000, .wmpub 1 7), (0x64806000, .rput 4 6),
    (0x64A47343, .ramo 5 7 6 { op := .add, word := true } .ar), (0xB0000000, .mzero), (0xB0452D40, .mlat false false 10 11 .e4m3),
    (0xB06634A0, .mlat true false 12 13 .i4), (0xB0949140, .mlatg true 9 4 .e4m3), (0xB170003F, .mop true true 63),
    (0xB180007F, .mopz false false 127), (0xB240003F, .mdrain 63), (0xB284103F, .mdrainSz 8 4 63), (0xB3028000, .mstat 5),
    (0x540E0004, .mxon true false false), (0x54100000, .mxoff), (0x50200005, .vfD 5) ]

/-- The same for synchronization, frozen-state access and the capability word (R89 to R103; 19, 21). -/
def specWordsC : List (Nat × Instr) :=
  [ (0xC80A5840, .barInit 10 11 .par), (0xC80A0001, .barArrive 10), (0xC80A1401, .barArriveCap 10 2), (0xC80A0002, .barWait 10),
    (0xC80A6003, .barBytes 10 12), (0xC8AA0004, .lkacq 5 10 .conc), (0xC80A0005, .lkrel 10), (0xC8AA3046, .waitm 5 10 6 .par),
    (0xC8284847, .cvinit 1 8 9 .par), (0xC8200008, .cvsign 1), (0xC8AA0009, .clsq 5 10), (0xCD400000, .fsnap 10 0), (0xCCA13801, .frdx 5 1 7),
    (0xCCC00002, .fwrx 6 0 0), (0xCD40C003, .frdv 10 0 24), (0xCD601804, .fwrv 11 0 3), (0xCD401005, .frdm 10 0 2), (0xCC000006, .fresume 0),
    (0xCC010007, .fresumeT 1), (0xCC010008, .fkill 1), (0xCC000009, .fstep 0), (0xCC00000A, .hdone), (0xCC02000B, .capdrop 2) ]

/-- Words the spec encodes in its examples, with the instructions they stand for. -/
def specWords : List (Nat × Instr) := specWordsA ++ specWordsB ++ specWordsC

end Sys2Proof.Claims

open Sys2Proof Sys2Proof.Machine Sys2Proof.Claims

/-- R115, R116: every register-register word completes, for a row's thread and for a handler's, and gives the rule's result.
R115: clz, ctz, pop and bswap, whose words are ILLOP where b is not 0.
R117, R118: the immediate group, whose reserved shift words are ILLOP, lui and addpc. -/
def Obligations.ScalarWordResults : Prop :=
  (∀ (s : State) (t : Tid) (th : Thread) (i : Instr) (d : Reg) (v : Word),
    s.Issues true false t th → regReg th i = some (d, v) → WritesReg i s t th d v) ∧
  ((∀ (s : State) (t : Tid) (th : Thread) (i : Instr) (d : Reg) (v : Word),
    s.Issues true false t th → regUnary th i = some (d, v) → WritesReg i s t th d v) ∧
  (∀ (pl : Place) (w : Nat), scalarPlace pl → bits w 26 6 = 0x01 → 21 ≤ bits w 0 6 → bits w 0 6 ≤ 24 → bits w 11 5 ≠ 0 →
    decodeAt pl w = .error .illop)) ∧
  ((∀ (s : State) (t : Tid) (th : Thread) (i : Instr) (d : Reg) (v : Word),
    s.Issues true false t th → regImm th i = some (d, v) → WritesReg i s t th d v) ∧
  (∀ (pl : Place) (w : Nat), scalarPlace pl → bits w 26 6 = 0x07 → bits w 6 2 = 3 ∨ bits w 8 8 ≠ 0 → decodeAt pl w = .error .illop))

/-- R119: a branch passes control to PC + 4 × the displacement where its test holds, and to PC + 4 where it does not;
a cond of 6 or 7 is ILLOP.
R120: jal and jalr write the link and jump; a jalr target that is not a multiple of 4, or not canonical, takes its exception with xd
unwritten. -/
def Obligations.ControlTransferResults : Prop :=
  ((∀ (s : State) (t : Tid) (th : Thread) (i : Instr) (taken : Bool) (disp : BitVec 13),
    s.Issues true false t th → branchTest th i = some (taken, disp) →
      Jumps i s t th id (if taken then th.pc + 4 * disp.signExtend 64 else th.pc + 4)) ∧
  (∀ (pl : Place) (w : Nat), scalarPlace pl → bits w 26 6 = 0x0A → 6 ≤ bits w 13 3 → decodeAt pl w = .error .illop)) ∧
  (∀ (s : State) (t : Tid) (th : Thread) (d a : Reg), s.Issues true false t th →
    (∀ disp : BitVec 21, Jumps (.jal d disp) s t th (fun q => q.setX d (th.pc + 4)) (th.pc + 4 * disp.signExtend 64)) ∧
    (∀ imm : BitVec 16, let target := th.getX a + imm.signExtend 64
      (target.extractLsb' 0 2 = 0 → canonical target.toNat = true →
        Jumps (.jalr d a imm) s t th (fun q => q.setX d (th.pc + 4)) target) ∧
      (s.blocksLive t = false → target.extractLsb' 0 2 ≠ 0 →
        exec (.jalr d a imm) s = .next (s.popIssue.raise t { code := .misalign, pc := th.pc, addr1 := target.toNat })) ∧
      (s.blocksLive t = false → target.extractLsb' 0 2 = 0 → canonical target.toNat = false →
        exec (.jalr d a imm) s = .next (s.popIssue.raise t { code := .pageflt, pc := th.pc, addr1 := target.toNat }))))

/-- R57: x0 reads 0, and a write to it is discarded; any other register reads what was last written to it. -/
def Obligations.ScalarRegisterReadsBack : Prop :=
  ∀ (th : Thread) (d n : Reg) (v : Word),
    th.getX 0 = 0 ∧ th.setX 0 v = th ∧ (d ≠ 0 → (th.setX d v).getX d = v) ∧ (n ≠ d → (th.setX d v).getX n = th.getX n)

/-- R121, R63, R65, R23: csrr of a named CSR completes with the register's value.
R121, R3, R61: csrw, csrs and csrc complete with the field-by-field effect; a reserved FRM value is ILLOP and a write of VOWN is
PRIV. R61, R72, R73, R133, R134, R250: a write of VTAGLO or VTAGHI gives each register whose code it changes that tag, HWM 0 and its bit of
VDIRTY, and a write of VGRP changes EW and GRP, mask bits above the new VLMAX being lost; both are THREADLIVE with a VP in thread mode, and
ILLOP where the result is a tag no word may write, in matrix mode where VGRP or a tag of v15 to v31 would change, and where an open strip is
longer than the new VLMAX.
R23, R310: in a handler thread csrr reads ET, GWCTMAX, DVID, PLACE and LMAP, and a write of one of these changes nothing; a write of VOWN is
PRIV and any other named CSR is ILLOP. The model's own reading or choice in it: only codes that change a tag are tested, and registers at or
above the declared count take theirs (log 66), the LMAP of a cluster out of service (log 83). -/
def Obligations.CsrAccessResults : Prop :=
  (∀ (s : State) (r : Row) (d : Reg) (c : BitVec 14), s.RowIssues (csrAhead c.toNat) false r → csrFree s r c.toNat →
    WritesReg (.csrr d c) s (.ctl r.id) r.th d (BitVec.ofNat 64 (s.csrGet (.ctl r.id) r.th c.toNat)) ∧
    ∀ v, csrValue s r c.toNat = some v → s.csrGet (.ctl r.id) r.th c.toNat = v) ∧
  (∀ (s : State) (r : Row) (i : Instr) (n : Nat) (new : Nat → Nat) (ones : Nat), s.RowIssues false false r →
    csrWrite r.th i = some (n, new, ones) →
    let v := new (s.csrGet (.ctl r.id) r.th n)
    (csrFree s r n → ∀ u, csrWritten s.popIssue r n v ones = some u → exec i s = .next (u.finish (.ctl r.id))) ∧
    (n = 0x812 → 5 ≤ v % 8 → exec i s = .next (s.popIssue.raise (.ctl r.id) { code := .illop, pc := r.th.pc })) ∧
    (n = 0x809 → exec i s = .next (s.popIssue.raise (.ctl r.id) { code := .priv, pc := r.th.pc })) ∧
    (csrKnown n = false → exec i s = .next (s.popIssue.raise (.ctl r.id) { code := .illop, pc := r.th.pc })) ∧
    (r.vvalid = true → ∀ b, (n, b) ∈ [(0x801, 0), (0x802, 16)] →
      let sl := s.slice r
      let bad := ∃ i < 16, tagChanged sl b v i ∧ (7 ≤ v / 2 ^ (4 * i) % 16 ∨ r.mxon = true ∧ 15 ≤ b + i)
      (r.threadLive = true → exec i s = .next (s.popIssue.raise (.ctl r.id) { code := .threadlive, pc := r.th.pc })) ∧
      (r.threadLive = false → bad → exec i s = .next (s.popIssue.raise (.ctl r.id) { code := .illop, pc := r.th.pc })) ∧
      (r.threadLive = false → ¬ bad → ∃ u, TagsWritten sl u b v ∧
        exec i s = .next ((s.popIssue.modSlice r fun _ => u).finish (.ctl r.id)))) ∧
    (r.vvalid = true → n = 0x803 →
      let sl := s.slice r
      let ew := v / 4 % 4
      let g := v % 4
      let bad := r.mxon = true ∧ (ew ≠ sl.ew ∨ g ≠ sl.grp) ∨ sl.strip.opn = true ∧ 512 * r.w * 2 ^ g / (8 * 2 ^ ew) < sl.vl
      (r.threadLive = true → exec i s = .next (s.popIssue.raise (.ctl r.id) { code := .threadlive, pc := r.th.pc })) ∧
      (r.threadLive = false → bad → exec i s = .next (s.popIssue.raise (.ctl r.id) { code := .illop, pc := r.th.pc })) ∧
      (r.threadLive = false → ¬ bad → exec i s = .next ((s.popIssue.modSlice r (regrouped r.w ew g)).finish (.ctl r.id))))) ∧
  (∀ (s : State) (h : HThread) (i : Instr) (n : Nat) (new : Nat → Nat) (ones : Nat), s.HandlerIssues h →
    csrWrite h.th i = some (n, new, ones) →
    (n ∈ [0x840, 0x841, 0xF00, 0xF01, 0xF02] → exec i s = .next (s.popIssue.finish (.hnd h.slot))) ∧
    (n = 0x809 → exec i s = .next (s.popIssue.raise (.hnd h.slot) { code := .priv, pc := h.th.pc })) ∧
    (n ≠ 0x809 → n ∉ [0x840, 0x841, 0xF00, 0xF01, 0xF02] →
      exec i s = .next (s.popIssue.raise (.hnd h.slot) { code := .illop, pc := h.th.pc }))) ∧
  (∀ (s : State) (h : HThread) (d : Reg) (c : BitVec 14), s.HandlerIssues h →
    (c.toNat ∈ [0x840, 0x841, 0xF00, 0xF01, 0xF02] →
      WritesReg (.csrr d c) s (.hnd h.slot) h.th d (BitVec.ofNat 64 (s.csrGet (.hnd h.slot) h.th c.toNat))) ∧
    (c.toNat = 0x840 → s.csrGet (.hnd h.slot) h.th c.toNat = s.clock.et) ∧
    (c.toNat = 0x841 → s.csrGet (.hnd h.slot) h.th c.toNat = h.th.gwct) ∧
    (c.toNat ∉ [0x840, 0x841, 0xF00, 0xF01, 0xF02] →
      exec (.csrr d c) s = .next (s.popIssue.raise (.hnd h.slot) { code := .illop, pc := h.th.pc })))

/-- R125: a load at an aligned address whose translation and home give it completes with the sign- or zero-extended value, past vector-fetched
blocks that hold no memory word too; one that is not a multiple of its width is MISALIGN with the address in the record, and an access fault
is taken with its addresses.
R126: a store at an aligned address that translates completes: the low bytes of x[d] travel to the places of the address, the
strip of a row takes cause SCALAR, and no byte of memory is changed by the word itself beyond what translation sets; a misaligned
address is MISALIGN, and an access fault is taken with its addresses.
R126, R232: with no other write under way, an aligned scalar load of the bytes a thread has just stored returns them.
R125, R228, R230, R231, R350, R358: the bytes a load gives are those at the homes of the places its address translates to, but for a place that
a scalar store of the cluster on its way holds and a place of which the cluster has a valid copy, which gives its byte; an address that does
not translate, and a poisoned line, fault. -/
def Obligations.LoadAndStoreResults : Prop :=
  (∀ (s : State) (t : Tid) (th : Thread) (i : Instr) (n : Nat) (ext : Nat → Word) (d a : Reg) (disp : BitVec 13),
    s.Issues s.blocksQuiet false t th → loadForm i = some (n, ext, d, a, disp) →
    let ea := accessAddr th a disp
    (ea % n = 0 → ∀ bs u, s.popIssue.scalarLoad t ea n = .ok (bs, u) →
      exec i s = .next ((u.modThread t fun q => q.setX d (ext (leNat bs))).finish t)) ∧
    (s.blocksLive t = false → ea % n ≠ 0 → exec i s = .next (s.popIssue.raise t { code := .misalign, pc := th.pc, addr1 := ea })) ∧
    (s.blocksLive t = false → ea % n = 0 → ∀ f, s.popIssue.scalarLoad t ea n = .error f →
      exec i s = .next (s.popIssue.raise t (accessFault th f)))) ∧
  (∀ (s : State) (t : Tid) (th : Thread) (i : Instr) (n : Nat) (d a : Reg) (disp : BitVec 13),
    s.Issues false false t th → storeForm i = some (n, d, a, disp) →
    let ea := accessAddr th a disp
    (ea % n = 0 → ∀ ls u, xlateN s.popIssue (s.acc t) ea n true false = .ok (ls, u) →
      let w : PWrite := { id := u.clock.nextId, thread := t, cluster := s.clusterOf t, part := s.partOf t, scalar := true, op := none
                          items := (ls.zip (leBytes n (th.getX d).toNat)).map fun p => .byte p.1 0xFF p.2 }
      let u' := { u with clock := { u.clock with nextId := u.clock.nextId + 1 }, mem := { u.mem with writes := u.mem.writes ++ [w] } }
      exec i s = .next ((match t with | .ctl r => u'.stripNr r 3 | _ => u').finish t) ∧
      ∀ k, u'.byte k = u.byte k) ∧
    (ea % n = 0 → ∀ f, xlateN s.popIssue (s.acc t) ea n true false = .error f →
      exec i s = .next (s.popIssue.raise t (accessFault th f))) ∧
    (ea % n ≠ 0 → exec i s = .next (s.popIssue.raise t { code := .misalign, pc := th.pc, addr1 := ea }))) ∧
  (∀ (s : State) (t : Tid) (va n : Nat),
    (∀ f, xlateN s (s.acc t) va n false false = .error f → s.scalarLoad t va n = .error f) ∧
    (∀ ls u, (∀ w ∈ s.mem.writes, w.scalar = true) → xlateN s (s.acc t) va n false false = .ok (ls, u) →
      let stored (k : Nat) : Prop := ∃ w ∈ s.mem.writes, w.cluster = s.clusterOf t ∧ ∃ i ∈ w.items, ∃ l ∈ itemLocs i, l.key = k
      let copies (l : Loc) := s.mem.l1.filter fun c => c.cluster == s.clusterOf t && c.line == l.key / 64 && decide (s.clock.et < c.stop)
      (u.poisoned ls = none → ∃ bs v, s.scalarLoad t va n = .ok (bs, v) ∧ v.mem.cells = u.mem.cells ∧ v.mem.writes = s.mem.writes ∧
        bs.length = ls.length ∧ ∀ l b, (l, b) ∈ ls.zip bs → ¬ stored l.key →
          (copies l = [] → b = u.homeByte (s.partOf t) l) ∧
          (l.key < 2 ^ 54 → FMap.getD u.mem.keys l.key 0 = l.enc → ∀ c cs, copies l = c :: cs → b = c.bytes.getD (l.key % 64) 0)) ∧
      (u.poisoned ls ≠ none → (∀ l ∈ ls, ¬ stored l.key ∧ copies l = []) →
        ∃ f, s.scalarLoad t va n = .error f ∧ f.code = .memerr ∧ f.addr1 % 64 = 0))) ∧
  (∀ (s u : State) (t : Tid) (va : Nat) (bs : List Byte), s.mem.writes = [] → va < 2 ^ 64 → bs.length ∈ [1, 2, 4, 8] →
    va % bs.length = 0 → s.scalarStore t va bs = .ok u → ∃ u', u.scalarLoad t va bs.length = .ok (bs, u'))

/-- R346, R348 to R350, R352, R353, R360, R361, R364: what a translation gives. A walk reads the entry of each level at the table base plus 8 times
its index, is PAGEFLT at one that is not valid or not well formed and MEMERR at a poisoned one, follows a pointer and ends at a leaf; the place
is the leaf's page with the bits of the address below its size, in the partition's windows, or the core SRAM of a HOME 01 leaf, where the leaf
lets the access be made, and else PAGEFLT; a handler's two windows translate to its cluster's control page and scratchpad. The one thing in
memory that a translation changes is the byte of the leaf's own entry that holds A and D: A where a walk cached it, D where the access writes;
no other byte, and no row, handler, slice, operation or travelling write changes. An access that crosses a 64 KiB block translates once for
each, and its fault gives the second block too (R198). -/
def Obligations.TranslationChangesOnlyAAndD : Prop :=
  (∀ (s : State) (va lv base : Nat), 1 ≤ lv → lv ≤ 4 →
    let k := base + 8 * walkIndex va lv
    let e := s.dwordAt k
    (2 ^ 39 ≤ k ∧ k < 2 ^ 51 ∨ 2 ^ 52 ≤ k → walk s va lv base = .error .pageflt) ∧
    (k < 2 ^ 39 ∨ 2 ^ 51 ≤ k ∧ k < 2 ^ 52 →
      (k / 64 ∈ s.mem.poison → walk s va lv base = .error .memerr) ∧
      (k / 64 ∉ s.mem.poison →
        (e % 2 = 0 → walk s va lv base = .error .pageflt) ∧
        (e % 4 = 3 → (badLeaf lv e → walk s va lv base = .error .pageflt) ∧ (¬ badLeaf lv e → walk s va lv base = .ok (e, lv, k))) ∧
        (e % 4 = 1 → (badPointer lv e → walk s va lv base = .error .pageflt) ∧
          (¬ badPointer lv e → walk s va lv base = walk s va (lv - 1) (e / 2 ^ 8 % 2 ^ 44 * 256)))))) ∧
  (∀ (s : State) (a : Acc) (va n : Nat) (wr obj : Bool), s.MemOk →
    (a.hnd = true → 0xFFFFFFFFFFF7F000 ≤ va → va < 2 ^ 64 → xlate s a va n wr obj = .ok
      ({ key := if va < 0xFFFFFFFFFFF80000 then 2 ^ 54 + 2 ^ 12 * a.cluster + va % 2 ^ 12 else 2 ^ 53 + 2 ^ 19 * a.cluster + va % 2 ^ 19
         enc := 0, home := 1 }, s)) ∧
    (a.hnd = false ∨ va < 0xFFFFFFFFFFF7F000 →
      (va / 2 ^ 55 % 2 ^ 9 ≠ 0 → va / 2 ^ 55 % 2 ^ 9 ≠ 511 → xlate s a va n wr obj = .error .pageflt) ∧
      (va / 2 ^ 55 % 2 ^ 9 = 0 ∨ va / 2 ^ 55 % 2 ^ 9 = 511 →
        (∀ c, leafFor s a va = .error c → xlate s a va n wr obj = .error c) ∧
        ∀ leaf size k, leafFor s a va = .ok (leaf, size, k) →
          (placeUnder s a.part va n wr obj leaf size = none → xlate s a va n wr obj = .error .pageflt) ∧
          ∀ l, placeUnder s a.part va n wr obj leaf size = some l → ∃ u, xlate s a va n wr obj = .ok (l, u) ∧ u.MemOk ∧
            (∀ j, j ≠ k → u.byte j = s.byte j) ∧
            u.byte k = s.byte k |||
              (if (tlbFind (FMap.getD s.mem.tlbC a.cluster []) a.part va).isNone ∧
                (tlbFind (FMap.getD s.mem.tlbD (dieOf a.cluster) []) a.part va).isNone then 0x40 else 0) |||
              (if wr = true ∧ leaf / 2 ^ 7 % 2 = 0 then 0x80 else 0) ∧
            u.rows = s.rows ∧ u.handlers = s.handlers ∧ u.slices = s.slices ∧ u.ops = s.ops ∧ u.mem.writes = s.mem.writes))) ∧
  (∀ (s : State) (a : Acc) (va n : Nat) (wr obj : Bool), va < 2 ^ 64 → 1 ≤ n → n ≤ 2 ^ 16 →
    let m := 2 ^ 16 - va % 2 ^ 16
    (n ≤ m → (∀ c, xlate s a va n wr obj = .error c → xlateN s a va n wr obj = .error { code := c, addr1 := va, addr2 := 0 }) ∧
      ∀ l u, xlate s a va n wr obj = .ok (l, u) → xlateN s a va n wr obj = .ok (run l n, u)) ∧
    (m < n → let next := (va + m) % 2 ^ 64
      (∀ c, xlate s a va m wr obj = .error c → xlateN s a va n wr obj = .error { code := c, addr1 := va, addr2 := next }) ∧
      ∀ l u, xlate s a va m wr obj = .ok (l, u) →
        (∀ c, xlate u a next (n - m) wr obj = .error c → xlateN s a va n wr obj = .error { code := c, addr1 := va, addr2 := next }) ∧
        ∀ l' v, xlate u a next (n - m) wr obj = .ok (l', v) → xlateN s a va n wr obj = .ok (run l m ++ run l' (n - m), v)))

/-- R232: a home applies a travelling write of whole plaintext bytes that nothing waits for: each place holds its byte, every place outside is
unchanged, and GWCTMAX of the writer is at least the ET of the write. The model's own reading or choice in it: which leases count for the
completion time (log 53). -/
def Obligations.HomeWriteStoresItsBytes : Prop :=
  ∀ (s : State) (w : PWrite) (ls : List Loc) (bs : List Byte), s.MemOk → s.mem.writes.find? (·.id == s.clock.arg.a) = some w →
    s.writeBlocked w = false → w.items = (ls.zip bs).map (fun p => .byte p.1 0xFF p.2) → ls.length = bs.length → ls ≠ [] →
    (ls.map (·.key)).Nodup → (∀ l ∈ ls, l.key < 2 ^ 54 ∧ l.enc = 0) → s.waiters = [] → s.mem.lockQ = [] →
    ∃ u, exec .homeWriteApply s = .next u ∧ u.MemOk ∧ (∀ p ∈ ls.zip bs, u.byte p.1.key = p.2) ∧
      (∀ k, k ∉ ls.map (·.key) → u.byte k = s.byte k) ∧ (∀ q ∈ u.mem.writes, q.id ≠ w.id) ∧
      (∀ r x, w.thread = .ctl r → s.row? r = some x → s.clock.et < u.gwctOf w.thread)

/-- R127: the integer atomics give the rule's new value, for words and dwords.
R127, R128, R235: an atomic at an aligned address that can be accessed, whose release condition holds where its order has a release half and
with no remote atomic outstanding where it has an acquire half, completes: xd takes the old value sign-extended (on TLBINV the ticket of
R354), and the new one is stored at the home; scope vp is ILLOP, a misaligned address MISALIGN, and a release half whose condition does not
hold waits. -/
def Obligations.AtomicResults : Prop :=
  (∀ (n : Nat) (op : AmoOp) (old v exp new : BitVec n), 0 < n → amoValue n op old v exp = some new →
    amoNew op n old.toNat v.toNat exp.toNat = new.toNat) ∧
  (∀ (s : State) (t : Tid) (th : Thread) (i : Instr) (op : AmoOp) (d a b : Reg) (sc : Scope) (od : Order) (word : Bool),
    s.Issues false false t th → amoForm i = some (op, d, a, b, sc, od, word) →
    let ea := (th.getX a).toNat
    let w := if word then 32 else 64
    (sc = .vp → exec i s = .next (s.popIssue.raise t { code := .illop, pc := th.pc })) ∧
    (sc ≠ .vp → ea % (w / 8) ≠ 0 → exec i s = .next (s.popIssue.raise t { code := .misalign, pc := th.pc, addr1 := ea })) ∧
    (sc ≠ .vp → ea % (w / 8) = 0 → (releases od = true → s.popIssue.releaseOk t sc = true) →
      (acquires od = true → s.ramoOut t = false) → ∀ l ls u, Reads s.popIssue t ea (w / 8) true true (l :: ls) u →
        let old := if 2 ^ 54 ≤ l.key ∧ 0x800 ≤ l.key % 2 ^ 12 ∧ l.key % 2 ^ 12 < 0x808 then (u.part (s.partOf t)).invReq
          else valueAt s u t (l :: ls)
        let new := amoNew op w old ((th.getX b).toNat % 2 ^ w) ((th.getX d).toNat % 2 ^ w)
        exec i s = .next (((stored ((fetchedBy s u t (l :: ls)).homeStore t (l :: ls) (leBytes (w / 8) new)).1 t).modThread t
          fun q => q.setX d (wordOf (sextI old w))).finish t)) ∧
    (sc ≠ .vp → ea % (w / 8) = 0 → releases od = true → s.popIssue.releaseOk t sc = false → s.steppingOf t = none →
      exec i s = .next (s.popIssue.setWait t (some (.fence sc)))))

/-- R129, R234: a fence completes in a control stream when its condition holds, a release fence that must wait waits, and scope vp is
ILLOP there; in a thread block it acts for the VP. fence.ov completes when the thread's writes into the scratchpad are applied.
R235, R129: the stall of a release ends exactly when every earlier write of the thread has returned and, at scope die and wider, ET
has passed GWCTMAX. -/
def Obligations.FenceResults : Prop :=
  ((∀ (s : State) (t : Tid) (th : Thread) (i : Instr) (rel : Bool) (sc : Scope), s.Issues false false t th →
    fenceForm i = some (rel, sc) →
    (sc = .vp → exec i s = .next (s.popIssue.raise t { code := .illop, pc := th.pc })) ∧
    (sc ≠ .vp → (rel = true → s.popIssue.releaseOk t sc = true) → s.ramoOut t = false → exec i s = .next (s.popIssue.finish t)) ∧
    (sc ≠ .vp → rel = true → s.popIssue.releaseOk t sc = false → s.steppingOf t = none →
      exec i s = .next (s.popIssue.setWait t (some (.fence sc))))) ∧
  (∀ (s : State) (r : Row) (n : Nat) (b : Bundle) (m : BMem) (i : Instr) (rel : Bool) (sc : Scope), s.VpIssues r n b m →
    fenceForm i = some (rel, sc) → (rel = true → s.popIssue.releaseOk (.vp r.id m.e) sc = true) →
      exec i s = .next (s.popIssue.finish (.vp r.id m.e))) ∧
  (∀ (s : State) (t : Tid) (th : Thread), s.Issues false false t th →
    (∀ r, t = .ctl r → ((s.row? r).map Row.threadLive).getD false = false) →
    (∀ w ∈ s.mem.writes, w.thread = t → ∀ i ∈ w.items, ∀ l ∈ itemLocs i, ¬ (2 ^ 53 ≤ l.key ∧ l.key < 2 ^ 54)) →
    exec .fenceOv s = .next ((s.popIssue.rebind t).finish t))) ∧
  (∀ (s : State) (t : Tid) (sc : Scope), s.clock.arg.t = t → s.waitOf t = some (.fence sc) →
    (∀ w ∈ s.mem.writes, w.thread ≠ t) → (sc = .die ∨ sc = .dev ∨ sc = .dom → s.gwctOf t < s.clock.et) →
    (∀ o ∈ s.ops, ∀ d op w od ad v e, o.kind = .ramo d op w od ad v e → Tid.ctl o.row ≠ t) →
    exec .fenceReleaseStallEnd s = .next (s.setWait t none))

/-- R131, R38, R44: setvl grants min(request, VLMAX, W × max(1, VLMAX / W × GRANT / 16)), closes the open strip and opens one of that length
whose rind holds the PC after it and the registers before it; THREADLIVE with a VP in thread mode; it waits while an operation of the
strip may still fault. R132, R219: setvlw with the published value at CP + VL or above completes as setvl does and moves CP on; below it
the thread waits where its class may, and is ILLWAIT where it may not; a remote atomic before it holds it; an unbound watermark register is
ILLOP. The model's own reading or choice in it: the rind holds the x registers before xd is written (log 37). -/
def Obligations.SetvlResults : Prop :=
  (∀ (s : State) (r : Row) (d a : Reg), s.RowIssues false true r →
    (r.threadLive = true → Raises (.setvl d a) s (.ctl r.id) r.th.pc .threadlive) ∧
    (r.threadLive = false → s.stripBusy r = true → r.stepping = none → Retries (.setvl d a) s) ∧
    (r.threadLive = false → canClose s r →
      let c := stripClosed s.popIssue r
      let n := (r.th.getX a).toNat
      let m := c.vlmax r
      let vl := min n (min m (r.w * max 1 (m / r.w * (c.part r.part).grant / 16)))
      let u := c.openStrip r.id vl (r.th.pc + 4)
      Completes (.setvl d a) s (.ctl r.id) d (BitVec.ofNat 64 vl) u ∧
      (u.slice r).vl = vl ∧ (u.slice r).vestart = 0 ∧ (u.slice r).strip = { opn := true, nr := false, cause := 0 } ∧
      ∃ q k, u.row? r.id = some q ∧ q.rind = some k ∧ k.pc = r.th.pc + 4 ∧ k.x = r.th.x ∧ k.vl = vl ∧ q.srd = [] ∧ q.swr = [])) ∧
  (∀ (s : State) (r : Row) (d a : Reg) (n : Fin 4), s.RowIssues false true r → r.threadLive = false →
    (r.wm.getD n none = none → Raises (.setvlw d a n) s (.ctl r.id) r.th.pc .illop) ∧
    (r.wm.getD n none ≠ none → s.ramoOut (.ctl r.id) = true → r.stepping = none → Retries (.setvlw d a n) s) ∧
    (∀ b, r.wm.getD n none = some b → s.ramoOut (.ctl r.id) = false → canClose s r →
      let c := stripClosed s.popIssue r
      let m := c.vlmax r
      let vl := min (r.th.getX a).toNat (min m (r.w * max 1 (m / r.w * (c.part r.part).grant / 16)))
      ∀ ls v, Reads c (.ctl r.id) b.addr.toNat 8 false true ls v →
        let u := fetchedBy c v (.ctl r.id) ls
        let published := valueAt c v (.ctl r.id) ls
        (b.cp.toNat + vl ≤ published →
          Completes (.setvlw d a n) s (.ctl r.id) d (BitVec.ofNat 64 vl)
            ((u.modRow r.id fun q => { q with wm := q.wm.set n (some { b with cp := b.cp + BitVec.ofNat 64 vl }) }).openStrip r.id vl
              (r.th.pc + 4))) ∧
        (published < b.cp.toNat + vl → wmWaitOk r.cls b.cls = true → u.steppingOf (.ctl r.id) = none →
          exec (.setvlw d a n) s = .next (u.setWait (.ctl r.id) (some (.setvlw d vl n)))) ∧
        (published < b.cp.toNat + vl → wmWaitOk r.cls b.cls = false →
          exec (.setvlw d a n) s = .next (u.raise (.ctl r.id) { code := .illwait, pc := r.th.pc }))))

/-- R35, R237: closing a strip leaves no strip open, no rind and no buffered store; the buffered stores, if any, become one travelling write
in program order, and no byte of memory changes yet.
R44, R136: vcommit waits while an operation of the strip may still fault, closes the open strip, opens none, and has no other effect;
THREADLIVE with a VP in thread mode. -/
def Obligations.StripCloseResults : Prop :=
  (∀ (s : State) (r : Row), s.row? r.id = some r →
    let u := s.closeStrip r.id
    (u.slice r).strip.opn = false ∧ (u.slice r).vl = (s.slice r).vl ∧ (∃ q, u.row? r.id = some q ∧ q.rind = none ∧ q.buf = [] ∧ q.th = r.th ∧ q.vps = r.vps) ∧
    (r.buf = [] → u.mem = s.mem) ∧
    (r.buf ≠ [] → ∃ w, u.mem.writes = s.mem.writes ++ [w] ∧ w.items = r.buf ∧ w.thread = .ctl r.id ∧ w.cluster = r.cluster) ∧
    ∀ k, u.byte k = s.byte k) ∧
  (∀ (s : State) (r : Row), s.RowIssues false true r →
    (r.threadLive = true → Raises .vcommit s (.ctl r.id) r.th.pc .threadlive) ∧
    (r.threadLive = false → s.stripBusy r = true → r.stepping = none → Retries .vcommit s) ∧
    (r.threadLive = false → canClose s r → exec .vcommit s = .next ((stripClosed s.popIssue r).finish (.ctl r.id))))

/-- R44, R73, R133, R250: vcfg writes EW and G, and xd takes the new VLMAX; THREADLIVE with a VP in thread mode, ILLOP where the matrix
unit is held and the value changes, and ILLOP where an open strip is longer than the new VLMAX.
R58, R72, R134, R135: vtagw sets a tag, with HWM 0 and the register's bit of VDIRTY, and leaves the bytes of the register and everything else
of the slices; vtagr reads one as its code, vhwm reads HWM once no load into the register is outstanding; a
register at or above the declared count is ILLOP. -/
def Obligations.ConfigurationWordResults : Prop :=
  (∀ (s : State) (r : Row) (d : Reg) (ew g : Fin 4), s.RowIssues false true r →
    let m := 512 * r.w * 2 ^ g.val / (8 * 2 ^ ew.val)
    let sl := s.slice r
    (r.threadLive = true → Raises (.vcfg d ew g) s (.ctl r.id) r.th.pc .threadlive) ∧
    (r.threadLive = false → r.mxon = true → (ew.val ≠ sl.ew ∨ g.val ≠ sl.grp) → Raises (.vcfg d ew g) s (.ctl r.id) r.th.pc .illop) ∧
    (r.threadLive = false → sl.strip.opn = true → m < sl.vl → Raises (.vcfg d ew g) s (.ctl r.id) r.th.pc .illop) ∧
    (r.threadLive = false → (r.mxon = true → ew.val = sl.ew ∧ g.val = sl.grp) → (sl.strip.opn = true → sl.vl ≤ m) →
      Completes (.vcfg d ew g) s (.ctl r.id) d (BitVec.ofNat 64 m) (s.popIssue.modSlice r (regrouped r.w ew.val g.val)))) ∧
  (∀ (s : State) (r : Row) (d a : Reg) (tag : Tag), s.RowIssues false true r →
    let nreg := 8 * (r.nregCode % 4 + 1)
    (nreg ≤ d.val ∨ tag.writable = false → Raises (.vtagw d tag) s (.ctl r.id) r.th.pc .illop) ∧
    (nreg ≤ a.val → Raises (.vtagr d a) s (.ctl r.id) r.th.pc .illop ∧ Raises (.vhwm d a) s (.ctl r.id) r.th.pc .illop) ∧
    (d.val < nreg → tag.writable = true → r.threadLive = true → Raises (.vtagw d tag) s (.ctl r.id) r.th.pc .threadlive) ∧
    (d.val < nreg → tag.writable = true → r.threadLive = false →
      let sl := s.slice r
      ∃ u : Slice, exec (.vtagw d tag) s = .next ((s.popIssue.modSlice r fun _ => u).finish (.ctl r.id)) ∧
        u.reg d = { sl.reg d with tag := tag, hwm := 0 } ∧ (∀ n, n ≠ d.val → u.reg n = sl.reg n) ∧
        u.vdirty = sl.vdirty ||| BitVec.ofNat 32 (2 ^ d.val) ∧ u = { sl with v := u.v, vdirty := u.vdirty }) ∧
    (a.val < nreg → WritesReg (.vtagr d a) s (.ctl r.id) r.th d (BitVec.ofNat 64 ((s.slice r).reg a).tag.code)) ∧
    (a.val < nreg → (∀ o ∈ s.ops, o.row = r.id → o.kind.loads (s.slice r).ew (s.slice r).grp a = false) →
      WritesReg (.vhwm d a) s (.ctl r.id) r.th d (BitVec.ofNat 64 ((s.slice r).reg a).hwm)))

/-- R46, R138: a vjoin whose VPs have all arrived, with no vector-fetched block before it under way, writes 0 and lets every VP in PARK(j) or
STOP back into LOCK; with a timeout of 0 it writes the number that has not arrived and moves none; otherwise it waits until its timeout, and
where all have arrived for the end of the blocks before it. The model's own reading or choice in it: a block issued before it holds it back
until it ends, also one in which no VP is active (log 56). -/
def Obligations.VjoinResults : Prop :=
  ∀ (s : State) (r : Row) (i : Instr) (d : Reg) (j : BitVec 8) (cycles : Nat), s.RowIssues true false r →
    joinForm r.th i = some (d, j, cycles) →
    let n := s.missing r j.toNat
    (n = 0 → r.blocks = [] → Completes i s (.ctl r.id) d 0 (s.popIssue.modRow r.id fun q => { q with
      vps := q.vps.map fun p => (p.1, if p.2.st = .park j.toNat ∨ p.2.st = .stop then { p.2 with st := .lock } else p.2) })) ∧
    (n ≠ 0 → cycles = 0 → Completes i s (.ctl r.id) d (BitVec.ofNat 64 n) s.popIssue) ∧
    (n ≠ 0 ∧ cycles ≠ 0 ∨ n = 0 ∧ r.blocks ≠ [] → r.stepping = none →
      exec i s = .next (s.popIssue.setWait (.ctl r.id) (some (.vjoin d j.toNat (s.clock.cycle + cycles)))))

/-- R139, R141, R188: waitf goes on when every flag it names is 0 and no vector-fetched block before it may still raise one, and waitc when at most
the n most recent operations of the class are outstanding; until then they stay. R142 to R144: qseed appends to a seed queue of four places,
behind a block before it to the entries that come after the block; with four it waits until the blocks before it have ended, and is QOVER when
none has to; qdrain takes the oldest entry of the drain queue once those blocks have ended, and is QEMPTY when there is none; sbput and sbget
write and read a scalar bank register. The model's own reading or choice in it: that waitf waits for a flag that a block before it may still
raise, by its header or by a tsetf, is an inference from R188, which has waitf wait after such a block (log 85); that an entry behind a block
is kept from it (log 12). -/
def Obligations.WaitAndQueueWordResults : Prop :=
  ((∀ (s : State) (r : Row) (f : BitVec 12), s.RowIssues true false r →
    ((∀ n < 12, f.getLsbD n = true → r.cf.getD n 0 = 0 ∧ r.blockSets n = false) →
      exec (.waitf f) s = .next (s.popIssue.finish (.ctl r.id))) ∧
    (r.blocks = [] → ∀ n, r.blockSets n = false) ∧
    ((∃ n < 12, f.getLsbD n = true ∧ (r.cf.getD n 0 ≠ 0 ∨ r.blockSets n = true)) → r.stepping = none → Retries (.waitf f) s)) ∧
  (∀ (s : State) (r : Row) (c : Fin 4) (n : BitVec 8), s.RowIssues true false r →
    ((∀ o ∈ s.ops, o.row = r.id → o.cls = some c.val → r.seqs.getD c.val 0 ≤ o.seq + n.toNat) →
      exec (.waitc c n) s = .next (s.popIssue.finish (.ctl r.id))) ∧
    ((∃ o ∈ s.ops, o.row = r.id ∧ o.cls = some c.val ∧ o.seq + n.toNat < r.seqs.getD c.val 0) → r.stepping = none →
      Retries (.waitc c n) s))) ∧
  (∀ (s : State) (r : Row) (a : Reg), s.RowIssues true false r →
    let entry : QEnt := { v := r.th.getX a, tag := .i64 }
    let full := 4 ≤ r.seedQ.length + (r.blocks.map fun k => k.seeded.length).sum
    (full → r.blocks = [] → Raises (.qseed a) s (.ctl r.id) r.th.pc .qover) ∧
    (full → r.blocks ≠ [] → Retries (.qseed a) s) ∧
    (¬ full → r.blocks = [] → exec (.qseed a) s =
      .next ((s.popIssue.modRow r.id fun q => { q with seedQ := q.seedQ ++ [entry] }).finish (.ctl r.id))) ∧
    (¬ full → ∀ l k, r.blocks = l ++ [k] → exec (.qseed a) s =
      .next ((s.popIssue.modRow r.id fun q => { q with blocks := l ++ [{ k with seeded := k.seeded ++ [entry] }] }).finish (.ctl r.id)))) ∧
  (∀ (s : State) (r : Row) (d : Reg), s.RowIssues false false r →
    (r.blocks ≠ [] → r.stepping = none → Retries (.qdrain d) s) ∧
    (r.blocks = [] → r.drainQ = [] → Raises (.qdrain d) s (.ctl r.id) r.th.pc .qempty) ∧
    (r.blocks = [] → ∀ q t, r.drainQ = q :: t → Completes (.qdrain d) s (.ctl r.id) d (drainValue q)
      (s.popIssue.modRow r.id fun k => { k with drainQ := t }))) ∧
  (∀ (s : State) (r : Row) (d a : Reg) (n : Fin 8), s.RowIssues true false r →
    exec (.sbput n a) s = .next ((s.popIssue.modRow r.id fun q => { q with sb := q.sb.set n (r.th.getX a) }).finish (.ctl r.id)) ∧
    WritesReg (.sbget d n) s (.ctl r.id) r.th d r.sb[n])

/-- R146, R147: launch gives the engine the 64-byte descriptor and xd its answer, evsig adds one to the dword unless it is all ones,
evwait takes one count where there is one and no request waits, and queues a request otherwise; a misaligned address is MISALIGN, launch and
evsig first wait as a release at scope dev, and evwait for a remote atomic before it. -/
def Obligations.LaunchAndEventResults : Prop :=
  ∀ (s : State) (r : Row) (d a : Reg), s.RowIssues false false r →
    let t := Tid.ctl r.id
    let va := (r.th.getX a).toNat
    (va % 64 ≠ 0 → Raises (.launch d a) s t r.th.pc .misalign va) ∧
    (va % 8 ≠ 0 → Raises (.evsig a) s t r.th.pc .misalign va ∧ Raises (.evwait a) s t r.th.pc .misalign va) ∧
    (va % 8 = 0 → s.popIssue.releaseOk t .dev = false → r.stepping = none →
      exec (.evsig a) s = .next (s.popIssue.setWait t (some (.fence .dev)))) ∧
    (va % 64 = 0 → s.popIssue.releaseOk t .dev = false → r.stepping = none →
      exec (.launch d a) s = .next (s.popIssue.setWait t (some (.fence .dev)))) ∧
    (va % 64 = 0 → s.popIssue.releaseOk t .dev = true → ∀ ls v, Reads s.popIssue t va 64 false false ls v →
      let q := (fetchedBy s v t ls).submit r.part (v.homeBytes r.part ls)
      Completes (.launch d a) s t d (BitVec.ofInt 64 q.2) (q.1.stripNr r.id 3)) ∧
    (va % 8 = 0 → s.popIssue.releaseOk t .dev = true → ∀ ls v, Reads s.popIssue t va 8 true true ls v →
      let u := fetchedBy s v t ls
      let n := valueAt s v t ls
      (n = 2 ^ 64 - 1 → exec (.evsig a) s = .next ((u.stripNr r.id 3).finish t)) ∧
      (n ≠ 2 ^ 64 - 1 →
        exec (.evsig a) s = .next (((u.stripNr r.id 3).homeStore t ls (leBytes 8 (n + 1))).1.finish t))) ∧
    (va % 8 = 0 → s.ramoOut t = true → r.stepping = none → Retries (.evwait a) s) ∧
    (va % 8 = 0 → s.ramoOut t = false → ∀ l ls v, Reads s.popIssue t va 8 true true (l :: ls) v →
      let u := fetchedBy s v t (l :: ls)
      let n := valueAt s v t (l :: ls)
      (n ≠ 0 → (∀ q ∈ u.mem.eventQ, q.1 ≠ l.key) →
        exec (.evwait a) s = .next (((u.stripNr r.id 3).homeStore t (l :: ls) (leBytes 8 (n - 1))).1.finish t)) ∧
      ((n = 0 ∨ ∃ q ∈ u.mem.eventQ, q.1 = l.key) → u.steppingOf t = none →
        let v := u.stripNr r.id 3
        exec (.evwait a) s = .next
          ({ v with mem := { v.mem with eventQ := v.mem.eventQ ++ [(l.key, t)] } }.setWait t (some (.event l.key)))))

/-- R122: ecall and ebreak take their exception with RESUME at PC + 4, for a row's thread whose strip is closed or not restartable and for
a handler; a restartable strip is closed first.
R123, R124: yield only gives up the row's next turn; halt ends a row that has closed its strip and has nothing outstanding, is
THREADLIVE with a VP in thread mode and ILLOP in a handler. -/
def Obligations.TrapYieldAndHaltResults : Prop :=
  ((∀ (s : State) (r : Row), s.RowIssues false false r → ((s.stripOf r).opn = true → (s.stripOf r).nr = true) →
    exec .ecall s = .next (s.popIssue.raise (.ctl r.id) { code := .ecall, pc := r.th.pc, resume := some (r.th.pc + 4) }) ∧
    exec .ebreak s = .next (s.popIssue.raise (.ctl r.id) { code := .brk, pc := r.th.pc, resume := some (r.th.pc + 4) })) ∧
  (∀ (s : State) (r : Row), s.RowIssues false false r → (s.stripOf r).opn = true → (s.stripOf r).nr = false →
    s.stripBusy r = false →
    exec .ecall s = .next ((s.popIssue.closeStrip r.id).raise (.ctl r.id)
      { code := .ecall, pc := r.th.pc, resume := some (r.th.pc + 4) }) ∧
    exec .ebreak s = .next ((s.popIssue.closeStrip r.id).raise (.ctl r.id)
      { code := .brk, pc := r.th.pc, resume := some (r.th.pc + 4) })) ∧
  (∀ (s : State) (h : HThread), s.HandlerIssues h →
    exec .ecall s = .next (s.popIssue.raise (.hnd h.slot) { code := .ecall, pc := h.th.pc, resume := some (h.th.pc + 4) }) ∧
    exec .ebreak s = .next (s.popIssue.raise (.hnd h.slot) { code := .brk, pc := h.th.pc, resume := some (h.th.pc + 4) }))) ∧
  (∀ (s : State) (r : Row), s.RowIssues true false r →
    exec .yield s = .next ((s.popIssue.modRow r.id fun q => { q with yielded := true }).finish (.ctl r.id))) ∧
  ((∀ (s : State) (r : Row), s.RowIssues false false r →
    (r.threadLive = true → Raises .halt s (.ctl r.id) r.th.pc .threadlive) ∧
    (r.threadLive = false → s.stripBusy r = false →
      let u := if (s.stripOf r).opn then s.popIssue.closeStrip r.id else s.popIssue
      u.rowQuiet r = true → exec .halt s = .next (u.endRow r.id false) ∧ (u.endRow r.id false).row? r.id = none)) ∧
  (∀ (s : State) (h : HThread), s.HandlerIssues h →
    exec .yield s = .next (s.popIssue.finish (.hnd h.slot)) ∧ Raises .halt s (.hnd h.slot) h.th.pc .illop))

/-- R288: bar.init at a place with no arrivals and no waiters stores the record with COUNT the operand, ARRIVED, GEN and PENDING 0 and the
thread's team; a count of 0 or of 2^20 or above, or a barrier in use, is SYNCOBJ.
R292: bar.bytes binds the thread's landing barrier and adds its signed operand to PENDING; an operand of 0 changes no record.
R275, R289, R293: bar.arrive at a valid barrier of the thread's own class, and of its own team for class par, completes: the arrival
register names the barrier and its generation, and the record counts the arrival; a proxy arrival for the barrier is taken up.
R276, R291: bar.wait of a thread that has arrived goes on at once where the generation has moved on, waits where it has not and its
class may wait, and is ILLWAIT for a control thread that has not arrived at this barrier. -/
def Obligations.BarrierResults : Prop :=
  (∀ (s : State) (t : Tid) (own : Cls) (tok : Nat) (get : Reg → Word) (a b : Reg) (cls : Cls),
    SyncIssues s false t own tok get [a, b] → (get a).toNat % 32 = 0 → s.popIssue.releaseOk t .dev = true →
    ∀ l ls v, Reads s.popIssue t (get a).toNat 32 true true (l :: ls) v →
      let bs := v.homeBytes (s.partOf t) (l :: ls)
      let u := fetchedBy s v t (l :: ls)
      let n := (get b).toNat
      (1 ≤ n → n < 2 ^ 20 → (∀ x, parseBar bs = some x → x.arrived = 0) → u.barWaiters l.key = false →
        exec (.barInit a b cls) s = .next ((stored (u.homeStore t (l :: ls) (freshBar cls n tok)).1 t).finish t)) ∧
      (∀ r, t = .ctl r → (n = 0 ∨ 2 ^ 20 ≤ n ∨ (∃ x, parseBar bs = some x ∧ 0 < x.arrived) ∨ u.barWaiters l.key = true) →
        exec (.barInit a b cls) s = .next (u.raise t { code := .syncobj, pc := ((s.thread? t).map (·.pc)).getD 0 }))) ∧
  (∀ (s : State) (t : Tid) (own : Cls) (tok : Nat) (get : Reg → Word) (a b : Reg), SyncIssues s true t own tok get [a, b] →
    (get a).toNat % 32 = 0 →
    ∀ l ls v x, Reads s.popIssue t (get a).toNat 32 true true (l :: ls) v → parseBar (v.homeBytes (s.partOf t) (l :: ls)) = some x →
      let u := fetchedBy s v t (l :: ls)
      (get b = 0 → x.pending < 2 ^ 28 → exec (.barBytes a b) s = .next ((stored (u.setLanding t (get a)) t).finish t)) ∧
      (∀ p : Nat, (p : Int) = x.pending + (get b).toInt → p < 2 ^ 28 → get b ≠ 0 → (x.arrived = x.count → p ≠ 0) →
        exec (.barBytes a b) s =
          .next ((stored ((u.setLanding t (get a)).homeStore t (l :: ls) { x with pending := p }.bytes).1 t).finish t))) ∧
  (∀ (s : State) (t : Tid) (own : Cls) (tok : Nat) (get : Reg → Word) (a : Reg), SyncIssues s false t own tok get [a] →
    (∀ q, s.arrivalOf t = some q → q.proxy = true → q.addr = get a →
      exec (.barArrive a) s = .next ((stored (s.popIssue.setArrival t { q with proxy := false }) t).finish t)) ∧
    ((∀ q, s.arrivalOf t = some q → q.proxy = true → q.addr ≠ get a) → (get a).toNat % 32 = 0 → s.popIssue.releaseOk t .die = true →
      ∀ l ls v x, Reads s.popIssue t (get a).toNat 32 true true (l :: ls) v →
        parseBar (v.homeBytes (s.partOf t) (l :: ls)) = some x →
        x.cls = own → (x.cls = .par → x.owner = tok / 2 ^ 22 * 2 ^ 22) → x.arrived ≠ x.count →
        exec (.barArrive a) s = .next ((stored (arrivalStored x t l ls
          ((fetchedBy s v t (l :: ls)).setArrival t { addr := get a, gen := x.gen, proxy := false })) t).finish t))) ∧
  (∀ (s : State) (t : Tid) (own : Cls) (tok : Nat) (get : Reg → Word) (a : Reg), SyncIssues s false t own tok get [a] →
    (∀ q, s.arrivalOf t = some q → q.addr = get a → (get a).toNat % 32 = 0 → s.ramoOut t = false →
      ∀ l ls v x, Reads s.popIssue t (get a).toNat 32 false true (l :: ls) v → parseBar (v.homeBytes (s.partOf t) (l :: ls)) = some x →
        classWaitOk own x.cls (x.owner == tok / 2 ^ 22 * 2 ^ 22) = true →
        let u := fetchedBy s v t (l :: ls)
        (x.gen ≠ q.gen → exec (.barWait a) s = .next (u.finish t)) ∧
        (x.gen = q.gen → u.steppingOf t = none → exec (.barWait a) s = .next (blocked u t (.bar l.key x.gen)))) ∧
    (∀ r, t = .ctl r → (∀ q, s.arrivalOf t = some q → q.addr ≠ get a) →
      exec (.barWait a) s = .next (s.popIssue.raise t { code := .illwait, pc := ((s.thread? t).map (·.pc)).getD 0 })))

/-- R242, R290, R313: a handler's bar.arrive for the thread a capability names, once the earlier writes of both have returned, completes as that
thread's own arrival, marked as a proxy's;
an empty capability is CAPBAD, and outside a handler the word is PRIV. -/
def Obligations.ProxyArrivalResults : Prop :=
  (∀ (s : State) (h : HThread) (a : Reg) (k : Fin 4), s.HandlerIssues h →
    let t := Tid.hnd h.slot
    let va := h.th.getX a
    (s.capOf h.slot k = none → Raises (.barArriveCap a k) s t h.th.pc .capbad) ∧
    (∀ fr l ls v x, s.capOf h.slot k = some fr → va.toNat % 32 = 0 → s.popIssue.releaseOk t .die = true →
      s.popIssue.releaseOk fr.who .die = true → Reads s.popIssue t va.toNat 32 true true (l :: ls) v →
      parseBar (v.homeBytes (s.partOf t) (l :: ls)) = some x → x.cls = s.classOf fr.who →
      (x.cls = .par → (tidRow fr.who).isSome = true ∧ x.owner = (s.token fr.who).toNat / 2 ^ 22 * 2 ^ 22) → x.arrived ≠ x.count →
      let u := fetchedBy s v t (l :: ls)
      (∀ q, u.arrivalOf fr.who = some q → q.addr = va → q.gen ≠ x.gen) →
      exec (.barArriveCap a k) s = .next ((arrivalStored x t l ls
        (u.setArrival fr.who { addr := va, gen := x.gen, proxy := true })).finish t))) ∧
  (∀ (s : State) (r : Row) (a : Reg) (k : Fin 4), s.RowIssues false false r → Raises (.barArriveCap a k) s (.ctl r.id) r.th.pc .priv)

/-- R294, R295: lkacq of the thread's own class takes a free lock and writes 0, writes 1 where the thread holds it, and queues a request
where another thread does.
R296: lkrel of the holder counts the row's locks down and passes the lock to the oldest request at its home, and stores 0 where none waits;
for a control thread that does not hold the lock it is NOTHELD. -/
def Obligations.LockResults : Prop :=
  (∀ (s : State) (t : Tid) (cls : Cls) (tok : Nat) (get : Reg → Word) (d a : Reg), SyncIssues s false t cls tok get [d, a] →
    classWaitOk cls cls true = true → ((∃ r e, t = .vp r e) → cls = .conc) → (get a).toNat % 8 = 0 → s.ramoOut t = false →
    ∀ l ls v, Reads s.popIssue t (get a).toNat 8 true true (l :: ls) v →
      let u := fetchedBy s v t (l :: ls)
      let held := valueAt s v t (l :: ls)
      (held = 0 → u.lockCount t < 255 → exec (.lkacq d a cls) s = .next (((stored ((u.homeStore t (l :: ls)
        (leBytes 8 (2 ^ 63 + cls.code * 2 ^ 61 + 2 ^ 59 + tok % 2 ^ 48))).1.modLocks t (· + 1)) t).putX t d 0).finish t)) ∧
      (∀ k, parseLock held = some (k, tok) → exec (.lkacq d a cls) s = .next (((stored u t).putX t d 1).finish t)) ∧
      (∀ holder, parseLock held = some (cls, holder) → holder ≠ tok →
        (cls = .par → holder / 2 ^ 32 % 2 ^ 16 = tok / 2 ^ 32 % 2 ^ 16) → u.steppingOf t = none →
        exec (.lkacq d a cls) s = .next (blocked (stored { u with mem := { u.mem with lockQ := u.mem.lockQ ++ [(l.key, t, cls)] } } t) t
          (.lock d l.key)))) ∧
  (∀ (s : State) (t : Tid) (cls : Cls) (tok : Nat) (get : Reg → Word) (a : Reg), SyncIssues s false t cls tok get [a] →
    (get a).toNat % 8 = 0 → s.popIssue.releaseOk t .dev = true →
    ∀ l ls v, Reads s.popIssue t (get a).toNat 8 true true (l :: ls) v →
      let u := fetchedBy s v t (l :: ls)
      let held := valueAt s v t (l :: ls)
      (∀ k, parseLock held = some (k, tok) →
        exec (.lkrel a) s = .next ((stored ((u.modLocks t (· - 1)).passLock t (l :: ls)) t).finish t) ∧
        ((∀ q ∈ u.mem.lockQ, q.1 ≠ l.key) →
          (u.modLocks t (· - 1)).passLock t (l :: ls) = ((u.modLocks t (· - 1)).homeStore t (l :: ls) (leBytes 8 0)).1)) ∧
      (∀ r, t = .ctl r → (held = 0 ∨ ∃ k h, parseLock held = some (k, h) ∧ h ≠ tok) →
        exec (.lkrel a) s = .next (u.raise t { code := .notheld, pc := ((s.thread? t).map (·.pc)).getD 0 })))

/-- R298, R302: waitm of a class the thread may wait on returns the dword at once where it differs from the operand and waits where it does
not; clsq reads the class relation of the thread to a free word, a lock, or a barrier of class conc or weak, and changes nothing.
R299 to R301: cvinit binds a free convergence register to the elements a mask names, with no load or with the latch load a record
names; cvsign of a member that is not the last waits, and the last one completes the register and goes on. -/
def Obligations.MonitorQueryAndConvergenceResults : Prop :=
  ((∀ (s : State) (t : Tid) (own cls : Cls) (tok : Nat) (get : Reg → Word) (d a b : Reg), SyncIssues s false t own tok get [d, a, b] →
    classWaitOk own cls true = true → (get a).toNat % 8 = 0 → s.ramoOut t = false →
    ∀ l ls v, Reads s.popIssue t (get a).toNat 8 false true (l :: ls) v →
      let u := fetchedBy s v t (l :: ls)
      let n := BitVec.ofNat 64 (valueAt s v t (l :: ls))
      (n ≠ get b → exec (.waitm d a b cls) s = .next (((stored u t).putX t d n).finish t)) ∧
      (n = get b → u.steppingOf t = none →
        exec (.waitm d a b cls) s = .next (blocked (stored u t) t (.waitm d l.key (get b))))) ∧
  (∀ (s : State) (t : Tid) (own : Cls) (tok : Nat) (get : Reg → Word) (d a : Reg), SyncIssues s true t own tok get [d, a] →
    (get a).toNat % 8 = 0 →
    ∀ ls v, Reads s.popIssue t (get a).toNat 8 false true ls v →
      let word := valueAt s v t ls
      let answer (n : Nat) : Prop := exec (.clsq d a) s = .next (((fetchedBy s v t ls).putX t d (BitVec.ofNat 64 n)).finish t)
      (word = 0 → answer ((classWaitOk own own true).toNat * 16 + 12 + own.code)) ∧
      (∀ k h, parseLock word = some (k, h) → answer ((if h = tok then 128 else 0) + 64 +
        (classWaitOk own k ((match t with | .hnd _ => false | _ => true) && h / 2 ^ 32 % 2 ^ 16 == tok / 2 ^ 32 % 2 ^ 16)).toNat * 16 + k.code * 4 + own.code)) ∧
      (∀ k n m, word ≠ 0 → parseLock word = none → barHead word = some (k, n, m) → k ≠ .par →
        answer (32 + (classWaitOk own k false).toNat * 16 + k.code * 4 + own.code)))) ∧
  ((∀ (s : State) (r : Row) (n : Fin 8) (a b : Reg) (cls : Cls), s.RowIssues false true r → (r.th.getX b).toNat < 8 → cls ≠ .weak →
    r.cv.getD n none = none →
    let bound (load : Option (BitVec 32 × Word × Word × Word)) (u : State) : State :=
      ((u.modRow r.id fun q => { q with cv := q.cv.set n (some
        { members := (List.range (s.slice r).vl).filter ((s.slice r).maskBit (r.th.getX b).toNat), signed := [], cls := cls
          load := load }) }).convDone r.id n).finish (.ctl r.id)
    ((r.th.getX a).toNat = 0 → exec (.cvinit n a b cls) s = .next (bound none s.popIssue)) ∧
    ((r.th.getX a).toNat ≠ 0 → (r.th.getX a).toNat % 32 = 0 →
      ∀ ls v w base str, Reads s.popIssue (.ctl r.id) (r.th.getX a).toNat 32 false false ls v →
        parseIssue (dwordsOf 4 (v.homeBytes r.part ls)) = some (w, base, str) →
        exec (.cvinit n a b cls) s = .next (bound (some (w, base, str, r.th.pc)) (fetchedBy s v (.ctl r.id) ls)))) ∧
  (∀ (s : State) (r : Row) (k : Nat) (b : Bundle) (m : BMem) (n : Fin 8) (c : Conv), s.VpIssues r k b m → r.cv.getD n none = some c →
    (r.vp m.e).sign = none → m.e ∈ c.members → m.e ∉ c.signed → r.cls = c.cls → classWaitOk r.cls c.cls true = true →
    let t := Tid.vp r.id m.e
    let last := ∀ e ∈ c.members, e = m.e ∨ e ∈ c.signed ∨ (r.vp e).st = .stop
    let u := s.popIssue.modRow r.id fun q => { q with cv := q.cv.set n (some { c with signed := c.signed ++ [m.e] }) }
    (last → (c.load = none ∨ r.full 1 = false) → exec (.cvsign n) s = .next ((u.convDone r.id n).finish t)) ∧
    (¬ last → (r.vp m.e).stepping = none →
      exec (.cvsign n) s = .next (blocked (u.modVp r.id m.e fun v => { v with sign := some (n.val, false) }) t (.cvsign n.val)))))

/-- R276, R310, R299: in a handler every word that may wait on other threads is ILLWAIT. -/
def Obligations.WaitsAreIllegalInHandlers : Prop :=
  ∀ (s : State) (h : HThread) (i : Instr), s.HandlerIssues h →
    (∃ a b cls, i = .barInit a b cls) ∨ (∃ a, i = .barArrive a) ∨ (∃ a, i = .barWait a) ∨ (∃ d a cls, i = .lkacq d a cls) ∨
      (∃ a, i = .lkrel a) ∨ (∃ d a b cls, i = .waitm d a b cls) ∨ (∃ n a b cls, i = .cvinit n a b cls) ∨ (∃ n, i = .cvsign n) →
    Raises i s (.hnd h.slot) h.th.pc .illwait

/-- R207 to R209, R212: sbind and sbindx capture their records and bind the stream register at its first entry, sclose unbinds it; each marks
an open strip with cause ENGINE; a record that is not valid is the fault its capture gives. R213, R214, R221: cpy, cpyx and cflush capture
their records and issue one operation of the copy class; shapes that do not agree are BADSHAPE, and a full class holds the word. R217,
R218: wmbind binds a watermark register with CP 0, and is MISALIGN at an address that is not a multiple of 8; wmpub of a bound one issues
its publication and goes on, and of an unbound one is ILLOP. R220: pfetch has no architectural effect but what translating its lines sets,
at any level and for any record: of memory, A in a byte of a page-table entry of the partition by which a page is mapped, and nothing else.
The model's own reading or choice in it: wmbind and sclose mark the strip and pfetch does not (log 36), a line has one value in L2 and HBM
(log 55), a register that breaks the limits of R58 is ILLOP for pfetch too (log 75), pfetch goes on past blocks that have not ended (log 12). -/
def Obligations.StreamAndCopyIssueResults : Prop :=
  ((∀ (s : State) (r : Row) (n : Fin 8) (a vi : Reg), s.RowIssues false true r →
    (∀ sh, HoldsShape s r a false sh →
      exec (.sbind n a) s = .next (((bound s.popIssue r n (some (firstEntry sh none sh.count))).stripNr r.id 4).finish (.ctl r.id)) ∧
      ∀ ix, HoldsIdx s r vi ix →
        exec (.sbindx n a vi) s =
          .next (((bound s.popIssue r n (some (firstEntry sh (some ix) ix.length))).stripNr r.id 4).finish (.ctl r.id))) ∧
    (∀ fi, captureShape s r r.th a false = .error fi →
      exec (.sbind n a) s = .next (s.popIssue.raise (.ctl r.id) fi) ∧
      (shapeLimit s r vi = true → exec (.sbindx n a vi) s = .next (s.popIssue.raise (.ctl r.id) fi)))) ∧
  (∀ (s : State) (r : Row) (n : Fin 8), s.RowIssues false false r →
    exec (.sclose n) s = .next (((bound s.popIssue r n none).stripNr r.id 4).finish (.ctl r.id)))) ∧
  (∀ (s : State) (r : Row) (d a vi : Reg), s.RowIssues false true r →
    (shapeLimit s r a = true → r.full 0 = true → r.stepping = none → Retries (.cflush a) s ∧
      (shapeLimit s r d = true → Retries (.cpy d a) s ∧ (shapeLimit s r vi = true → Retries (.cpyx d a vi) s))) ∧
    (r.full 0 = false → ∀ src, HoldsShape s r a false src →
      exec (.cflush a) s = .next (((issues s.popIssue r (.cflush src) (some 0) none).stripNr r.id 4).finish (.ctl r.id)) ∧
      ∀ dst, HoldsShape s r d false dst →
        (dst.count ≠ src.count → Raises (.cpy d a) s (.ctl r.id) r.th.pc .badshape) ∧
        (copyCheck dst src = none →
          (dst.count = src.count → exec (.cpy d a) s =
            .next (((issues s.popIssue r (.cpy dst src none) (some 0) r.th.landing).stripNr r.id 4).finish (.ctl r.id))) ∧
          ∀ ix, HoldsIdx s r vi ix → dst.rank = src.rank → dst.ext.dropLast = src.ext.dropLast →
            ix.length ≤ dst.ext.getLastD 0 → exec (.cpyx d a vi) s =
              .next (((issues s.popIssue r (.cpy dst src (some ix)) (some 0) r.th.landing).stripNr r.id 4).finish (.ctl r.id))))) ∧
  (∀ (s : State) (r : Row) (n : Fin 4) (a : Reg) (cls : PubCls), s.RowIssues false false r →
    ((r.th.getX a).toNat % 8 ≠ 0 → Raises (.wmbind n a cls) s (.ctl r.id) r.th.pc .misalign (r.th.getX a).toNat) ∧
    ((r.th.getX a).toNat % 8 = 0 → exec (.wmbind n a cls) s = .next (((s.popIssue.modRow r.id fun q =>
      { q with wm := q.wm.set n (some { addr := r.th.getX a, cls := cls, cp := 0 }) }).stripNr r.id 4).finish (.ctl r.id))) ∧
    (r.wm.getD n none = none → Raises (.wmpub n a) s (.ctl r.id) r.th.pc .illop) ∧
    (∀ b ls u, r.wm.getD n none = some b →
      xlateN s.popIssue (s.acc (.ctl r.id)) b.addr.toNat 8 true true = .ok (ls, u) →
      exec (.wmpub n a) s = .next (((issues u r (.wmpub b.addr.toNat ls (r.th.getX a)) none none).stripNr r.id 4).finish (.ctl r.id)))) ∧
  (∀ (s : State) (r : Row) (a : Reg) (lvl : PfLvl), s.RowIssues true false r →
    (shapeLimit s r a = false → s.blocksLive (.ctl r.id) = false → Raises (.pfetch a lvl) s (.ctl r.id) r.th.pc .illop) ∧
    (shapeLimit s r a = true → ∃ u : State, exec (.pfetch a lvl) s = .next (u.finish (.ctl r.id)) ∧ u.rows = s.rows ∧ u.slices = s.slices ∧
      u.ops = s.ops ∧ u.mem.writes = s.mem.writes ∧ (lvl ≠ .l1 → u = s.popIssue) ∧
      (s.MemOk → ∀ k, u.byte k = s.byte k ∨
        u.byte k = s.byte k ||| 0x40 ∧ ∃ m ∈ u.mem.maps, m.2 = true ∧ m.1.part = r.part ∧ m.1.entry = k)))

/-- R222 to R224: rput, rget and ramo issue one operation of the remote class and send its request; a full class holds them, and an address of
ramo that is not aligned in its target is MISALIGN. R225, R372: coll answers −2 for a descriptor that is not valid, −1 while the
partition's queue is full, and otherwise takes the next sequence number as its answer and issues one operation of the remote class. The
model's own reading or choice in it: the length of the queue beyond one and the first sequence number (log 20), −2 outside a span (log
38). -/
def Obligations.RemoteIssueResults : Prop :=
  ((∀ (s : State) (r : Row) (d a : Reg), s.RowIssues false true r → r.full 3 = false →
    (∀ x y, HoldsShape s r d true x → HoldsShape s r a false y → x.count = y.count →
      copyCheck x y = none → exec (.rput d a) s = .next ((((issues s.popIssue r (.rput x y) (some 3) none).send
        [1, 1, s.clock.nextId, x.base]).stripNr r.id 4).finish (.ctl r.id))) ∧
    (∀ x y, HoldsShape s r d false x → HoldsShape s r a true y → x.count = y.count →
      copyCheck x y = none → exec (.rget d a) s = .next ((((issues s.popIssue r (.rget x y) (some 3) r.th.landing).send
        [1, 2, s.clock.nextId, y.base]).stripNr r.id 4).finish (.ctl r.id)))) ∧
  (∀ (s : State) (r : Row) (d a b : Reg) (op : AmoSel) (od : Order), s.RowIssues false false r →
    let ad := r.th.getX a
    (ad.toNat % 2 ^ 50 % (if op.word then 4 else 8) ≠ 0 → Raises (.ramo d a b op od) s (.ctl r.id) r.th.pc .misalign ad.toNat) ∧
    (ad.toNat % 2 ^ 50 % (if op.word then 4 else 8) = 0 → r.full 3 = true → r.stepping = none → Retries (.ramo d a b op od) s) ∧
    (ad.toNat % 2 ^ 50 % (if op.word then 4 else 8) = 0 → r.full 3 = false →
      (releases od = true → s.popIssue.releaseOk (.ctl r.id) .dom = true) →
      exec (.ramo d a b op od) s = .next ((((issues s.popIssue r (.ramo d op.op op.word od ad (r.th.getX b) (r.th.getX d)) (some 3)
        none).stripNr r.id 4).send [1, 3, s.clock.nextId, ad.toNat, op.code, (r.th.getX b).toNat, (r.th.getX d).toNat]).finish
          (.ctl r.id))))) ∧
  (∀ (s : State) (r : Row) (d a : Reg), s.RowIssues false false r → r.full 3 = false → (r.th.getX a).toNat % 64 = 0 →
    ∀ ls w, Reads s.popIssue (.ctl r.id) (r.th.getX a).toNat 64 false false ls w →
      let t := Tid.ctl r.id
      let u := fetchedBy s w t ls
      let desc := dwordsOf 8 (w.homeBytes r.part ls)
      let v := u.stripNr r.id 4
      let held := (u.ops.filter fun o => o.part == r.part && (match o.kind with | .coll .. => true | _ => false)).length
      (collOk u r.part desc = false → Completes (.coll d a) s t d (BitVec.ofInt 64 (-2)) v) ∧
      (collOk u r.part desc = true → Config.collQueue ≤ held → Completes (.coll d a) s t d (BitVec.ofInt 64 (-1)) v) ∧
      (collOk u r.part desc = true → held < Config.collQueue → (desc.headD 0 % 2 ^ 8 = 4 → v.releaseOk t .dom = true) →
        let n := (u.part r.part).collSeq
        Completes (.coll d a) s t d (BitVec.ofNat 64 n) (((issues v r (.coll desc (desc.getD 5 0) n) (some 3) none).modPart r.part
          fun q => { q with collSeq := n + 1 }).send (1 :: 4 :: u.clock.nextId :: desc))))

/-- R100, R103, R140, R252: outside matrix mode a matrix word is WRONGSTREAM; in it, with its conditions met and a place in its class, it
issues its operation and the thread goes on.
R264 to R266: mdrain and mdrain.sz with an armed drain block issue a drain of n + 1 rows under it; with none armed they are ILLOP.
R246, R247: mxon of a row that declares 32 registers closes its strip and enters matrix mode where the unit is free: VGRP is EW 32, G 8,
VL is VLMAX, MXROW and MXK are 0, v15 to v31 are matrix-held with HWM 16 × W and, without `keep`, 0; where another row holds the unit it
waits.
R249, R268: mstat reads the unit once the row's matrix operations are done; mxoff then frees the unit and leaves v24 to v31 tagged f32,
v15 to v23 zero with no tag, and the row out of matrix mode. Outside matrix mode both are WRONGSTREAM. -/
def Obligations.MatrixWordResults : Prop :=
  (∀ (s : State) (r : Row) (i : Instr) (counted : Bool) (kind : OpKind) (ok : Prop), s.RowIssues false true r →
    matrixForm s r i = some (counted, kind, ok) →
    (r.mxon = false → Raises i s (.ctl r.id) r.th.pc .wrongstream) ∧
    (r.mxon = true → ok → counted = true → r.full 1 = true → r.stepping = none → Retries i s) ∧
    (r.mxon = true → ok → (counted = true → r.full 1 = false) →
      exec i s = .next ((issues s.popIssue r kind (if counted then some 1 else none) none).finish (.ctl r.id)))) ∧
  (∀ (s : State) (r : Row) (n : BitVec 6) (vs vz : Reg), s.RowIssues false true r → r.mxon = true →
    (r.drain = none → Raises (.mdrain n) s (.ctl r.id) r.th.pc .illop ∧ Raises (.mdrainSz vs vz n) s (.ctl r.id) r.th.pc .illop) ∧
    (∀ b, r.drain = some b → r.full 1 = false →
      exec (.mdrain n) s = .next ((issues s.popIssue r (.mdrain (n.toNat + 1) none b) (some 1) none).finish (.ctl r.id)) ∧
      (r.zp = true → ∀ ts tz, matVec r (s.slice r) vs (·.isFloat) = .ok ts → matVec r (s.slice r) vz (·.isFloat) = .ok tz →
        exec (.mdrainSz vs vz n) s =
          .next ((issues s.popIssue r (.mdrain (n.toNat + 1) (some (vs, vz)) b) (some 1) none).finish (.ctl r.id))))) ∧
  (∀ (s : State) (r : Row) (zp band keep : Bool), s.RowIssues false true r →
    (r.threadLive = true → Raises (.mxon zp band keep) s (.ctl r.id) r.th.pc .threadlive) ∧
    (r.threadLive = false → (r.nregCode ≠ 3 ∨ (zp && band) = true) → Raises (.mxon zp band keep) s (.ctl r.id) r.th.pc .illop) ∧
    (r.threadLive = false → r.nregCode = 3 → (zp && band) = false →
      (keep = true → ∀ k < 8, ((s.slice r).reg (24 + k)).tag = .f32) → canClose s r →
      let c := stripClosed s.popIssue r
      let unit := (c.cluster r.cluster).mx
      (unit.holder = none → unit.waiting.head?.getD r.id = r.id →
        ∃ u : State, exec (.mxon zp band keep) s = .next (u.finish (.ctl r.id)) ∧ (u.cluster r.cluster).mx.holder = some r.id ∧
          (u.slice r).ew = 2 ∧ (u.slice r).grp = 3 ∧ (u.slice r).vl = 128 * r.w ∧
          (∃ q, u.row? r.id = some q ∧ q.mxon = true ∧ q.zp = zp ∧ q.band = band ∧ q.mxrow = 0 ∧ q.mxk = 0 ∧ q.drain = none) ∧
          (∀ n, 15 ≤ n → n ≤ 31 → ((u.slice r).reg n).tag = .macc ∧ ((u.slice r).reg n).hwm = 16 * r.w) ∧
          (∀ n e, 15 ≤ n → n ≤ (if keep then 23 else 31) → e < 16 * r.w → (u.slice r).elem r.w n 32 e = 0)) ∧
      (∀ q, unit.holder = some q → q ≠ r.id → r.id ∉ unit.waiting → r.stepping = none →
        exec (.mxon zp band keep) s = .next ((c.modCluster r.cluster fun k =>
          { k with mx := { k.mx with waiting := k.mx.waiting ++ [r.id] } }).setWait (.ctl r.id) (some .mxon))))) ∧
  (∀ (s : State) (r : Row) (d : Reg), s.RowIssues false true r →
    (r.mxon = false → Raises .mxoff s (.ctl r.id) r.th.pc .wrongstream ∧ Raises (.mstat d) s (.ctl r.id) r.th.pc .wrongstream) ∧
    (r.mxon = true → matrixQuiet s r →
      WritesReg (.mstat d) s (.ctl r.id) r.th d (BitVec.ofNat 64 (s.cluster r.cluster).mx.stat) ∧
      ((r.band = true → (s.cluster r.cluster).mx.bandk = 0) →
        ∃ u : State, exec .mxoff s = .next (u.finish (.ctl r.id)) ∧ (u.cluster r.cluster).mx.holder = none ∧
          (∃ q, u.row? r.id = some q ∧ q.mxon = false ∧ q.zp = false ∧ q.band = false ∧ q.drain = none) ∧
          (∀ n, 24 ≤ n → n ≤ 31 → ((u.slice r).reg n).tag = .f32 ∧ ((u.slice r).reg n).hwm = 16 * r.w) ∧
          (∀ n, 15 ≤ n → n ≤ 23 → ((u.slice r).reg n).tag = .none ∧ ((u.slice r).reg n).hwm = 0) ∧
          (∀ n, n < 15 → (u.slice r).reg n = (s.slice r).reg n))))

/-- R31, R104, R105, R137: vf with a strip open queues the block its target decodes to, with the scalar registers and the bank captured, behind
blocks that have not ended one that is decoded when it starts; without a strip it is NOSTRIP; a block that does not decode whole is the
fault of its first failing word, with HEADER the block and RESUME the vf.
R264: vf.d in matrix mode arms the drain block its target decodes to; a block that does not decode leaves the earlier arming; outside
matrix mode it is WRONGSTREAM. The model's own reading in it: that a block behind others is decoded when it starts (log 56). -/
def Obligations.BlockIssueResults : Prop :=
  (∀ (s : State) (r : Row) (disp : BitVec 21), s.RowIssues true true r → r.blocks = [] →
    let target := r.th.pc + 4 * disp.signExtend 64
    ((s.slice r).strip.opn = false → Raises (.vf disp) s (.ctl r.id) r.th.pc .nostrip) ∧
    ((s.slice r).strip.opn = true →
      (∀ hd ws, decodeBlock .vf s.popIssue r target = .ok (hd, ws) →
        exec (.vf disp) s = .next ((s.popIssue.modRow r.id fun q =>
          { q with blocks := q.blocks ++ [{ vfpc := r.th.pc, header := target, hd := hd, words := ws, idx := 0, started := false
                                            x := r.th.x, sb := r.sb, xs := r.th.x, ops := [], flagged := [], sends := [], rcvd := []
                                            late := false, since := s.clock.cycle }]
                   stepVf := if q.stepping.isSome then some r.th.pc else none }).finish (.ctl r.id))) ∧
      (∀ p c, decodeBlock .vf s.popIssue r target = .error (p, c) →
        exec (.vf disp) s = .next (s.popIssue.raise (.ctl r.id) { code := c, pc := p, header := target, resume := some r.th.pc })))) ∧
  (∀ (s : State) (r : Row) (disp : BitVec 21), s.RowIssues true true r → r.blocks ≠ [] → (s.slice r).strip.opn = true →
    exec (.vf disp) s = .next ((s.popIssue.modRow r.id fun q =>
      { q with blocks := q.blocks ++ [{ vfpc := r.th.pc, header := r.th.pc + 4 * disp.signExtend 64, hd := Header.unread, words := [], idx := 0
                                        started := false, x := r.th.x, sb := r.sb, xs := r.th.x, ops := [], flagged := [], sends := []
                                        rcvd := [], late := true, since := s.clock.cycle }] }).finish (.ctl r.id))) ∧
  (∀ (s : State) (r : Row) (disp : BitVec 21), s.RowIssues false true r →
    let target := r.th.pc + 4 * disp.signExtend 64
    (r.mxon = false → Raises (.vfD disp) s (.ctl r.id) r.th.pc .wrongstream) ∧
    (r.mxon = true → ∀ hd ws, decodeBlock .drain s.popIssue r target = .ok (hd, ws) →
      exec (.vfD disp) s = .next ((s.popIssue.modRow r.id fun q =>
        { q with drain := some { header := target, hd := hd, words := ws, x := r.th.x, sb := r.sb, rm := none } }).finish (.ctl r.id))) ∧
    (r.mxon = true → ∀ p c, decodeBlock .drain s.popIssue r target = .error (p, c) →
      exec (.vfD disp) s = .next (s.popIssue.raise (.ctl r.id) { code := c, pc := p, header := target, resume := some r.th.pc })))

/-- R25, R67, R149 to R157, R175: the integer words. With both operands readable, an integer operating type and a destination that may be
written, each active element takes the rule's result in that type, in lockstep and for a VP; comparisons write mask bits; with no active
element nothing is written, but that a comparison leaves its mask in bitmask form (R73). The model's own reading in it: a source without a tag of vclz,
vpop, vabs and vneg is of the tag of vd (log 10). -/
def Obligations.LaneIntegerResults : Prop :=
  ∀ (s : State) (r : Row) (v : LV) (i : Instr), v.sl.parity = [] →
    (∀ signed f vd va src m, laneInt2 i = some (signed, f, vd, va, src, m) →
      (v.active m = [] → Leaves i s r v (v.noteMask m)) ∧
      ∀ a b u T w, ReadsTwo v va src m a b u → opType (a.tag.getD .none) b = some T → T.isInt = true →
        u.put vd T ((v.active m).zip (each2 T.width (f T.width) (a.as T signed) (b.as T signed))) = .ok w → Leaves i s r v w) ∧
    (∀ f vd src m, laneInt1 i = some (f, vd, src, m) →
      (v.active m = [] → Leaves i s r v (v.noteMask m)) ∧
      ∀ b u T w, ReadsOne v src m b u → T = b.tag.getD (u.sl.reg vd).tag → T.isInt = true →
        u.put vd T ((v.active m).zip ((b.as T true).map fun x => (f T.width (BitVec.ofNat _ x)).toNat)) = .ok w → Leaves i s r v w) ∧
    (∀ signed f md va src m, laneCmp i = some (signed, f, md, va, src, m) →
      (v.active m = [] → ∀ w, (v.noteMask m).putMask md [] = .ok w → Leaves i s r v w) ∧
      ∀ a b u T w, ReadsTwo v va src m a b u → opType (a.tag.getD .none) b = some T → T.isInt = true →
        u.putMask md ((v.active m).zip (List.zipWith (fun x y => f T.width (BitVec.ofNat _ x) (BitVec.ofNat _ y))
          (a.as T signed) (b.as T signed))) = .ok w → Leaves i s r v w)

/-- R155, R156, R158: vmv copies a vector with its tag, or writes another source under the tag of vd; vsel takes each element from va
where the mask is set and from the source where it is not; vidx writes each element's number and vimm a constant under the tag of vd. The
model's own reading or choice in it: a stream entry whose tag is not that of the destination (log 68). -/
def Obligations.LaneMoveResults : Prop :=
  ∀ (s : State) (r : Row) (v w : LV) (vd va : Reg) (src : Src) (m : MaskReg) (imm : BitVec 10), v.sl.parity = [] →
    (∀ x b u, src = .vec x → ReadsOne v src m b u → u.put vd (u.tagOf x) ((v.active m).zip b.vals) = .ok w → Leaves (.vmv vd src m) s r v w) ∧
    (∀ b u, (∀ x, src ≠ .vec x) → ReadsOne v src m b u → (u.sl.reg vd).tag ≠ .none → (u.sl.reg vd).tag ≠ .macc →
      u.put vd (u.sl.reg vd).tag ((v.active m).zip (b.as (u.sl.reg vd).tag true |>.map (· % 2 ^ (u.sl.reg vd).tag.width))) = .ok w →
      Leaves (.vmv vd src m) s r v w) ∧
    (∀ a b t u T, v.acts ≠ [] → (v.noteMask m).vec va v.acts = .ok (a, t) → t.src src v.acts = .ok (b, u) → a.tag = some T →
      (∀ x, src = .vec x → b.tag = some T) →
      u.put vd T (List.zipWith (fun e p => (e, if m = 0 ∨ e ∈ (v.sl.mask m).set then p.1 else p.2)) v.acts
        (a.vals.zip (b.vals.map fun x => (if b.tag.isSome then x else convTo T true none b.imm x) % 2 ^ T.width))) = .ok w →
      Leaves (.vsel vd va src m) s r v w) ∧
    (v.active m ≠ [] → (v.sl.reg vd).tag.isInt = true →
      ((v.noteMask m).put vd (v.sl.reg vd).tag ((v.active m).map fun e => (e, e % 2 ^ (v.sl.reg vd).tag.width)) = .ok w →
        Leaves (.vidx vd m) s r v w) ∧
      ((v.noteMask m).put vd (v.sl.reg vd).tag
          ((v.active m).map fun e => (e, ((imm.signExtend (v.sl.reg vd).tag.width : BitVec _)).toNat)) = .ok w →
        Leaves (.vimm vd imm m) s r v w)) ∧
    (v.active m ≠ [] → (v.sl.reg vd).tag.isFloat = true →
      let q := roundX (v.sl.reg vd).tag.ffmt (RMode.ofFrm v.r.frm) (xint imm.toInt)
      (v.noteMask m).put vd (v.sl.reg vd).tag ((v.active m).map fun e => (e, q.1)) = .ok w → Leaves (.vimm vd imm m) s r v (w.orFlags q.2))

/-- R75, R159 to R163: the widening words multiply exactly into twice the width, the narrowing shifts round by VXRM and clamp into half of
it, the saturating words clamp and set VSAT where they do, vcvt converts, and vretag gives the destination's registers a tag. -/
def Obligations.LaneFixedPointResults : Prop :=
  ∀ (s : State) (r : Row) (v : LV) (i : Instr), v.sl.parity = [] →
    (∀ sa sb acc vd va src m, laneWiden i = some (sa, sb, acc, vd, va, src, m) →
      ∀ a b u T w, ReadsTwo v va src m a b u → opType (a.tag.getD .none) b = some T → T.isInt = true → T ≠ .i64 →
        let n := T.width
        let products : List Int := List.zipWith (fun x y => asZ sa (BitVec.ofNat n x) * asZ sb (BitVec.ofNat n y)) (a.as T sa) (b.as T sb)
        (acc = false → u.put vd (intTag (2 * n)) ((v.active m).zip (products.map fun z => (BitVec.ofInt (2 * n) z).toNat)) = .ok w →
          Leaves i s r v w) ∧
        (acc = true → (u.sl.reg vd).tag = intTag (2 * n) → u.limits vd (2 * n) (v.active m) = .ok () →
          (u.noteEls vd (2 * n) (v.active m)).put vd (intTag (2 * n)) ((v.active m).zip (List.zipWith (fun (o : Nat) (z : Int) =>
            (BitVec.ofNat (2 * n) o + BitVec.ofInt (2 * n) z).toNat) ((v.active m).map (u.elem vd)) products)) = .ok w →
          Leaves i s r v w)) ∧
    (∀ signed vd va src m, (i = .vnsr vd va src m ∧ signed = false ∨ i = .vnsra vd va src m ∧ signed = true) →
      ∀ a b u A w, ReadsTwo v va src m a b u → a.tag = some A → A.isInt = true → A ≠ .i8 → (opType A b).isSome = true →
        let n := A.width
        let exact : List Int :=
          List.zipWith (fun x k => rshiftRound (asZ signed (BitVec.ofNat n x)) (k % n) v.r.vxrm) a.vals b.vals
        u.put vd (intTag (n / 2)) ((v.active m).zip (exact.map fun z => (BitVec.ofInt (n / 2) (clamp signed (n / 2) z)).toNat)) = .ok w →
        Leaves i s r v (w.orSat (exact.any fun z => decide (z ≠ clamp signed (n / 2) z)))) ∧
    (∀ signed f vd va src m, laneSat v.r.vxrm i = some (signed, f, vd, va, src, m) →
      ∀ a b u T w, ReadsTwo v va src m a b u → opType (a.tag.getD .none) b = some T → T.isInt = true →
        let n := T.width
        let exact : List Int := List.zipWith (fun x y => f (asZ signed (BitVec.ofNat n x)) (asZ signed (BitVec.ofNat n y)))
          (a.as T signed) (b.as T signed)
        u.put vd T ((v.active m).zip (exact.map fun z => (BitVec.ofInt n (clamp signed n z)).toNat)) = .ok w →
        Leaves i s r v (w.orSat (exact.any fun z => decide (z ≠ clamp signed n z)))) ∧
    (∀ vd rm vb m b u S D w, i = .vcvt vd rm vb m → v.active m ≠ [] → (v.noteMask m).vec vb (v.active m) = .ok (b, u) → b.tag = some S →
      (u.sl.reg vd).tag = D → S.isArith = true → D.isArith = true →
      let q := b.vals.map (cvtOne S D (rmMode rm v.r.frm))
      u.put vd D ((v.active m).zip (q.map (·.1))) = .ok w →
      Leaves i s r v ((w.orFlags (q.foldl (fun x p => x ||| p.2.1) 0)).orSat (q.any (·.2.2)))) ∧
    (∀ vd tag, i = .vretag vd tag → lockstepOk v → operandOk v.sl v.nreg vd tag.width = true →
      ∃ w : LV, LeavesLock i s r v w ∧ ∀ n : Nat, n < 32 → ((w.sl.reg n).bytes = (v.sl.reg n).bytes ∧ (w.sl.reg n).fill = (v.sl.reg n).fill) ∧
        ((w.sl.reg n).tag = if vd.val ≤ n ∧ n < vd.val + gop v.sl.ew v.sl.grp tag.width then tag else (v.sl.reg n).tag))

/-- R67, R83, R84, R164 to R170: the float words. Each active element takes the rounded result in the operating type and the flags of all
elements are ORed into FFLAGS; comparisons write mask bits, and vfclass an integer. The model's own reading or choice in it: the bits
vfexp2 is computed to (log 9), the tag vfclass of a source without one takes (log 10), the operands whose signalling NaN sets NV (log 39), the
type a scalar or bank source of a fused word is read in (log 65). -/
def Obligations.LaneFloatResults : Prop :=
  ∀ (s : State) (r : Row) (v : LV) (i : Instr), v.sl.parity = [] →
    (∀ f vd va src m, laneFloat2 i = some (f, vd, va, src, m) →
      ∀ a b u T w, ReadsTwo v va src m a b u → opType (a.tag.getD .none) b = some T → T.isFloat = true →
        let q := List.zipWith (f T.ffmt (RMode.ofFrm v.r.frm)) (a.as T true) (b.as T true)
        u.put vd T ((v.active m).zip (q.map (·.1))) = .ok w → Leaves i s r v (w.orFlags (allFlags q))) ∧
    (∀ np nc vd va src m, laneFma i = some (np, nc, vd, va, src, m) →
      ∀ a b c u t T w, ReadsTwo v va src m a b u → u.vec vd (v.active m) = .ok (c, t) →
        (opType (a.tag.getD .none) b).bind (fun k => combine k (c.tag.getD .none)) = some T → T.isFloat = true →
        let q := List.zipWith (fun x p => fArith3 T.ffmt (RMode.ofFrm v.r.frm) np nc x p.1 p.2) (a.as T true)
          ((b.as T true).zip (c.as T true))
        t.put vd T ((v.active m).zip (q.map (·.1))) = .ok w → Leaves i s r v (w.orFlags (allFlags q))) ∧
    (∀ f vd rm vb m, laneFloat1 i = some (f, vd, rm, vb, m) →
      ∀ b u T w, v.active m ≠ [] → (v.noteMask m).vec vb (v.active m) = .ok (b, u) → b.tag = some T → T.isFloat = true →
        let q := b.vals.map fun x => ((f T.ffmt (rmMode rm v.r.frm) (T.ffmt.decode x)).1,
          (f T.ffmt (rmMode rm v.r.frm) (T.ffmt.decode x)).2 ||| snanFlag T.ffmt [x])
        u.put vd T ((v.active m).zip (q.map (·.1))) = .ok w → Leaves i s r v (w.orFlags (allFlags q))) ∧
    (∀ anyNan f md va src m, laneFcmp i = some (anyNan, f, md, va, src, m) →
      ∀ a b u T w, ReadsTwo v va src m a b u → opType (a.tag.getD .none) b = some T → T.isFloat = true →
        let g := T.ffmt
        let nan (x y : Nat) : Bool := g.decode x == .nan || g.decode y == .nan
        let xs := a.as T true
        let ys := b.as T true
        u.putMask md ((v.active m).zip (List.zipWith (fun x y => !nan x y && f (xcmp (g.decode x) (g.decode y))) xs ys)) = .ok w →
        Leaves i s r v (w.orFlags (allFlags (List.zipWith (fun x y =>
          (0, if anyNan && nan x y then 16 else if g.isSnan x || g.isSnan y then 16 else 0)) xs ys)))) ∧
    (∀ vd src m b u T w, i = .vfclass vd src m → ReadsOne v src m b u → T = b.tag.getD (u.sl.reg vd).tag → T.isFloat = true →
      u.put vd (if T = .bf16 then .i16 else .i32) ((v.active m).zip ((b.as T true).map (classCode T.ffmt))) = .ok w → Leaves i s r v w)

/-- R171 to R174, R176: the mask logicals over the elements from VESTART, the two forms of a mask, mpop and mfirst over the elements below VL,
the running count of vpopx, and the segment lengths of vsegl clamped at 0 with VSAT set where they are. R86, R177 to R182: the slides and
the permute, vcompress and vexpand, vmatch, the reductions in the order of R86 and the running sums, each in lockstep with no VP in thread
mode. The model's own reading or choice in it: a source without a tag of vpopx, vsegl and vscan is of the tag of vd (log 10), and the neighbour
vsegl reads of a stream source is free (log 11). -/
def Obligations.MaskAndPermuteWordResults : Prop :=
  (∀ (s : State) (r : Row) (v : LV) (i : Instr), v.sl.parity = [] →
    (∀ f md ma mb w, maskLogic i = some (f, md, ma, mb) →
      ((v.noteMask ma).noteMask mb).putMask md (v.acts.map fun e => (e, f (v.sl.maskBit ma e) (v.sl.maskBit mb e))) = .ok w →
      Leaves i s r v w) ∧
    (∀ md toList, (i = .mlist md ∧ toList = true ∨ i = .mbits md ∧ toList = false) → lockstepOk v → md ≠ 0 →
      ((v.sl.mask md).list = toList → LeavesLock i s r v v) ∧
      ((v.sl.mask md).list ≠ toList → ∃ w : LV, LeavesLock i s r v w ∧
        w.sl = { v.sl with m := v.sl.m.set md { list := toList, set := (v.sl.mask md).set.filter (· < v.vlmax) } })) ∧
    (∀ (vd : Reg) (ma : MaskReg) T w, lockstepOk v → v.acts ≠ [] → (v.sl.reg vd).tag = T → T.isInt = true →
      let l := (List.range v.sl.vl).filter (v.sl.maskBit ma)
      (i = .mpop vd ma → (v.noteMask ma).put vd T (v.acts.map fun e => (e, l.length % 2 ^ T.width)) = .ok w → LeavesLock i s r v w) ∧
      (i = .mfirst vd ma → (v.noteMask ma).put vd T (v.acts.map fun e => (e, (l.head?.getD (2 ^ T.width - 1)) % 2 ^ T.width)) = .ok w →
        LeavesLock i s r v w)) ∧
    (∀ vd src m b u T w, i = .vpopx vd src m → lockstepOk v → ReadsOne v src m b u → T = b.tag.getD (u.sl.reg vd).tag → T.isInt = true →
      let xs := b.as T true
      u.put vd T ((v.active m).zip ((List.range xs.length).map fun k =>
        ((xs.take k).map fun x => ones (BitVec.ofNat T.width x)).sum % 2 ^ T.width)) = .ok w → LeavesLock i s r v w) ∧
    (∀ vd x m b u T w, i = .vsegl vd (.vec x) m → lockstepOk v → ReadsOne v (.vec x) m b u → b.tag = some T → T.isInt = true →
      let n := T.width
      let exact : List Int := (v.active m).map fun e =>
        if e + 1 < v.sl.vl then (BitVec.ofNat n (v.elem x (e + 1))).toInt - (BitVec.ofNat n (v.elem x e)).toInt else 0
      (u.noteEls x n (((v.active m).filter fun e => e + 1 < v.sl.vl).map (· + 1))).put vd T ((v.active m).zip (exact.map fun z => (max 0 (min (2 ^ (n - 1) - 1) z)).toNat)) = .ok w →
      LeavesLock i s r v ({ w with free := w.free + 1 }.orSat (exact.any fun z => decide (z < 0 ∨ 2 ^ (n - 1) ≤ z)))) ∧
    (∀ vd k m b u T w, i = .vsegl vd (.stream k) m → lockstepOk v → ReadsOne v (.stream k) m b u → b.tag = some T → T.isInt = true →
      let n := T.width
      let exact : List Int := List.zipWith (fun e x => if e + 1 < v.sl.vl then
        (BitVec.ofNat n (Config.freeNat (v.free + e))).toInt - (BitVec.ofNat n x).toInt else 0) (v.active m) (b.as T true)
      u.put vd T ((v.active m).zip (exact.map fun z => (max 0 (min (2 ^ (n - 1) - 1) z)).toNat)) = .ok w →
      LeavesLock i s r v ({ w with free := w.free + 1 }.orSat (exact.any fun z => decide (z < 0 ∨ 2 ^ (n - 1) ≤ z)))) ∧
    (∀ vd src m b u T w, i = .vsegl vd src m → (∀ x, src ≠ .vec x) → (∀ k, src ≠ .stream k) → lockstepOk v → ReadsOne v src m b u →
      T = (u.sl.reg vd).tag → T.isInt = true → u.put vd T ((v.active m).map fun e => (e, 0)) = .ok w →
      LeavesLock i s r v { w with free := w.free + 1 })) ∧
  (∀ (s : State) (r : Row) (v : LV) (i : Instr), v.sl.parity = [] → lockstepOk v →
    (∀ vd va src m f n o t u w, slideForm v i = some (vd, va, src, m, f) → ReadsAt v va m [] o t →
      operandOk v.sl v.nreg vd (v.tagOf va).width = true →
      t.src src (v.active m) = .ok (n, u) → ((∃ d a' b m', i = .vperm d a' b m') → ∀ t, n.tag = some t → t.isInt = true) →
      let moves := ((v.active m).zip n.vals).filterMap fun p => (f p.1 p.2).map fun x => (p.1, x)
      (u.noteEls va (u.tagOf va).width (moves.filterMap (·.2))).putAt ((v.active m).headD 0) vd (u.tagOf va)
        (moves.map fun p => (p.1, (p.2.map (u.elem va)).getD 0)) = .ok w → LeavesLock i s r v w) ∧
    (∀ vd va m o u w, ReadsAt v va m [] o u →
      let below := ((List.range v.lo).filter (v.sl.maskBit m)).length
      let moved (moves : List (Nat × Nat)) : Except LErr LV := (u.noteEls va (u.tagOf va).width (moves.map (·.2))).putAt
        ((v.active m).headD 0) vd (u.tagOf va) (moves.map fun p => (p.1, u.elem va p.2))
      (i = .vcompress vd va m → moved ((v.active m).zipIdx.map fun p => (below + p.2, p.1)) = .ok w → LeavesLock i s r v w) ∧
      (i = .vexpand vd va m → moved ((v.active m).zipIdx.map fun p => (p.1, below + p.2)) = .ok w → LeavesLock i s r v w)) ∧
    (∀ vd va src m a b u A D w, i = .vmatch vd va src m → ReadsTwo v va src m a b u → a.tag = some A → (b.tag = none ∨ b.tag = some A) →
      (u.sl.reg vd).tag = D → D.isInt = true → D ≠ .i8 →
      u.put vd D ((v.active m).zip ((b.vals.map fun x => if b.tag.isSome then x else convTo A true none b.imm x % 2 ^ A.width).map fun x =>
        ((a.vals.zip (v.active m)).find? fun p => p.1 == x).elim (2 ^ D.width - 1) fun p => p.2 % 2 ^ D.width)) = .ok w →
      LeavesLock i s r v w) ∧
    (∀ k vd va src m a b u t T w, reduceForm i = some (k, vd, va, src, m) → v.sl.vl ≠ 0 →
      (v.noteMask m).vec va (v.active m) = .ok (a, t) →
      ((∃ x, src = .vec x ∧ t.vecAt x (v.active m) [0] = .ok (b, u)) ∨
        (∀ x, src ≠ .vec x) ∧ t.src src [(v.active m).headD 0] = .ok (b, u)) →
      opType (a.tag.getD .none) b = some T →
      let f := redComb k T (RMode.ofFrm u.r.frm)
      let q := combO f (reduceOrder f v.r.w ((v.active m).zip (a.as T true))) (some ((b.as T true).headD 0), 0)
      u.putAt ((v.active m).headD 0) vd T [(0, q.1.getD 0)] = .ok w → LeavesLock i s r v (w.orFlags q.2)) ∧
    (∀ vd src m b u T x xs w, i = .vscan vd src m → ReadsOne v src m b u → T = b.tag.getD (u.sl.reg vd).tag → T.isArith = true →
      b.as T true = x :: xs →
      let q := (x, 0) :: scanFrom (redComb 0 T (RMode.ofFrm u.r.frm)) x xs
      u.put vd T ((v.active m).zip (q.map (·.1))) = .ok w → LeavesLock i s r v (w.orFlags (allFlags q))))

/-- R48 to R52, R183 to R185: the quad exchanges read the element the rule names, in lockstep with no VP in thread mode and for a VP alone
whose quad is complete; the queue words pass values to the next element, and out of the row at its end; in lockstep the k-th qrcv of an element
takes the k-th qsnd of the element before it in the same block, QEMPTY and QOVER are raised at the lowest element that finds no entry or no place,
and a VP waits at a queue that is full or empty; qrcv stays where the flag SETB names stands at 15 (R27, R32). -/
def Obligations.QuadAndQueueResults : Prop :=
  (∀ (s : State) (r : Row) (i : Instr) (vd vs : Reg) (m : MaskReg) (f : Nat → Nat), (s.slice r).parity = [] →
    quadForm i = some (vd, vs, m, f) →
    (∀ k o u w, s.LanesIssue r k → r.threadLive = false → ReadsAt (s.lockLV r k) vs m [] o u →
      (u.noteEls vs (u.tagOf vs).width (((s.lockLV r k).active m).map f)).put vd (u.tagOf vs)
        (((s.lockLV r k).active m).map fun e => (e, u.elem vs (f e))) = .ok w →
      exec i s = .next ((s.popIssue.putLV { w with sl := { w.sl with vestart := 0 }, free := w.free + 1 }).advanceRun r.id
        { k with sends := w.sends, rcvd := w.rcvd })) ∧
    (∀ n b q, s.VpIssues r n b q → quadReady r (s.vlmax r) b q = true →
      ∀ o u w, ReadsAt (s.thrLV r q.e) vs m [] o u →
        (u.noteEls vs (u.tagOf vs).width [f q.e]).put vd (u.tagOf vs) [(q.e, u.elem vs (f q.e))] = .ok w →
        exec i s = .next ((s.popIssue.putLV { w with free := w.free + 1 }).advanceVp r.id q.e)) ∧
    (∀ n b q, s.VpIssues r n b q → quadReady r (s.vlmax r) b q = false → classWaitOk r.cls r.cls true = true →
      (r.vp q.e).stepping = none → exec i s = .next (blocked s.popIssue (.vp r.id q.e) .quad))) ∧
  (∀ (s : State) (r : Row) (k : LaneRun) (src : Src) (vd : Reg) (m : MaskReg) (w : LV), (s.slice r).parity = [] → s.LanesIssue r k →
    (laneQsnd src m (s.lockLV r k) = .ok w → LeavesLock (.qsnd src m) s r (s.lockLV r k) w) ∧
    (setbFull s k.hd.setb (.ctl r.id) = false → laneQrcv vd m (s.lockLV r k) = .ok w → LeavesLock (.qrcv vd m) s r (s.lockLV r k) w) ∧
    (setbFull s k.hd.setb (.ctl r.id) = true → Retries (.qrcv vd m) s)) ∧
  (∀ (s : State) (r : Row) (k : LaneRun) (vss vds : List Reg), s.LanesIssue r k → r.threadLive = false → (s.slice r).vestart = 0 →
    (s.slice r).vl ≤ 2 ^ 15 → k.rcvd = [] →
    (k.words.drop k.idx).map (fun w => decodeWord w.toNat) =
      (vss.map fun v => some (.qsnd (.vec v) 0)) ++ (vds.map fun d => some (.qrcv d 0)) →
    (∀ v ∈ vss, operandOk (s.slice r) (nregOf r.nregCode) v ((s.slice r).reg v).tag.width = true) →
    ∃ tab got, s.blockSends r k = .ok (tab, got) ∧ ∀ e, FMap.getD tab e [] = if e ∈ (s.lockLV r k).acts then
      vss.map fun v => let T := ((s.slice r).reg v).tag; { v := BitVec.ofNat 64 ((s.slice r).elem r.w v T.width e % 2 ^ T.width), tag := T } else []) ∧
  (∀ (s : State) (r : Row) (k : LaneRun) (vd : Reg) (m : MaskReg), (s.slice r).parity = [] → s.LanesIssue r k → r.threadLive = false →
    setbFull s k.hd.setb (.ctl r.id) = false →
    let v := s.lockLV r k
    let T := ((s.slice r).reg vd).tag
    let entry (e : Nat) : Option QEnt := if e = 0 then r.seedQ.head? else (FMap.getD k.sends (e - 1) [])[FMap.getD k.rcvd e 0]?
    T ≠ .none → T ≠ .macc → operandOk (s.slice r) (nregOf r.nregCode) vd T.width = true →
    (v.active m ≠ [] → (∀ e ∈ v.active m, entry e ≠ none) → ∃ w, LeavesLock (.qrcv vd m) s r v w ∧
      (∀ e ∈ v.active m, ∀ q, entry e = some q → w.sl.elem r.w vd T.width e = q.v.toNat % 2 ^ T.width) ∧
      (∀ e ∈ v.active m, e ≠ 0 → FMap.getD w.rcvd e 0 = FMap.getD k.rcvd e 0 + 1) ∧
      w.r.seedQ = if 0 ∈ v.active m then r.seedQ.tail else r.seedQ) ∧
    ((s.slice r).strip.nr = false → ∀ f ∈ v.active m, entry f = none → (∀ e ∈ v.active m, e < f → entry e ≠ none) →
      exec (.qrcv vd m) s = .next (s.popIssue.raiseRow r.id
        { code := .qempty, pc := wordAddr k.header k.idx, f := some f, header := k.header, run := some k }))) ∧
  (∀ (s : State) (r : Row) (k : LaneRun) (src : Src) (m : MaskReg) (o : Opd) (u : LV), (s.slice r).parity = [] → s.LanesIssue r k →
    r.threadLive = false → (s.slice r).vl ≤ 2 ^ 15 →
    let v := s.lockLV r k
    (v.noteMask m).src src (v.active m) = .ok (o, u) → u.pend = none →
    let lane (e : Nat) : Nat := (e + 1) % r.w
    let queued (e : Nat) : Nat := (r.recvQ.filter fun q => q.1 % r.w == lane e).length + FMap.getD k.rcvd (2 ^ 20 + e) 0 +
      (k.sends.map fun q => if q.1 < e ∧ lane q.1 = lane e then q.2.length - FMap.getD k.rcvd (2 ^ 21 + (q.1 + 1)) 0 else 0).sum
    let full (e : Nat) : Prop := if e + 1 = (s.slice r).vl then 4 ≤ r.drainQ.length else 4 ≤ queued e
    (v.active m ≠ [] → (∀ e ∈ v.active m, ¬ full e) → ∃ w, LeavesLock (.qsnd src m) s r v w ∧ w.sl = u.sl ∧
      (∀ e ∈ v.active m, e + 1 ≠ (s.slice r).vl → FMap.getD w.rcvd (2 ^ 20 + e) 0 = FMap.getD k.rcvd (2 ^ 20 + e) 0 + 1) ∧
      w.r.drainQ.take r.drainQ.length = r.drainQ ∧ ((s.slice r).vl - 1 ∈ v.active m → (s.slice r).vl ≠ 0 →
        ∃ q, w.r.drainQ = r.drainQ ++ [q] ∧ q.v.toNat % 2 ^ q.tag.width = o.vals.getLastD 0 % 2 ^ q.tag.width ∧ q.tag = o.tag.getD .i64)) ∧
    ((s.slice r).strip.nr = false → ∀ f ∈ v.active m, full f → (∀ e ∈ v.active m, e < f → ¬ full e) →
      exec (.qsnd src m) s = .next (s.popIssue.raiseRow r.id
        { code := .qover, pc := wordAddr k.header k.idx, f := some f, header := k.header, run := some k }))) ∧
  (∀ (s : State) (r : Row) (n : Nat) (b : Bundle) (q : BMem) (src : Src) (vd : Reg) (m : MaskReg), (s.slice r).parity = [] →
    s.VpIssues r n b q → (s.slice r).maskBit m q.e = true → setbFull s b.hd.setb (.vp r.id q.e) = false →
    let v := s.thrLV r q.e
    let T := ((s.slice r).reg vd).tag
    let waits (i : Instr) : Prop := classWaitOk r.cls r.cls true = true → (r.vp q.e).stepping = none →
      exec i s = .next (blocked s.popIssue (.vp r.id q.e) .queue)
    (∀ o u, v.src src [q.e] = .ok (o, u) → u.pend = none →
      let x := o.vals.headD 0
      let entry : QEnt := match o.tag with
        | some t => { v := BitVec.ofNat 64 (x % 2 ^ t.width), tag := t }
        | none => { v := BitVec.ofNat 64 x, tag := .i64 }
      let full := if q.e + 1 = s.vlmax r then 4 ≤ r.drainQ.length else 4 ≤ laneEntries r ((q.e + 1) % r.w)
      let sent : Row := if q.e + 1 = s.vlmax r then { u.r with drainQ := u.r.drainQ ++ [entry] }
        else { u.r with recvQ := u.r.recvQ ++ [(q.e + 1, entry)] }
      (full → waits (.qsnd src m)) ∧
      (¬ full → exec (.qsnd src m) s = .next ((s.popIssue.putLV { u with r := sent }).advanceVp r.id q.e))) ∧
    (operandOk v.sl v.nreg vd T.width = true → T ≠ .none → T ≠ .macc →
      (if q.e = 0 then r.seedQ = [] else ∀ p ∈ r.recvQ, p.1 ≠ q.e) → waits (.qrcv vd m)) ∧
    (∀ entry rest w, T ≠ .none → T ≠ .macc → q.e = 0 → r.seedQ = entry :: rest →
      ({ v with r := { r with seedQ := rest } } : LV).put vd T [(0, entry.v.toNat % 2 ^ T.width)] = .ok w →
      exec (.qrcv vd m) s = .next ((s.popIssue.putLV w).advanceVp r.id q.e)) ∧
    (∀ entry w, T ≠ .none → T ≠ .macc → q.e ≠ 0 → r.recvQ.find? (·.1 == q.e) = some (q.e, entry) →
      ({ v with r := { r with recvQ := dropFirst q.e r.recvQ } } : LV).put vd T [(q.e, entry.v.toNat % 2 ^ T.width)] = .ok w →
      exec (.qrcv vd m) s = .next ((s.popIssue.putLV w).advanceVp r.id q.e)))

/-- R58, R69 to R72, R150: an element written reads back, any element none of whose bytes it has is unchanged, HWM of its register rises to
cover it and of no other register changes, and VDIRTY marks its register; a destination write gives its registers the result's tag, which is TAGMIX for a VP and THREADLIVE
with a VP in thread mode where the tag changes, and ILLOP outside the register limits. -/
def Obligations.LaneDestinationRules : Prop :=
  (∀ (sl : Slice) (w vB t e x : Nat), 0 < w → t ∈ [8, 16, 32, 64] → vB + e / w * (t / 8) / 64 < 32 →
    let u := sl.setElem w vB t e x
    let home := vB + e / w * (t / 8) / 64
    u.elem w vB t e = x % 2 ^ t ∧
    (∀ vC t' e', (∀ j < t' / 8, ∀ k < t / 8, byteLoc w vC (t' / 8) e' j ≠ byteLoc w vB (t / 8) e k) →
      u.elem w vC t' e' = sl.elem w vC t' e') ∧
    (u.reg home).hwm = max (sl.reg home).hwm (e - e / w * (t / 8) / 64 * w * (64 / (t / 8)) + 1) ∧
    (∀ n, n ≠ home → (u.reg n).hwm = (sl.reg n).hwm) ∧ (∀ n, (u.reg n).tag = (sl.reg n).tag) ∧
    u.vdirty = sl.vdirty ||| BitVec.ofNat 32 (2 ^ home) ∧ u.vl = sl.vl ∧ u.m = sl.m) ∧
  (∀ (v : LV) (vd : Reg) (T : Tag) (e x : Nat) (l : List (Nat × Nat)), v.pend = none →
    let written := (((e, x) :: l).map fun p => vd.val + p.1 / v.r.w * (T.width / 8) / 64).dedup
    v.put vd T [] = .ok v ∧
    (operandOk v.sl v.nreg vd T.width = false → v.put vd T ((e, x) :: l) = .error (.fault .illop e 0 0 0)) ∧
    (operandOk v.sl v.nreg vd T.width = true →
      let span := (List.range (gop v.sl.ew v.sl.grp T.width)).map (vd.val + ·)
      ((∀ n ∈ span, (v.sl.reg n).tag = T) → v.put vd T ((e, x) :: l) = .ok { v with
        sl := ((e, x) :: l).foldl (fun sl p => sl.setElem v.r.w vd T.width p.1 p.2) v.sl, wr := v.wr ++ written }) ∧
      ((∃ n ∈ span, (v.sl.reg n).tag ≠ T) → v.thr ≠ none → v.put vd T ((e, x) :: l) = .error (.fault .tagmix e 0 0 0)) ∧
      ((∃ n ∈ span, (v.sl.reg n).tag ≠ T) → v.thr = none → v.r.threadLive = true →
        v.put vd T ((e, x) :: l) = .error (.fault .threadlive e 0 0 0)) ∧
      ((∃ n ∈ span, (v.sl.reg n).tag ≠ T) → v.thr = none → v.r.threadLive = false → v.put vd T ((e, x) :: l) = .ok { v with
        sl := ((e, x) :: l).foldl (fun sl p => sl.setElem v.r.w vd T.width p.1 p.2) (span.foldl (fun sl n => sl.giveTag n T) v.sl)
        wr := v.wr ++ (span.filter fun n => (v.sl.reg n).tag != T) ++ written })) ∧
  (∀ (sl : Slice) (n : Nat) (T : Tag), n < 32 → ((sl.giveTag n T).reg n).tag = T ∧ ((sl.giveTag n T).reg n).hwm = 0 ∧
    (∀ k, k ≠ n → (sl.giveTag n T).reg k = sl.reg k) ∧
    (sl.giveTag n T).vdirty = if (sl.reg n).tag = T then sl.vdirty else sl.vdirty ||| BitVec.ofNat 32 (2 ^ n)))

/-- R79, R193, R195: the places of the elements. In a format of whole bytes: base plus element times size; base plus element times the stride in
x[vx]; base plus (element times fields plus field) times size; base plus the sign-extended index of a register tagged with an integer type.
At unit stride i4 packs two elements to a byte and b1 eight; fp4b takes 96-byte records of 128 elements at a base that is a multiple of 32, and
e4m3b 136-byte records at a multiple of 8, and another base is misaligned. -/
def Obligations.VectorElementPlaces : Prop :=
  ∀ (v : LV) (th : Thread) (fmt : Fmt) (T : Tag) (xb vx : Reg) (acts : List Nat),
    let b : Word := if xb = 0 then 0 else v.x[xb]
    let st : Word := if vx = 0 then 0 else v.x[vx]
    (∀ n, wholeBytes T fmt = some n →
      (∃ p, vplan .unit fmt T xb vx v acts th = .ok p ∧ p.v = v ∧ p.acts = acts ∧ p.bad = none ∧ p.nf = 1 ∧
        p.spots = acts.map fun e => wholeSpot e 0 (b + BitVec.ofNat 64 (e * n)) n) ∧
      (∃ p, vplan .strided fmt T xb vx v acts th = .ok p ∧ p.v = v ∧ p.acts = acts ∧ p.bad = none ∧ p.nf = 1 ∧
        p.spots = acts.map fun e => wholeSpot e 0 (b + BitVec.ofNat 64 e * st) n) ∧
      (∃ p, vplan .seg fmt T xb vx v acts th = .ok p ∧ p.v = v ∧ p.acts = acts ∧ p.bad = none ∧ p.nf = vx.val + 1 ∧
        p.spots = acts.flatMap fun e => (List.range (vx.val + 1)).map fun j =>
          wholeSpot e j (b + BitVec.ofNat 64 ((e * (vx.val + 1) + j) * n)) n) ∧
      (∀ o w t, v.vec vx acts = .ok (o, w) → o.tag = some t → t.isInt = true →
        ∃ p, vplan .indexed fmt T xb vx v acts th = .ok p ∧ p.v = w ∧ p.acts = acts ∧ p.bad = none ∧ p.nf = 1 ∧
          p.spots = (acts.zip o.vals).map fun q => wholeSpot q.1 0 (b + (BitVec.ofNat t.width q.2).signExtend 64) n)) ∧
    (∀ e, (runSpot .i4 T b.toNat e e).pieces = [((b + BitVec.ofNat 64 (e / 2)).toNat, 1)] ∧ (runSpot .i4 T b.toNat e e).shift = 4 * (e % 2) ∧
      (runSpot .b1 T b.toNat e e).pieces = [((b + BitVec.ofNat 64 (e / 8)).toNat, 1)] ∧ (runSpot .b1 T b.toNat e e).shift = e % 8 ∧
      (runSpot .fp4b T b.toNat e e).pieces = [((b + BitVec.ofNat 64 (e / 128 * 96 + e % 128 / 2)).toNat, 1),
        ((b + BitVec.ofNat 64 (e / 128 * 96 + 64 + e % 128 / 8)).toNat, 1), ((b + BitVec.ofNat 64 (e / 128 * 96 + 80)).toNat, 2)] ∧
      (runSpot .e4m3b T b.toNat e e).pieces = [((b + BitVec.ofNat 64 (e / 128 * 136 + e % 128)).toNat, 1),
        ((b + BitVec.ofNat 64 (e / 128 * 136 + 128)).toNat, 2)]) ∧
    (∀ f ∈ [Fmt.i4, .b1, .fp4b, .e4m3b], ∃ p, vplan .unit f T xb vx v acts th = .ok p ∧ p.v = v ∧ p.acts = acts ∧
      p.spots = acts.map (fun e => runSpot f T b.toNat e e) ∧
      (p.bad ≠ none ↔ acts ≠ [] ∧ ((f = .fp4b ∧ b.toNat % 32 ≠ 0) ∨ (f = .e4m3b ∧ b.toNat % 8 ≠ 0))))

/-- R193 to R201, R207: a vector load over an open strip reads the bytes of each active element at its place and writes each value under the
tag its format gives; with no active element it only goes on, a mask destination in bitmask form. A register limit is ILLOP, no open strip
NOSTRIP, and the lowest element that faults is taken with its addresses, one that does not translate as one with a poisoned byte (MEMERR).
R140, R205, R206: a far gather translates its addresses, leaves its destination elements undefined, and issues one operation of the gather
class, with no active element too, whose bytes under an earlier store of the strip stay undefined; a full class holds it. -/
def Obligations.VectorLoadResults : Prop :=
  (∀ (s : State) (r : Row) (i : Instr) (mode : VMode) (fmt : Fmt) (vd xb vx : Reg) (m : MaskReg), s.RowIssues false true r →
    vloadForm i = some (mode, fmt, vd, xb, vx, m) →
    let t := Tid.ctl r.id
    let v0 := s.ctlLV r
    let f0 := formFmt v0 mode fmt vx
    let ok := vlimits mode f0 (f0.resultTag (v0.tagOf vd)) vd vx v0
    (ok = false → Raises i s t r.th.pc .illop) ∧
    (ok = true → (s.slice r).strip.opn = false → Raises i s t r.th.pc .nostrip) ∧
    (ok = true → (s.slice r).strip.opn = true →
      let s1 := s.popIssue.settle r.id
      let r1 := (s1.row? r.id).getD r
      let v := (s1.ctlLV r1).noteMask m
      let acts := v.active m
      (acts = [] → exec i s = .next (vectorDone (s1.putLV (if f0 = .b1 then bitmaskForm v vd.val else v)) r1)) ∧
      ∀ p, acts ≠ [] → vplan mode fmt (fmt.resultTag (v.tagOf vd)) xb vx v acts r.th = .ok p →
        let T := p.fmt.resultTag (v.tagOf vd)
        (p.acts = [] → exec i s = .next (vectorDone (s1.putLV (if p.fmt = .b1 then bitmaskForm p.v vd.val else p.v)) r1)) ∧
        (p.acts ≠ [] → (p.fmt = .native → (v.tagOf vd).isArith = true) →
          ∀ cb, (if p.fmt = .q4l then codebook p.v vx else some []) = some cb →
          (∀ ls u, p.bad = none → manyLocs s1 (s1.acc t) false false p.spots = .ok (ls, u) →
            (∀ q ∈ p.spots.zip ls, u.spotPoison q.1 q.2 = none) → v.sl.parity = [] → mayTag v vd.val T p.nf →
            let vals := (p.spots.zip ls).map fun q => (q.1, spotValue p.fmt cb q.1.shift (q.2.map fun l => l.map (u.vecByte v.r)))
            let c := u.refresh r1.cluster ls.flatten.flatten
            ∃ w, vloadPut { p.v with free := c.clock.free + 1 } p.fmt vd T p.nf (vals.map fun q => (q.1, q.2.1)) = .ok w ∧
              exec i s = .next (vectorDone (c.putLV (w.orFlags (vals.foldl (fun x q => x ||| q.2.2) 0))) r1)) ∧
          (∀ q f ls u, planLocs s1 (s1.acc t) false false p.spots p.bad = .error (q, f) → (s1.slice r1).strip.nr = false →
            manyLocs s1 (s1.acc t) false false (p.spots.filter fun x => decide (x.e < q.e)) = .ok (ls, u) →
            (∀ x ∈ (p.spots.filter fun x => decide (x.e < q.e)).zip ls, u.spotPoison x.1 x.2 = none) → v.sl.parity = [] → mayTag v vd.val T p.nf →
            exec i s = .next (s1.raise t { code := f.code, pc := r.th.pc, f := some q.e, addr1 := f.addr1, addr2 := f.addr2, field := q.field })) ∧
          (∀ ls u n q a, p.bad = none → manyLocs s1 (s1.acc t) false false p.spots = .ok (ls, u) → (s1.slice r1).strip.nr = false →
            (p.spots.zip ls)[n]? = some q → (∀ x ∈ (p.spots.zip ls).take n, u.spotPoison x.1 x.2 = none) → u.spotPoison q.1 q.2 = some a →
            v.sl.parity = [] → mayTag v vd.val T p.nf →
            exec i s = .next (s1.raise t { code := .memerr, pc := r.th.pc, f := some q.1.e, addr1 := a, field := q.1.field }))))) ∧
  (∀ (s : State) (r : Row) (fmt : Fmt) (vd xb vx : Reg) (m : MaskReg), s.RowIssues false true r →
    let t := Tid.ctl r.id
    let v0 := s.ctlLV r
    vlimits .indexed fmt (fmt.resultTag (v0.tagOf vd)) vd vx v0 = true → (s.slice r).strip.opn = true →
    (255 ≤ r.cnt.getD 2 0 → Retries (.vfg vd xb vx fmt m) s) ∧
    (r.cnt.getD 2 0 < 255 →
      let s1 := s.popIssue.settle r.id
      let r1 := (s1.row? r.id).getD r
      let v := (s1.ctlLV r1).noteMask m
      let acts := v.active m
      let T := fmt.resultTag (v.tagOf vd)
      let regs := (List.range (gop v.sl.ew v.sl.grp T.width)).map (vd.val + ·)
      (acts = [] → exec (.vfg vd xb vx fmt m) s = .next (vectorDone (issues (s1.putLV v) { r1 with th := r.th }
        (.vfg vd fmt T s1.clock.free [] false) (some 2) none) r1)) ∧
      ∀ p, acts ≠ [] → vplan .indexed fmt T xb vx v acts r.th = .ok p → (fmt = .native → (v.tagOf vd).isArith = true) →
        ∀ ls u, manyLocs s1 (s1.acc t) false false p.spots = .ok (ls, u) → (∀ q ∈ p.spots.zip ls, u.spotPoison q.1 q.2 = none) →
          v.sl.parity = [] → mayTag v vd.val T 1 →
          ∃ w, { p.v with free := u.clock.free + 1 }.retag vd T (lowest acts) = .ok w ∧
            let els := (p.spots.zip ls).map fun (q : Spot × List (List Loc)) =>
              (q.1.e, (q.1.pieces.headD (0, 0)).1, q.2.flatten.map fun l => if itemsHit r1.buf [l.key] then none else some l)
            let c := (u.putLV { awaiting w vd T acts with wr := p.v.wr }).modRow r.id fun q => { q with swr := (q.swr ++ regs).dedup }
            exec (.vfg vd xb vx fmt m) s = .next (vectorDone (issues c { r1 with th := r.th } (.vfg vd fmt T w.free els false) (some 2) none) r1)))

/-- R197 to R200, R203, R204, R207, R237: a vector store over an open strip translates its elements and buffers what it stores; no byte of
memory changes until the buffer travels. A register limit is ILLOP, no open strip NOSTRIP, a record of a banded format in vstt ILLOP, and a
misaligned or untranslated element is taken at the lowest such, with what the translations before it leave (R349). -/
def Obligations.VectorStoreResults : Prop :=
  ∀ (s : State) (r : Row) (i : Instr) (mode : VMode) (fmt : Fmt) (add : Bool) (vd xb vx : Reg) (m : MaskReg), s.RowIssues false true r →
    vstoreForm i = some (mode, fmt, add, vd, xb, vx, m) →
    let t := Tid.ctl r.id
    let v0 := s.ctlLV r
    let ok := vlimits mode (formFmt v0 mode fmt vx) (v0.tagOf vd) vd vx v0
    (ok = false → Raises i s t r.th.pc .illop) ∧
    (ok = true → (s.slice r).strip.opn = false → Raises i s t r.th.pc .nostrip) ∧
    (ok = true → (s.slice r).strip.opn = true →
      let s1 := s.popIssue
      let v := (s1.ctlLV r).noteMask m
      let T := v.tagOf vd
      let acts := v.active m
      (acts = [] → exec i s = .next (vectorDone (s1.putLV v) r)) ∧
      ∀ p, acts ≠ [] → vplan mode fmt T xb vx v acts r.th = .ok p →
        let banded := mode = .tensor ∧ (p.fmt = .fp4b ∨ p.fmt = .e4m3b)
        let seen := vstoreSeen mode fmt add vd xb vx r.th (s1.ctlLV r) acts s1
        (p.acts = [] → exec i s = .next (vectorDone (s1.putLV p.v) r)) ∧
        (p.acts ≠ [] → banded → (s.slice r).strip.nr = false →
          exec i s = .next (seen.raise t { code := .illop, pc := r.th.pc, f := some (lowest p.acts) })) ∧
        (p.acts ≠ [] → ¬ banded →
          (add = true → (T = .i32 ∨ T = .i64 ∨ T = .f32) ∧ (p.fmt = .native ∨ p.fmt = T.native)) →
          (add = false → p.fmt ≠ .b1 → storeKindOk T p.fmt = true) →
          (∀ ls u, (add = false → p.bad = none) → (add = true → ∀ q ∈ p.spots, (q.pieces.headD (0, 0)).1 % fmtBytes p.fmt T = 0) →
            manyLocs s1 (s1.acc t) true add p.spots = .ok (ls, u) → (add = true → ∀ q ∈ p.spots.zip ls, u.spotPoison q.1 q.2 = none) →
            v.sl.parity = [] →
            let vals := (p.spots.zip ls).map fun q => (q.1, q.2.flatten, storedValue v p add T vd q.1)
            let items := vals.flatMap fun q => if add then [WItem.add q.2.1 T q.2.2.1] else spotItems p.fmt q.1.shift q.2.1 q.2.2.1
            let rd := if p.fmt = .b1 then [32 + vd.val] else (List.range (gop v.sl.ew v.sl.grp T.width * p.nf)).map (vd.val + ·)
            let w := ({ p.v with rd := p.v.rd ++ rd } : LV).orFlags (vals.foldl (fun x q => x ||| q.2.2.2) 0)
            let next := vectorDone ((u.putLV w).buffer r.id r.w (storeBits p.fmt T) p.nf p.acts items) r
            exec i s = .next next ∧ ∀ k, next.byte k = u.byte k) ∧
          (∀ q f ls u, planLocs s1 (s1.acc t) true add p.spots (p.storeBad add T) = .error (q, f) → (s.slice r).strip.nr = false →
            manyLocs s1 (s1.acc t) true add (p.spots.filter fun x => decide (x.e < q.e)) = .ok (ls, u) →
            (add = true → ∀ x ∈ (p.spots.filter fun x => decide (x.e < q.e)).zip ls, u.spotPoison x.1 x.2 = none) → v.sl.parity = [] →
            exec i s = .next (seen.raise t { code := f.code, pc := r.th.pc, f := some q.e, addr1 := f.addr1, addr2 := f.addr2, field := q.field }))))

/-- R32 to R34, R189 to R192: vpld, vpst and vpamo take one address for each active element, aligned to the width of vd's tag. vpld reads its
values as it issues and leaves vd undefined until the operation delivers them; vpst sends the bytes of vd on their way; vpamo performs its
atomics in element order and delivers the old values. Each counts against the flag its header names, and a vpst or vpamo of a block marks
the strip not restartable as it issues (R36). R188: tsetf starts a marker under its
flag, which waits for the outstanding per-VP operations of its party. The model's own reading or choice in it: a load's value is fixed,
and an atomic performed, as the word issues (log 49). -/
def Obligations.PerVpMemoryResults : Prop :=
  (∀ (s : State) (r : Row) (nr : Bool) (v : LV) (e : Option Nat) (vd va : Reg) (src : Src) (m : MaskReg) (a o : Opd) (w0 w : LV),
    let s1 := memStart s r nr e
    let t := accessThread r e
    let acts := v.active m
    let T := (w.sl.reg vd).tag
    let n := T.width / 8
    v.sl.parity = [] → w.sl.parity = [] → acts ≠ [] → (v.noteMask m).vec va acts = .ok (a, w0) → a.tag = some .i64 →
    operandOk w.sl w.nreg vd T.width = true → w.drain = none → w.pend = none →
    let old := acts.map fun x => w.sl.elem w.r.w vd T.width x
    (w0.src src acts = .ok (o, w) → (∀ y, o.tag = some y → y.isInt = true) → T.isArith = true →
      let at_ := acts.zip (List.zipWith (pvAddr o) a.vals o.vals)
      (nr = false → ∀ ls u, pvLocs (s1.acc t) n false false true at_ s1 = .ok (ls, u) →
        LeavesMem (.vpld vd va src m) s r Header.seta nr e v (awaiting w vd T acts) (u.refresh (u.clusterOf t) ls.flatten) id (fun _ =>
          .vpld vd T w.free (acts.zip (ls.map fun l => leNat (u.homeBytes (u.partOf t) l)))) []) ∧
      (nr = true → ∀ ls u, pvLocs (s1.acc t) n true false false at_ s1 = .ok (ls, u) →
        LeavesMem (.vpst vd va src m) s r Header.seta nr e v (w.noteEls vd T.width acts) u id (fun _ => .vpst acts)
          ((ls.zip old).flatMap fun q => (q.1.zip (leBytes n q.2)).map fun k => WItem.byte k.1 0xFF k.2))) ∧
    (∀ op sc od, nr = true → w = w0 → PvOp.tagOk (.amo op sc od) T = true →
      let vn := vd.val + gop w.sl.ew w.sl.grp T.width
      (op = .cas → operandOk w.sl w.nreg vn T.width = true) →
      ∀ ls u, pvLocs (s1.acc t) n true true true (acts.zip (a.vals.map (· % 2 ^ 64))) s1 = .ok (ls, u) →
        (releases od = true → u.releaseOk t sc = true) → (acquires od = true → u.ramoOut t = false) →
        let new := acts.map fun x => if op = .cas then w.sl.elem w.r.w vn T.width x else 0
        let read := w.noteEls vd T.width acts
        let run (c : State) := pvAmos c t op T.width (ls.zip (old.zip new))
        LeavesMem (.vpamo vd va op sc od m) s r Header.seta nr e v
          (awaiting (if op = .cas then read.noteEls vn T.width acts else read) vd T acts) u
          (fun c => (run c).1) (fun c => .vpamo vd T w.free (List.zipWith (fun p x => (p, x)) acts (run c).2)) [])) ∧
  (∀ (s : State) (r : Row) (f : FlagNo),
    (∀ v, LeavesMem (.tsetf f) s r (fun _ => f.val) false none v v (s.popIssue.settle r.id) id (fun _ => .marker (s.markerOps r.id none)) []) ∧
    (∀ n b m, s.VpIssues r n b m → s.flagCount (.vp r.id m.e) f < 15 →
      exec (.tsetf f) s = .next ((s.popIssue.startLaneOp r (.vp r.id m.e) (some m.e) f (wordAddr b.header m.idx)
        (.marker (s.markerOps r.id (some m.e))) []).2.finish (.vp r.id m.e))))

/-- R29, R32, R39, R41: tf and tfc at the end of a vector-fetched block wait for its unflagged operations, are TFDENY at the lowest element that
would leave a block whose header has TFP = 0, and otherwise let the active elements leave in ascending order; those no slot is free for are
held at the block's end. An element that leaves is in THR at the target, or parked where the rejoin table holds it.
R30, R32, R186, R187: in thread mode tf, tfc and tstop wait for the VP's unflagged operations; tf goes to its target, tfc there or to the
word after the block as the mask says, and tstop stops the VP, which is in no bundle afterwards. -/
def Obligations.BlockEndingWordResults : Prop :=
  ((∀ (s : State) (r : Row) (k : LaneRun) (i : Instr) (disp : BitVec 15) (m : MaskReg), s.LanesIssue r k →
    (i = .tf disp ∧ m = 0) ∨ i = .tfc disp m →
    let v := s.lockLV r k
    let go := v.active m
    let w := v.noteMask m
    let target := wordAddr k.header k.idx + 4 * disp.signExtend 64
    (k.ops ≠ [] → Retries i s) ∧
    (k.ops = [] → k.hd.tfp = false → go ≠ [] → exec i s = .next (s.popIssue.raiseRow r.id
      { code := .tfdeny, pc := wordAddr k.header k.idx, f := some (go.headD 0), header := k.header, run := some k })) ∧
    (k.ops = [] → (k.hd.tfp = true ∨ go = []) →
      ∀ u l, leaveAll r.id k.hd.seta k.flagged target go (s.popIssue.putLV { w with sl := { w.sl with vestart := 0 } }) = (u, l) →
        (l = [] → exec i s = .next (u.advanceRun r.id k)) ∧
        (l ≠ [] → exec i s =
          .next (u.modRow r.id fun q => { q with held := some { elems := l, target := target, since := u.clock.cycle, run := k } })))) ∧
  (∀ (s : State) (r : Row) (k : LaneRun), s.LanesIssue r k →
    exec .tstop s = .next ((s.popIssue.modSlice r fun sl => { sl with vestart := 0 }).advanceRun r.id k)) ∧
  (∀ (s : State) (r : Row) (e flag : Nat) (flagged : List Nat) (target : Word), s.row? r.id = some r → (r.vp e).stepping = none →
    let u := s.leaveLock r.id e flag flagged target
    ∃ q, u.row? r.id = some q ∧ sameButVp r q e ∧ (q.vp e).fetch = target ∧
      (s.rejoinAt r target = none → (q.vp e).st = .thr) ∧ ∀ j, s.rejoinAt r target = some j → (q.vp e).st = .park j)) ∧
  (∀ (s : State) (r : Row) (n : Nat) (b : Bundle) (x : BMem) (disp : BitVec 15) (m : MaskReg), s.VpIssues r n b x →
    let target := wordAddr b.header x.idx + 4 * disp.signExtend 64
    (x.ops ≠ [] → Retries (.tf disp) s ∧ Retries (.tfc disp m) s ∧ Retries .tstop s) ∧
    (x.ops = [] →
      exec (.tf disp) s = .next (s.popIssue.vpLeave r.id x.e target) ∧
      exec (.tfc disp m) s = .next (s.popIssue.vpLeave r.id x.e (if (s.slice r).maskBit m x.e = true then target else
        b.header + BitVec.ofNat 64 (4 * (b.words.length + 1)))) ∧
      exec .tstop s = .next (s.popIssue.vpStop r.id x.e)) ∧
    ((r.vp x.e).stepping = none → ∀ next, s.rejoinAt r next = none →
      ∃ q, (s.vpLeave r.id x.e next).row? r.id = some q ∧ sameButVp r q x.e ∧ (q.vp x.e).st = .thr ∧ (q.vp x.e).fetch = next ∧
        ∀ y ∈ q.bundles, ∀ z ∈ y.mem, z.e ≠ x.e))

/-- R103, R313: a word of 0x33 outside a handler thread is PRIV; in one, an empty capability, or one whose party or course the word does not
permit, is CAPBAD, a memory operand that is not a multiple of 64 is MISALIGN, and a row that is not resident makes the word wait with the
priority of a holder. R319 to R322: fresume and fresume.t end the freeze; fstep lets the thread go on as fresume does, for one instruction or block while the
handler waits, or, where a further record waits for the thread, acts as fresume (R308). A step ends with the thread's next instruction:
the thread freezes again under the same record, of CODE STEP, PC the word stepped and RESUME the next, and the handler goes on.
fkill ends the thread: of a VP that is in STOP, with its operations gone; of a handler that ends, its records back in the queue; of any
other party the row, with its operations, its records and its hold of the matrix unit, and its launch counts the kill.
capdrop returns the record to the queue; hdone ends the handler. The model's own reading or choice in it: fstep of a thread with a
further record acts as fresume, and a fault met in a step takes the stepped record's place (log 31). -/
def Obligations.FrozenWordResults : Prop :=
  ((∀ (s : State) (r : Row) (i : Instr), s.RowIssues false false r → isFrozenWord i → Raises i s (.ctl r.id) r.th.pc .priv) ∧
  (∀ (s : State) (h : HThread) (fr : FRec) (i : Instr) (k : Fin 4) (ok : Bool) (d : Option Reg), s.HandlerIssues h →
    capForm fr i = some (k, ok, d) →
    (s.capOf h.slot k = none → Raises i s (.hnd h.slot) h.th.pc .capbad ∧ Raises (.capdrop k) s (.hnd h.slot) h.th.pc .capbad) ∧
    (s.capOf h.slot k = some fr → ok = false → Raises i s (.hnd h.slot) h.th.pc .capbad) ∧
    (s.capOf h.slot k = some fr → ok = true → ∀ r, s.recRow fr = some r → r.ctx = none → h.stepping = none →
      exec i s = .next (s.popIssue.modRow r.id fun q => { q with holder := true }) ∧
      exec (.capdrop k) s = .next (s.popIssue.modRow r.id fun q => { q with holder := true })) ∧
    (ActsOn s h k fr → ok = true → (fr.party ∈ [0, 1, 4] → s.recRow fr ≠ none) → ∀ a, d = some a → (h.th.getX a).toNat % 64 ≠ 0 →
      Raises i s (.hnd h.slot) h.th.pc .misalign (h.th.getX a).toNat))) ∧
  ((∀ (s : State) (h : HThread) (fr : FRec) (k : Fin 4), ActsOn s h k fr →
    HandlerDone (.fresume k) s h (s.popIssue.resume fr false) ∧
    (fr.course ∉ [2, 3] → HandlerDone (.fresumeT k) s h (s.popIssue.resume fr true)) ∧
    HandlerDone (.fkill k) s h (s.popIssue.killFrozen fr) ∧
    (fr.course ≠ 3 → (∀ q ∈ s.cave.recs, q.who = fr.who → q.st ≠ .behind) →
      let u := s.popIssue.beginStep fr
      ((u.fr? fr.id).isSome = true → HandlerDone (.fstep k) s h (u.setWait (.hnd h.slot) (some (.fstep fr.id)))) ∧
      (u.fr? fr.id = none → HandlerDone (.fstep k) s h u)) ∧
    (fr.course ≠ 3 → (∃ q ∈ s.cave.recs, q.who = fr.who ∧ q.st = .behind) → HandlerDone (.fstep k) s h (s.popIssue.resume fr false))) ∧
  (∀ (s : State) (fr : FRec), s.fr? fr.id = some fr → (∀ q ∈ s.cave.recs, q.who = fr.who → q.st ≠ .behind) →
    let u := s.beginStep fr
    (∀ row p, fr.who = .ctl row → (s.resume fr false).row? row = some p →
      u.row? row = some { p with stepping := some fr.id, stepVf := none } ∧ u.fr? fr.id = some fr) ∧
    (∀ row e p, fr.who = .vp row e → (s.resume fr false).row? row = some p →
      ((∃ j, (p.vp e).st = .park j) → (p.vp e).stepping = none → u.row? row = some p ∧ u.fr? fr.id = none) ∧
      ((∀ j, (p.vp e).st ≠ .park j) → (u.row? row = some (p.modVp e fun v => { v with stepping := some fr.id })) ∧ u.fr? fr.id = some fr)) ∧
    (∀ g p, fr.who = .hnd g → s.hnd? g = some p →
      ∃ q, u.hnd? g = some q ∧ q.stepping = some fr.id ∧ q.th = { p.th with pc := fr.resume, frozen := none } ∧ q.k = p.k ∧
        u.fr? fr.id = some fr)) ∧
  (∀ (s : State) (r : Row) (pc : Word) (n : Nat) (fr : FRec), s.row? r.id = some r → r.stepping = some n → s.fr? n = some fr →
    r.stepVf = none ∨ r.blocks = [] →
    let u := s.goTo (.ctl r.id) pc
    (∃ q, u.row? r.id = some q ∧ q.stepping = none ∧ q.th = { r.th with pc := pcExt pc, frozen := some n }) ∧
    (∃ f, u.fr? n = some f ∧ f.code = .step ∧ f.pc = r.th.pc ∧ f.resume = pcExt pc ∧ f.st = fr.st ∧ f.who = fr.who ∧ f.course = 4) ∧
    ∀ h ∈ u.handlers, h.th.wait ≠ some (.fstep n)) ∧
  ((∀ (s : State) (fr : FRec) (row : Nat) (r : Row), fr.who = .ctl row → s.row? row = some r →
    let u := s.killFrozen fr
    u.row? row = none ∧ (∀ o ∈ u.ops, o.row ≠ row) ∧ (∀ q ∈ u.cave.recs, tidRow q.who ≠ some row) ∧
    (u.cluster r.cluster).mx.holder ≠ some row ∧ u.mem.cells = s.mem.cells ∧
    (∀ w ∈ u.mem.writes, w ∈ s.mem.writes) ∧
    (∀ l ∈ s.engine.launches, l.id = r.launch → ∃ m ∈ u.engine.launches, m.id = l.id ∧ m.killed = l.killed + 1) ∧
    ((∀ o ∈ s.ops, o.row = row → ∀ p ∈ o.flags, tidRow p.1 = some row) → u.rows = s.rows.filter (·.id != row))) ∧
  (∀ (s : State) (fr : FRec) (row e : Nat) (r : Row), fr.who = .vp row e → s.row? row = some r → (r.vp e).stepping = none →
    let u := s.killFrozen fr
    (∃ q, u.row? row = some q ∧ (q.vp e).st = .stop ∧ (q.vp e).frozen = none ∧ (∀ b ∈ q.bundles, ∀ z ∈ b.mem, z.e ≠ e)) ∧
    (∀ o ∈ u.ops, o.row = row → o.vp ≠ some e) ∧ (∀ q ∈ u.cave.recs, q.who ≠ fr.who) ∧ u.mem.cells = s.mem.cells) ∧
  (∀ (s : State) (fr : FRec) (g : Nat) (p : HThread), fr.who = .hnd g → s.hnd? g = some p →
    let u := s.killFrozen fr
    u.hnd? g = none ∧ (∀ q ∈ u.cave.recs, q.who ≠ fr.who) ∧ u.rows = s.rows ∧
    ∀ k ∈ p.k.filterMap id, ∀ q ∈ u.cave.recs, q.id = k → q.st = .queued)) ∧
  (∀ (s : State) (h : HThread) (fr : FRec) (k : Fin 4), ActsOn s h k fr →
    HandlerDone (.capdrop k) s h (((s.popIssue.modHnd h.slot fun q => { q with k := q.k.set k none }).modRec fr.id fun q =>
      { q with st := .queued }).enqueue fr.id fr.cluster)) ∧
  (∀ (s : State) (h : HThread), s.HandlerIssues h → h.stepping = none →
    ∃ u, exec .hdone s = .next u ∧ u.handlers = s.handlers.filter (·.slot != h.slot) ∧ u.rows = s.rows ∧ u.slices = s.slices ∧
      u.mem = s.mem ∧ ∀ k ∈ h.k.filterMap id, ∀ q ∈ u.cave.recs, q.id = k → q.st = .queued))

/-- R307: the 64 bytes of a frozen record, by the places of its fields. R314, R315, R317: fsnap stores the record and the control image, or
zeros, at x[d], with VVALID and SOWNER of the contents held now; frdx reads RESUME, an x register once no ramo has still to write it (R224),
or an element zero-extended; frdv and frdm store the image of a register or a mask. The model's own reading or choice in it: PARTY and
COURSE in the cases the spec leaves open (log 28), that a read waits for outstanding loads (log 29), and that frdx reads a register at or
above the declared count (log 72). -/
def Obligations.FrozenRecordReadResults : Prop :=
  (∀ fr : FRec, fr.party < 8 → fr.course < 8 → fr.level < 4 → fr.sowner < 2 ^ 32 → fr.strip < 32 →
    fr.bytes.length = 64 ∧ dwordsOf 8 fr.bytes =
      [ (BitVec.ofNat 8 fr.code.num ++ BitVec.ofNat 3 fr.party ++ BitVec.ofNat 3 fr.course ++ BitVec.ofNat 2 fr.level ++
          fr.token.extractLsb' 0 48).toNat,
        fr.pc.toNat, fr.resume.toNat, fr.header.toNat,
        (BitVec.ofNat 32 fr.pos ++ 0#3 ++ BitVec.ofBool fr.blk ++ BitVec.ofNat 4 fr.unit ++ BitVec.ofNat 5 fr.strip ++ BitVec.ofNat 3 fr.field ++
          0#1 ++ BitVec.ofNat 15 fr.f).toNat,
        fr.addr1.toNat, fr.addr2.toNat, (0#31 ++ BitVec.ofBool fr.vvalid ++ BitVec.ofNat 32 fr.sowner).toNat ]) ∧
  (∀ (s : State) (h : HThread) (fr : FRec) (d n : Reg) (k : Fin 4), ActsOn s h k fr →
    let t := Tid.hnd h.slot
    let va := (h.th.getX d).toNat
    (va % 64 = 0 → (fr.party ∈ [0, 1, 4] → s.mxBusy fr = false) →
      let img := match s.recRow fr with
        | some r => if fr.party ∈ [0, 1, 4] then s.ctlImage r else List.replicate 64 0
        | none => List.replicate 64 0
      ∀ u, Stores s.popIssue t [(va, (asHeldNow s fr).bytes), (va + 64, img)] u → HandlerDone (.fsnap d k) s h u) ∧
    (n = 0 → WritesReg (.frdx d k n) s t h.th d fr.resume) ∧
    (n ≠ 0 → ∀ q, s.thread? fr.who = some q → (scalarSettled s fr n → WritesReg (.frdx d k n) s t h.th d (q.getX n)) ∧
      (¬ scalarSettled s fr n → h.stepping = none → Retries (.frdx d k n) s)) ∧
    (n ≠ 0 → ∀ row e r, fr.who = .vp row e → s.row? row = some r → registersSettled s fr (15 ≤ n.val) →
      WritesReg (.frdx d k n) s t h.th d (BitVec.ofNat 64 ((s.slice r).elem r.w n ((s.slice r).reg n).tag.width e))) ∧
    (va % 64 = 0 → fr.party ∈ [0, 1, 4] → ∀ r, s.recRow fr = some r →
      (registersSettled s fr (15 ≤ n.val) → ∀ u, Stores s.popIssue t (regImage (s.slice r) n va) u → HandlerDone (.frdv d k n) s h u) ∧
      (let sl := s.slice r
       let head := dwordBytes (imgHead sl.w 0 (sl.mask n).list n 1 0 :: List.replicate 7 0)
       ∀ u, Stores s.popIssue t ((va, head) :: (List.range sl.w).map fun l =>
         (va + 64 + 64 * l, (List.range 64).map fun b => maskByte (sl.mask n).set (64 * l + b))) u → HandlerDone (.frdm d k n) s h u)))

/-- R315, R316, R318, R329: fwrx writes RESUME, an x register, or an element's low bits; fwrv takes the image at x[d], is BADIMAGE with
nothing changed where the image is not one the row accepts, and otherwise replaces the control fields, a register or a mask. The model's
own reading or choice in it: the images that are BADIMAGE beside those R318 lists (log 30), that a write waits for outstanding loads
(log 29), and that fwrx writes a register at or above the declared count (log 72). -/
def Obligations.FrozenWriteResults : Prop :=
  ∀ (s : State) (h : HThread) (fr : FRec) (d n : Reg) (k : Fin 4), ActsOn s h k fr →
    let t := Tid.hnd h.slot
    let x := h.th.getX d
    (n = 0 → HandlerDone (.fwrx d k n) s h (s.popIssue.modRec fr.id fun q => { q with resume := x })) ∧
    (n ≠ 0 → ∀ q, s.thread? fr.who = some q →
      (scalarSettled s fr n → HandlerDone (.fwrx d k n) s h (s.popIssue.modThread fr.who fun q => q.setX n x)) ∧
      (¬ scalarSettled s fr n → h.stepping = none → Retries (.fwrx d k n) s)) ∧
    (n ≠ 0 → ∀ row e r, fr.who = .vp row e → s.row? row = some r → registersSettled s fr (15 ≤ n.val) →
      let w := ((s.slice r).reg n).tag.width
      HandlerDone (.fwrx d k n) s h (s.popIssue.modSlice r fun sl => sl.setElem r.w n w e (x.toNat % 2 ^ w))) ∧
    (x.toNat % 64 = 0 → fr.party ∈ [0, 1, 4] → ∀ r, s.recRow fr = some r → registersSettled s fr (15 ≤ n.val ∨ n = 0) →
      ∀ bs u, Loads t [(x.toNat, 64)] s.popIssue bs u →
        let i := parseImg bs
        (i.ok r n = false → Raises (.fwrv d k n) s t h.th.pc .badimage) ∧
        (i.ok r n = true → i.kind = 2 → HandlerDone (.fwrv d k n) s h (u.writeCtl r i)) ∧
        (i.ok r n = true → i.kind = 0 → ∀ tag, Tag.ofCode i.tag = some tag →
          let nb := imgBytes tag i.hwm r.w
          ∀ data w, Loads t (if nb = 0 then [] else (List.range r.w).map fun l => (x.toNat + 64 + 64 * l, nb)) u data w →
            HandlerDone (.fwrv d k n) s h (w.fresh.2.modSlice r fun sl => writeReg r sl w.clock.free n nb tag i.hwm data)) ∧
        (i.ok r n = true → i.kind = 1 → ∀ data w, Loads t ((List.range r.w).map fun l => (x.toNat + 64 + 64 * l, 64)) u data w →
          HandlerDone (.fwrv d k n) s h (w.modSlice r fun sl => writeMask r sl n i.list data)))

/-- R306, R308, R319: what fresume and fresume.t do to the thread, by COURSE: the freeze is over, the record has left the cave, no capability
names it, and the thread goes on as the table says: a block whose word faulted from that word or the next, fetched again; an operation that
stopped from its element on, with a new number of its class; a control thread frozen before a block's word at its own next instruction; a
VP in the midst of its block at the word RESUME names there, and otherwise at the block at RESUME, where it parks if the rejoin table
holds that address (R26, R45). -/
def Obligations.ResumeCourses : Prop :=
  ∀ (s : State) (fr : FRec) (trunc : Bool), (∀ q ∈ s.cave.recs, q.who = fr.who → q.st ≠ .behind) →
    let u := s.resume fr trunc
    (u.frozenOf fr.who = none ∧ (∀ q ∈ u.cave.recs, q.id ≠ fr.id) ∧ ∀ h ∈ u.handlers, some fr.id ∉ h.k) ∧
    (∀ row r, fr.who = .ctl row → s.row? row = some r →
      let stays := fr.course ∉ [0, 1, 3] ∧ fr.header ≠ 0 ∧ r.blocks ≠ [] ∧ fr.resume = fr.pc
      ∃ q, u.row? row = some q ∧ q.th.x = r.th.x ∧ q.buf = r.buf ∧ (∀ e, (q.vp e).st = (r.vp e).st ∧ (q.vp e).fetch = (r.vp e).fetch) ∧
        (stays → q.th.pc = r.th.pc) ∧ (¬ stays → trunc = false ∨ fr.course ≠ 1 → q.th.pc = fr.resume) ∧
        (fr.course = 0 → trunc = true → (u.slice q).vl = fr.f ∧ ∀ k, q.rind = some k → k.vl = fr.f) ∧
        (fr.course = 1 → trunc = false → (u.slice q).vestart = if fr.f < (s.slice r).vl then fr.f else 0) ∧
        (fr.course = 1 → trunc = true → (u.slice q).vl = fr.f ∧ (u.slice q).vestart = 0 ∧
          q.th.pc = if fr.blk = false ∧ fr.resume = fr.pc then fr.pc + 4 else fr.resume) ∧
        (fr.course = 1 → fr.blk = true → ∀ k, fr.run = some k →
          let idx := if trunc = true then k.idx + 1 else k.idx
          let more := decide (idx < k.words.length)
          let ops := k.ops.filter fun id => s.ops.any (·.id == id)
          q.blocks = if more = true ∨ ops ≠ [] then
            [{ k with idx := idx, late := more, xs := r.th.x, vfpc := fr.resume - 4, ops := ops, seeded := []
                      flagged := k.flagged.filter fun id => s.ops.any (·.id == id) }] else []) ∧
        (fr.course = 3 → ∀ id o c, fr.op = some id → s.op? id = some o → o.kind.cls = some c →
          u.op? id = some { o with stopped := false, cls := some c, seq := r.seqs.getD c 0, since := s.clock.et } ∧
          q.cnt = incAt r.cnt c ∧ q.seqs = incAt r.seqs c)) ∧
    (∀ h x, fr.who = .hnd h → s.hnd? h = some x → ∃ y, u.hnd? h = some y ∧ y.th.x = x.th.x ∧ y.th.pc = fr.resume) ∧
    (∀ row e r, fr.who = .vp row e → s.row? row = some r → ∃ q, u.row? row = some q ∧ q.th = r.th ∧ q.buf = r.buf ∧ q.cf = r.cf ∧
      (∀ x, x ≠ e → (q.vp x).st = (r.vp x).st ∧ (q.vp x).fetch = (r.vp x).fetch) ∧
      (fr.run = none ∨ (∀ n < 32, fr.resume ≠ wordAddr fr.header n) → (q.vp e).fetch = fr.resume ∧ (q.vp e).mid = none ∧
        (s.rejoinAt r fr.resume = none → (q.vp e).st = .thr) ∧ ∀ j, s.rejoinAt r fr.resume = some j → (q.vp e).st = .park j) ∧
      ∀ k, fr.run = some k → ∀ n < 32, fr.resume = wordAddr fr.header n → (q.vp e).st = .thr ∧
        (q.vp e).mid = some { header := fr.header, hd := k.hd, words := k.words, idx := n
                              ops := k.ops.filter fun id => s.ops.any (·.id == id), stale := true })

/-- R37, R305 to R308: a fault of a row's control thread. With no strip open, or as VOWN, it takes no course; a restartable strip restarts,
its buffered stores gone, its loads cancelled and the rind's registers and tags back (R72); a strip that is not restartable keeps the elements below f, and its buffered
stores travel; with the fault queue full the thread is held. R37, R216, R305, R308, R311: the faults of a VP, of a handler and of an
engine or matrix operation. The VP alone freezes, element-precise, and leaves its bundle; a handler freezes with its level in the record;
the operation stops at f, and the control thread freezes with RESUME the next instruction. With the fault queue full the VP and the
handler are held, and the operation's record waits. The model's own reading or choice in it: PARTY and COURSE where the spec leaves them
open (log 28), the end of a level-2 handler at its machine check (log 32). -/
def Obligations.ExceptionEntryResults : Prop :=
  (∀ (s : State) (row : Nat) (r : Row) (fi : FInfo), s.row? row = some r → r.stepping = none → r.th.frozen = none →
    let u := s.raiseRow row fi
    let strip := s.stripOf r
    (s.queueFull (dieOf r.cluster) = true → u = s.setWait (.ctl row) (some .faultHeld)) ∧
    (s.queueFull (dieOf r.cluster) = false →
      ∃ fr q, Filed s u (.ctl row) r.cluster fr ∧ u.row? row = some q ∧ q.th.wait = none ∧ fr.code = fi.code ∧ fr.pc = fi.pc ∧
        fr.token = r.token none ∧ fr.header = fi.header ∧ fr.f = fi.f.getD (if r.vvalid = true then (s.slice r).vl else 0) ∧
        fr.addr1 = BitVec.ofNat 64 fi.addr1 ∧ fr.addr2 = BitVec.ofNat 64 fi.addr2 ∧ fr.strip = (s.slice r).strip.bits ∧ fr.vvalid = r.vvalid ∧ fr.sowner = (s.slice r).owner ∧
        (strip.opn = false ∨ fi.code = .vown →
          fr.party = 0 ∧ fr.course = 4 ∧ fr.resume = fi.resume.getD fi.pc ∧
          u.slices = s.slices ∧ q.buf = r.buf ∧ q.rind = r.rind ∧ q.th.x = r.th.x ∧ q.th.pc = r.th.pc ∧ u.mem.writes = s.mem.writes) ∧
        (fi.code ≠ .vown → strip.opn = true → strip.nr = false → ∀ k, r.rind = some k →
          fr.party = 1 ∧ fr.course = 0 ∧ fr.resume = k.pc ∧ fr.blk = false ∧ q.th.x = k.x ∧ q.th.pc = k.pc ∧ q.buf = [] ∧ q.blocks = [] ∧
          (u.slice q).vl = k.vl ∧ (u.slice q).vestart = 0 ∧ (u.slice q).strip = { opn := true, nr := false, cause := 0 } ∧
          (∀ o ∈ u.ops, o.row = row → o.kind.ofStrip = true → o.id < k.first) ∧ (∀ b, u.byte b = s.byte b) ∧
          ∀ (n : Nat) (hn : n < 32), ((u.slice q).reg n).tag = k.tags[n] ∧ ((u.slice q).vdirty.getLsbD n = true ↔
            (s.slice r).vdirty.getLsbD n = true ∨ ((s.slice r).reg n).tag ≠ k.tags[n])) ∧
        (fi.code ≠ .vown → strip.opn = true → strip.nr = true →
          fr.party = 1 ∧ fr.course = 1 ∧ fr.blk = fi.run.isSome ∧ q.buf = [] ∧
          (u.slice q).vestart = (match fi.f with | some f => if f < (s.slice r).vl then f else 0 | none => 0) ∧
          (r.buf ≠ [] → ∃ w, u.mem.writes = s.mem.writes ++ [w] ∧ w.items = r.buf) ∧ (r.buf = [] → u.mem.writes = s.mem.writes) ∧
          (fi.run = none → fr.resume = fi.resume.getD fi.pc ∧ q.th.x = r.th.x ∧ q.th.pc = r.th.pc) ∧
          (∀ k, fi.run = some k → fr.resume = k.vfpc + 4 ∧ q.th.x = k.xs ∧ q.th.pc = k.vfpc + 4 ∧ q.blocks = [])))) ∧
  ((∀ (s : State) (row e : Nat) (r : Row) (fi : FInfo), s.row? row = some r → (r.vp e).stepping = none → (r.vp e).frozen = none →
    (s.queueFull (dieOf r.cluster) = true →
      s.raiseVp row e fi = (s.setWait (.vp row e) (some .faultHeld)).modRow row fun q => q.giveUp e) ∧
    (s.queueFull (dieOf r.cluster) = false → ∃ fr q, Filed s (s.raiseVp row e fi) (.vp row e) r.cluster fr ∧
      (s.raiseVp row e fi).row? row = some q ∧ sameButVp r q e ∧ (q.vp e).st = .froz ∧ (∀ b ∈ q.bundles, ∀ z ∈ b.mem, z.e ≠ e) ∧
      fr.code = fi.code ∧ fr.party = 2 ∧ fr.course = 2 ∧ fr.f = e ∧ fr.pc = fi.pc ∧ fr.resume = fi.resume.getD fi.pc ∧
      fr.token = r.token (some e) ∧ fr.header = fi.header ∧ (s.raiseVp row e fi).slices = s.slices)) ∧
  (∀ (s : State) (n : Nat) (h : HThread) (fi : FInfo), s.hnd? n = some h → h.stepping = none → h.th.frozen = none →
    (s.queueFull (dieOf h.cluster) = true → s.raiseHnd n fi = s.setWait (.hnd n) (some .faultHeld)) ∧
    (s.queueFull (dieOf h.cluster) = false → ∃ fr, Filed s (s.raiseHnd n fi) (.hnd n) h.cluster fr ∧
      fr.code = fi.code ∧ fr.party = 3 ∧ fr.course = 4 ∧ fr.level = h.level ∧ fr.pc = fi.pc ∧ fr.resume = fi.resume.getD fi.pc ∧
      (s.raiseHnd n fi).rows = s.rows)) ∧
  (∀ (s : State) (o : Op) (r : Row) (fi : FInfo), s.op? o.id = some o → s.row? o.row = some r → r.stepping = none → r.th.frozen = none →
    let f := fi.f.getD (if r.vvalid = true then (s.slice r).vl else 0)
    (s.queueFull (dieOf r.cluster) = true → ∃ fr, (s.raiseOp o fi).cave.heldOps = s.cave.heldOps ++ [fr] ∧ fr.op = some o.id ∧
      (s.raiseOp o fi).cave.recs = s.cave.recs ∧ (s.raiseOp o fi).op? o.id = some { o with stopped := true, f := f }) ∧
    (s.queueFull (dieOf r.cluster) = false → ∃ fr, Filed s (s.raiseOp o fi) (.ctl o.row) r.cluster fr ∧
      fr.code = fi.code ∧ fr.party = 4 ∧ fr.course = 3 ∧ fr.pc = fi.pc ∧ fr.resume = r.th.pc ∧ fr.op = some o.id ∧
      fr.f = f ∧ fr.pos = o.seq ∧ (s.raiseOp o fi).op? o.id = some { o with stopped := true, f := f, cls := none })))

/-- R13, R282, R310: a tick moves ET by 1 and the cycle count by 3, and nothing else but the counts of cycles for which ready threads wait:
STARVE.CYC of a ready row, up to 2^20, by the cycles of the tick in which it has issued nothing, and a ready handler's count; an issue
clears STARVE.CYC and counts one cycle for a promotion, once where both pipelines take words of the row. R31, R41, R42, R53, R105, R342, R344,
R345: the oldest block of a row starts once the flags of its WAIT field are 0, and one that was queued undecoded is decoded then; an issue
cycle takes up at most two control or handler threads, promoted rows before the others, and every block and bundle that is ready; a
regrouping, one in four cycles, forms a bundle of the VPs that wait at one address with their flags clear; held elements leave as slots
free, and after 4,096 cycles are TFFULL. The model's own reading or choice in it: the cycle count and its step of 3 (log 4), the order of
the actors of an issue cycle (logs 5 and 12), where a queued block's fault stands (log 56), VOWN of a row in thread mode (log 33), that
STARVE.CYC grows at a tick, by the tick's cycles without an issue (log 70). -/
def Obligations.SequencerEvents : Prop :=
  (∀ s : State, ∃ u, Happens .escapementTick s u ∧ u.clock.et = s.clock.et + 1 ∧ u.clock.cycle = s.clock.cycle + 3 ∧
    u.clock.issue = s.clock.issue ∧ u.mem = s.mem ∧ u.slices = s.slices ∧ u.clusters = s.clusters ∧ u.ops = s.ops ∧ u.cave = s.cave ∧
    u.engine = s.engine ∧ u.parts = s.parts ∧ u.mgmt = s.mgmt ∧
    (∀ id r, s.row? id = some r → (r.th.wait = none → r.th.frozen = none → r.ready = true) ∧
      u.row? id = some { r with issued := (0, 0)
                                starve := if r.ready = true then min (2 ^ 20) (r.starve + (3 - max r.issued.1 r.issued.2)) else r.starve }) ∧
    (∀ id h, s.hnd? id = some h → ∃ n, u.hnd? id = some { h with ready := n } ∧
      ((h.th.wait = none ∧ h.th.frozen = none ∧ (s.cluster h.cluster).stoppedHot = false) → n = h.ready + 3) ∧
      ((h.th.wait ≠ none ∨ h.th.frozen ≠ none) → n = 0))) ∧
  (∀ (s : State) (r : Row), let c := s.clock.arg.a
    (s.row? c = some r → r.vvalid = true → r.ctx ≠ none → r.th.frozen = none → r.th.wait ≠ some .faultHeld → ∀ k l, r.blocks = k :: l →
      let words := if k.late = true then decodeBlock .vf s r k.header else .ok (k.hd, k.words)
      (k.started = false → ∀ hd ws, words = .ok (hd, ws) → k.idx < ws.length →
        ((∀ n < 12, hd.wait.getLsbD n = true → r.cf.getD n 0 = 0) →
          let b := { k with hd := hd, words := ws, late := false }
          ∀ q, s.blockSends r b = .ok q → Happens .vfBlockStart s
            (s.modRow r.id fun x => x.setRun { b with started := true, sends := q.1, rcvd := q.2, since := s.clock.cycle })) ∧
        (k.late = false → (∃ n < 12, hd.wait.getLsbD n = true ∧ r.cf.getD n 0 ≠ 0) → NotYet .vfBlockStart s) ∧
        (k.late = true → (∃ n < 12, hd.wait.getLsbD n = true ∧ r.cf.getD n 0 ≠ 0) → Happens .vfBlockStart s
          (s.modRow r.id fun x => x.setRun { k with hd := hd, words := ws, late := false }))) ∧
      (k.started = true → k.late = true → ∀ hd ws, words = .ok (hd, ws) → k.idx < ws.length →
        let b := { k with hd := hd, words := ws, late := false }
        ∀ q, s.blockSends r b = .ok q → Happens .vfBlockStart s
          (s.modRow r.id fun x => x.setRun { b with started := true, sends := q.1, rcvd := q.2, since := s.clock.cycle })) ∧
      (k.started = false → ∀ p e, words = .error (p, e) → Happens .vfBlockStart s
        ((s.modRow r.id fun q => { q with blocks := [], sb := k.sb, th := { q.th with x := k.xs, pc := k.vfpc, wait := none } }).raise (.ctl r.id)
          { code := e, pc := p, header := k.header, resume := some k.vfpc }))) ∧
    (r ∈ s.rows → r.cluster = c →
      (s.lanesReady r = true → ∃ u l, .lanes r.id ∈ l ∧ Happens .vectorSequencerCycle s u ∧ u.clock.issue = s.clock.issue ++ l ∧ u.mem = s.mem ∧
        u.slices = s.slices ∧ u.ops = s.ops ∧ (s.row? r.id = some r → ∃ q, u.row? r.id = some q ∧ q.starve = 0 ∧
          q.issued = (r.issued.1, r.issued.2 + 1) ∧ q.th = r.th ∧ ∀ t n, r.promo = some (t, n) →
            q.promo = some (t, if r.issued.1 ≤ r.issued.2 then n + 1 else n))) ∧
      ((s.drainReady r).isSome = true → r.ctx ≠ none → ∃ u l, .drain r.id ∈ l ∧ Happens .vectorSequencerCycle s u ∧
        u.clock.issue = s.clock.issue ++ l ∧ u.mem = s.mem ∧ u.slices = s.slices ∧ u.ops = s.ops) ∧
      (∀ n b, r.bundles[n]? = some b → s.bundleReady r b = true → ∃ u l, .bundle r.id n ∈ l ∧ Happens .vectorSequencerCycle s u ∧
        u.clock.issue = s.clock.issue ++ l ∧ u.mem = s.mem ∧ u.slices = s.slices ∧ u.ops = s.ops) ∧
      (s.ctlReady r = true → ∃ u l, Happens .scalarIssueCycle s u ∧ u.clock.issue = s.clock.issue ++ l ∧ l ≠ [] ∧ l.length ≤ 2 ∧
        u.mem = s.mem ∧ u.slices = s.slices ∧ u.ops = s.ops ∧
        (r.promo ≠ none → (∀ h ∈ s.handlers, h.cluster = c → h.ready < 15) →
          ∃ q ∈ s.rows, q.promo ≠ none ∧ l.head? = some (.ctl q.id)))) ∧
    (let g := (s.clock.cycle + 2) / 4
     (c < 128 → s.clock.cycle ≤ 4 * g → (s.cluster c).regroup ≤ g → ∃ u, Happens .regrouping s u ∧ (u.cluster c).regroup = g + 1) ∧
     (4 * g < s.clock.cycle ∨ g < (s.cluster c).regroup → NotYet .regrouping s)) ∧
    (∀ p hd ws, s.row? r.id = some r → s.runs r = true → r.vvalid = true → r.preempt = none → (∀ q ∈ r.vps, q.2.mid = none) →
      r.bundles.length < 8 → decodeBlock .thread s r p = .ok (hd, ws) →
      let here := r.vps.filter fun q => q.2.st == .thr && q.2.wait.isNone && q.2.frozen.isNone && (r.bundleOf q.1).isNone
      let go := here.filter fun q => (List.range 12).all fun n => !hd.wait.getLsbD n || q.2.flags.getD n 0 == 0
      (∀ q ∈ here, q.2.fetch = p) → go ≠ [] → (s.regroupRow r).row? r.id = some { r with bundles := r.bundles ++
        [{ header := p, hd := hd, words := ws, since := s.clock.cycle
           mem := ((go.map fun k => ({ e := k.1, idx := 0, fin := false, ops := [] } : BMem)).mergeSort fun a b => decide (a.e ≤ b.e)) }] }) ∧
    (s.row? c = some r → ∀ h, r.held = some h →
      (s.heldReady c = true → ∀ u l, leaveAll c h.run.hd.seta h.run.flagged h.target h.elems s = (u, l) →
        (l = [] → Happens .tfHeldElementRelease s ((u.modRow c fun q => { q with held := none }).advanceRun c h.run)) ∧
        (l ≠ [] → Happens .tfHeldElementRelease s (u.modRow c fun q => { q with held := some { h with elems := l } }))) ∧
      (s.heldReady c = false → NotYet .tfHeldElementRelease s) ∧
      (h.since + 4096 ≤ s.clock.cycle → Happens .tffullTimeout s (s.raiseRow c
        { code := .tffull, pc := wordAddr h.run.header h.run.idx, f := some (h.elems.headD 0), header := h.run.header, run := some h.run })) ∧
      (s.clock.cycle < h.since + 4096 → NotYet .tffullTimeout s)))

/-- R46, R50, R52, R132, R147, R219, R293: what ends a wait. A vjoin whose VPs have all arrived, with no block before it under way, gives 0 and
lets them back into LOCK; one whose time is up gives the number missing and moves none; a watermark at CP + VL or above opens the strip and
moves CP on; an event takes one count for its oldest request; a barrier group goes on at its time; a queue word and a quad go on once they
can. The model's own reading or choice in it: a block in which no VP is active holds a vjoin back too (log 56). -/
def Obligations.WaitEndEvents : Prop :=
  ∀ (s : State) (r : Row), let g := s.clock.arg
    (s.row? g.a = some r →
      (∀ d j dl, r.th.wait = some (.vjoin d j dl) →
        (s.missing r j = 0 → r.blocks = [] → Happens .vjoinArrival s ((((s.modRow r.id fun q => { q with
          vps := q.vps.map fun p => (p.1, if p.2.st = .park j ∨ p.2.st = .stop then { p.2 with st := .lock } else p.2) }).modThread (.ctl r.id)
            fun q => q.setX d 0).setWait (.ctl r.id) none).finish (.ctl r.id))) ∧
        (s.missing r j ≠ 0 ∨ r.blocks ≠ [] → NotYet .vjoinArrival s) ∧
        (s.missing r j ≠ 0 → dl ≤ s.clock.cycle → Happens .vjoinTimeout s
          (((s.modThread (.ctl r.id) fun q => q.setX d (BitVec.ofNat 64 (s.missing r j))).setWait (.ctl r.id) none).finish (.ctl r.id))) ∧
        (s.clock.cycle < dl → NotYet .vjoinTimeout s)) ∧
      (∀ d vl n b ls v, r.th.wait = some (.setvlw d vl n) → r.wm.getD n none = some b →
        Reads s (.ctl r.id) b.addr.toNat 8 false true ls v →
        let bs := v.homeBytes r.part ls
        let u := fetchedBy s v (.ctl r.id) ls
        (b.cp.toNat + vl ≤ leNat bs → u.runs r = true → r.vvalid = true →
          Happens .setvlwRelease s (((((u.modRow r.id fun q => { q with wm := q.wm.set n (some { b with cp := b.cp + BitVec.ofNat 64 vl }) }).openStrip
            r.id vl (r.th.pc + 4)).setWait (.ctl r.id) none).modThread (.ctl r.id) fun q => q.setX d (BitVec.ofNat 64 vl)).finish (.ctl r.id))) ∧
        (leNat bs < b.cp.toNat + vl → NotYet .setvlwRelease s)) ∧
      ((r.vp g.b).wait = some .queue → s.runs r = true → r.vvalid = true → s.queueGo r g.b = true →
        Happens .threadQueueStallRelease s (s.setWait (.vp r.id g.b) none)) ∧
      (s.runs r = true → r.vvalid = true → s.quadGo r g.b ≠ [] →
        Happens .quadExchangeThreadComplete s (waitsOver ((s.quadGo r g.b).map (Tid.vp r.id)) s))) ∧
    (∀ k, s.mem.groups[g.a]? = some k →
      (k.time ≤ s.clock.et → Happens .barexitGroupReady s (k.threads.foldl (fun u t => (u.setWait t none).finish t)
        { s with mem := { s.mem with groups := s.mem.groups.eraseIdx g.a } })) ∧
      (s.clock.et < k.time → NotYet .barexitGroupReady s)) ∧
    (∀ row w, s.mem.eventQ.find? (fun w => w.1 == g.a) = some (w, .ctl row) →
      (s.dwordAt g.a = 0 → NotYet .evwaitGrant s) ∧
      (s.dwordAt g.a ≠ 0 →
        let t := Tid.ctl row
        let ls := locRun { key := g.a, enc := FMap.getD s.mem.keys g.a 0, home := 0 } 8
        let u := { s with mem := { s.mem with eventQ := s.mem.eventQ.filter fun w => w.2 != t } }
        Happens .evwaitGrant s ((((u.applyAt t (s.clusterOf t) (s.partOf t) false
          ((ls.zip (leBytes 8 (leNat (ls.map s.readLoc) - 1))).map fun p => .byte p.1 0xFF p.2)).1).setWait t none).finish t)))

/-- R308, R309, R311: a free slot takes the record due, its handler starting with the code in x10, the faulting PC in x11, ADDR1 in x12 and
the number of capabilities in x13; a level-2 handler's fault, and a handler table that gives no address, are machine checks; an entry that
frees files a held operation's record, or else lets the held instructions execute again. R279, R282, R284, R326, R327, R340, R343: a pre-
emption request is noted for the rows that stop together, and once each is at its stop point they leave their contexts; a row that fits
returns to a free context of its cluster; a concurrent row is promoted at 2^20 cycles, until it blocks or has issued 4,096 times; a
promoted row with no free context makes another row stop. The model's own reading or choice in it: what a machine check ends (logs 18 and
32), where a row may resume (logs 25 and 50), the event codes (log 8). -/
def Obligations.HandlerAndResidenceEvents : Prop :=
  (∀ s : State, let c := s.clock.arg.a
    (s.nextRec c = none → NotYet .handlerSpawn s) ∧
    (∀ fr, s.nextRec c = some fr → fr.level = 2 → Happens .handlerSpawn s (s.checkRec c fr .level2)) ∧
    (∀ fr w, s.nextRec c = some fr → fr.level ≠ 2 → s.handlerEntry fr = .error w → Happens .handlerSpawn s (s.checkRec c fr w)) ∧
    (∀ fr entry u, s.nextRec c = some fr → fr.level ≠ 2 → s.handlerEntry fr = .ok (entry, u) → canonical entry = true → entry < 2 ^ 64 →
      let l := u.takenRecs c fr
      ∃ v h, Happens .handlerSpawn s v ∧ v.handlers = u.handlers ++ [h] ∧ v.rows = u.rows ∧ v.mem = u.mem ∧ h.cluster = c ∧ h.part = fr.part ∧
        h.th.pc = BitVec.ofNat 64 entry ∧ h.th.getX 10 = BitVec.ofNat 64 fr.code.num ∧ h.th.getX 11 = fr.pc ∧ h.th.getX 12 = fr.addr1 ∧
        h.th.getX 13 = BitVec.ofNat 64 l.length ∧ h.k.head? = some (some fr.id) ∧
        (∀ q ∈ v.cave.recs, (∃ k ∈ l, k.id = q.id) → q.st = .handled h.slot) ∧
        (∀ k ∈ l, ∀ d, k.id ∉ v.cave.queue.getD d [])) ∧
    (s.queueFull c = true → NotYet .faultQueueEntryFree s) ∧
    (s.queueFull c = false → ∀ fr o r k, s.cave.heldOps.find? (fun k => dieOf k.cluster == c) = some fr → fr.op = some k → s.op? k = some o →
      (tidRow fr.who).bind s.row? = some r → Happens .faultQueueEntryFree s
        (({ s with cave := { s.cave with heldOps := s.cave.heldOps.filter fun q => q.op != some k } } : State).fileOp o r fr)) ∧
    (s.queueFull c = false → (∀ k ∈ s.cave.heldOps, dieOf k.cluster ≠ c) → ∀ r, r ∈ s.rows → s.waitOf (.ctl r.id) = some .faultHeld →
      dieOf (s.clusterOf (.ctl r.id)) = c → ∃ u, Happens .faultQueueEntryFree s u ∧ u.waitOf (.ctl r.id) = none ∧ u.mem = s.mem)) ∧
  (∀ (s : State) (r : Row), s.row? s.clock.arg.a = some r →
    let team := (s.teamOf r).filter (·.ctx.isSome)
    (r.ctx = none → NotYet .preemptionRequest s) ∧
    (r.ctx ≠ none → (∃ q ∈ team, q.preempt = none) → Happens .preemptionRequest s
      (team.foldl (fun u q => u.modRow q.id fun x => { x with preempt := some (x.preempt.getD u.clock.cycle) }) s)) ∧
    (r.ctx ≠ none → (∀ q ∈ team, q.preempt ≠ none ∧ s.atStop q = true) →
      Happens .preemptionRequest s (team.foldl (fun u q => u.preemptRow q.id) s) ∧
      ((∃ q ∈ s.teamOf r, (s.stripOf q).opn = true ∧ s.stopLate q = true) →
        Happens .preemptStripTimeout s (team.foldl (fun u q => u.preemptRow q.id) s))) ∧
    (r.ctx ≠ none → ∃ q, (s.preemptRow r.id).row? r.id = some q ∧ q.ctx = none ∧ q.preempt = none ∧ q.away = some s.clock.et ∧
      (q.holder = true ↔ 0 < r.locks ∨ (s.cluster r.cluster).mx.holder = some r.id) ∧ ((s.stripOf r).opn = false → q.th.x = r.th.x ∧ q.th.pc = r.th.pc)) ∧
    (r.ctx = none → (s.cluster r.cluster).outOfService = false → (s.cluster r.cluster).stoppedHot = false → s.teamOf r = [r] →
      s.holderFirst r = false → s.promotedFirst r = false → s.unplacedFirst r = false → ∀ k o, resumeFit (s.occNow r.part r.cluster) r (if s.clock.arg.flag then some s.clock.arg.b else none) = some (k, o) →
      ∃ u q, Happens .rowResume s u ∧ u.row? r.id = some q ∧ q.ctx = some k ∧ q.holder = false ∧ q.th = r.th ∧
        (q.vvalid = true ↔ (s.slice { r with ctx := some k }).owner = r.owner ∨ (s.slice { r with ctx := some k }).owner = 0)) ∧
    (r.cls = .conc → 2 ^ 20 ≤ r.starve → r.promo = none → r.th.wait = none → r.th.frozen = none →
      Happens .starvePromotion s (s.modRow r.id fun q => { q with promo := some (s.clock.et, 0) })) ∧
    (r.starve < 2 ^ 20 ∨ r.cls ≠ .conc → NotYet .starvePromotion s) ∧
    (∀ t n, r.promo = some (t, n) → (4096 ≤ n ∨ (∃ w, r.th.wait = some w ∧ w.blocks = true) ∨
          (r.ready = false ∧ ∃ p ∈ r.vps, ∃ w, p.2.wait = some w ∧ w.blocks = true) →
        Happens .promotionEnd s (s.modRow r.id fun q => { q with promo := none })) ∧
      (n < 4096 → (∀ w, r.th.wait = some w → w.blocks = false) →
        (r.ready = true ∨ ∀ p ∈ r.vps, ∀ w, p.2.wait = some w → w.blocks = false) → NotYet .promotionEnd s)) ∧
    (s.clock.arg.flag = false → r.promo ≠ none → r.ctx = none → (s.occNow r.part r.cluster).ctx = [] → (∀ q ∈ s.rows, q.cluster = r.cluster → q.preempt = none) →
      ∀ q, s.victim r.cluster = some q → s.row? q.id = some q → Happens .promotedRowPlacement s
        (((s.teamOf q).filter (·.ctx.isSome)).foldl (fun u q => u.modRow q.id fun x => { x with preempt := some (x.preempt.getD u.clock.cycle) }) s)))

/-- R32, R34, R190, R205, R206, R213 to R218, R242: what completes an operation. Loads, atomics and gathers write the elements they were
issued for, and stores and markers end with what they wait for; a wmpub writes the greater of memory and value once the row's stores have
passed, or faults where it is poisoned; copies and flushes run from their element f and end, or stop there with a record; a stream fetches its next entry; landed bytes
lower PENDING. The model's own reading or choice in it: an operation performs its effect at its completion (log 49), and which of two
writes stays is free (log 48), a flush drops the cluster's copies of its lines and changes no byte (log 55), the fault of a poisoned
watermark (log 58), bytes do not land in a poisoned barrier (log 76). -/
def Obligations.OperationEvents : Prop :=
  ∀ (s : State) (o : Op), let g := s.clock.arg
    (s.op? g.a = some o →
      (∀ r vd T seed l, (o.kind = .vpld vd T seed l ∨ o.kind = .vpamo vd T seed l) → holdsRegs s o r →
        Happens .operationComplete s ((s.modSlice r (delivered r vd seed T g.flag l)).finishOp o)) ∧
      (∀ l, o.kind = .vpst l → ((∀ w ∈ s.mem.writes, w.op ≠ some o.id) → Happens .operationComplete s (s.finishOp o)) ∧
        ((∃ w ∈ s.mem.writes, w.op = some o.id) → NotYet .operationComplete s)) ∧
      (∀ l, o.kind = .marker l → ((∀ k ∈ l, s.op? k = none) → Happens .operationComplete s (s.finishOp o)) ∧
        ((∃ k ∈ l, s.op? k ≠ none) → NotYet .operationComplete s)) ∧
      (∀ vd f T seed l, o.kind = .vfg vd f T seed l false → Happens .gatherUnitRequest s (s.modOp o.id fun q => { q with kind := .vfg vd f T seed l true })) ∧
      (∀ r vd f T seed l, o.kind = .vfg vd f T seed l true → holdsRegs s o r →
        let u := (s.settle o.row).fresh
        let vals := l.map fun p => (p.1, spotValue f [] 0 [p.2.2.zipIdx.map fun q => match q.1 with
          | some l => u.2.homeByte o.part l
          | none => Config.freeByte u.1 (p.1 * 8 + q.2)])
        let c := u.2.refresh o.cluster (l.flatMap fun p => p.2.2.filterMap id)
        o.stopped = false → (∀ p ∈ l, ∀ k, some k ∈ p.2.2 → k.key / 64 ∉ u.2.mem.poison) → ∀ q, c.row? o.row = some q →
          Happens .vfgComplete s (((c.modSlice q (delivered q vd seed T g.flag (vals.map fun x => (x.1, x.2.1)))).orFlags o.row
            (vals.foldl (fun x y => x ||| y.2.2) 0)).finishOp o)) ∧
      (∀ va ls v, o.kind = .wmpub va ls v → (s.pubOk o = false → NotYet .wmpubPerform s) ∧
        (s.pubOk o = true → o.stopped = false → ∀ i, s.poisoned ls = some i → Happens .wmpubPerform s
          (s.raiseOp o (opFaultAt o 0 { code := .memerr, addr1 := (va + i) % 2 ^ 64 / 64 * 64, addr2 := 0 }))) ∧
        (s.pubOk o = true → o.stopped = false → s.poisoned ls = none → Happens .wmpubPerform s ((s.applyAt (.ctl o.row) o.cluster o.part false
          ((ls.zip (leBytes 8 (max (leNat (s.homeBytes o.part ls)) v.toNat))).map fun p => .byte p.1 0xFF p.2)).1.endOp o))) ∧
      (o.stopped = false → ∀ x, o.kind = .cflush x → (∀ u, Flushes o x (x.count - o.f) o.f s u → Happens .engineOpComplete s (u.endOp o)) ∧
        (o.f < x.count → x.aligned o.f = false → Happens .engineAsyncFault s
          (s.raiseOp o (opFaultAt o o.f { code := .misalign, addr1 := ((x.spot o.f).pieces.headD (0, 0)).1, addr2 := 0 })))) ∧
      (o.stopped = false → ∀ u f, (∃ d x i, o.kind = .cpy d x i ∧ s.performCopy o d x i = (u, f, none)) ∨
        (∃ x, o.kind = .cflush x ∧ flushRun o x (x.count - o.f) o.f s = (u, f, none)) → Happens .engineOpComplete s (u.endOp o)) ∧
      (o.stopped = false → ∀ u f a, (∃ d x i, o.kind = .cpy d x i ∧ s.performCopy o d x i = (u, f, some a)) ∨
        (∃ x, o.kind = .cflush x ∧ flushRun o x (x.count - o.f) o.f s = (u, f, some a)) →
        NotYet .engineOpComplete s ∧ Happens .engineAsyncFault s (u.raiseOp o (opFaultAt o f a))) ∧
      (o.stopped = false → o.kind.isMatrix = true → ∀ r u f a, s.matrixReady o.cluster = some (r, o) → s.matrixRun r o = (u, some (f, a)) →
        Happens .engineAsyncFault s (u.raiseOp o (opFaultAt o f a)))) ∧
    (∀ r st, s.row? g.a = some r → r.streams.getD g.b none = some st → st.canFetch = true → r.ctx ≠ none →
      Happens .streamEntryFetch s (s.fetchEntry r g.b st) ∧ (g.b < r.streams.length → s.mem.writes = [] →
        ∃ q st', (s.fetchEntry r g.b st).row? r.id = some q ∧ q.streams.getD g.b none = some st' ∧ st'.fetched = st.fetched + 1 ∧
          st'.pos = st.pos ∧ st'.shape = st.shape ∧ ∀ i, i ≠ st.fetched → FMap.get? st'.got i = FMap.get? st.got i)) ∧
    (∀ l b, s.mem.landing[g.a]? = some l →
      let u := { s with mem := { s.mem with landing := s.mem.landing.eraseIdx g.a } }
      (s.clock.et ≤ l.gwct ∨ s.poisoned (locRun l.bar 32) ≠ none → NotYet .byteLands s) ∧
      (l.gwct < s.clock.et → s.poisoned (locRun l.bar 32) = none → parseBar ((locRun l.bar 32).map u.readLoc) = some b →
        (b.pending = 0 → Happens .byteLands s u) ∧
        (b.pending ≠ 0 → Happens .byteLands s ({ b with pending := b.pending - l.n }.store (.hnd 1280) (locRun l.bar 32) u))))

/-- R246, R251, R271, R348, R349, R353 to R355: a walk that finds its page fills the TLBs and changes memory by setting A in the byte of the
entry it ended at only; one that the die's TLB answers changes no byte; a request of TLBINV is noted, and once the partition's earlier
accesses are done the oldest one leaves no entry it names; a free matrix unit goes to the first row that waits; the oldest operation of the
unit runs, a mop and a drain in parts, and completes.
R259 to R266: with s from MXK on, a mop of a row of 4 lanes or more (R17: every row has them) adds to each accumulator, of acc or in band mode of part, the products of its halves' cells, a mopz the
cells of A to rowsum, each sum rounded to f32; a fold adds the scaled part to acc and clears it; a drain gives its words the row of acc that
MXROW names as v24, or that row with the scales and zero points read when it started. The model's own reading or choice in it: when an
invalidation completes (log 42), that a matrix operation performs its effect as it starts (log 49). -/
def Obligations.TranslationAndMatrixEvents : Prop :=
  (∀ s : State, let g := s.clock.arg
    (canonical g.w.toNat = true → s.partOn g.b = true → s.MemOk →
      (tlbFind (FMap.getD s.mem.tlbD (dieOf g.a) []) g.b g.w.toNat = none → ∀ leaf lv k, walk s g.w.toNat 4 (s.pdesc g.b 0) = .ok (leaf, lv, k) →
        ∃ u e, Happens .pageWalkComplete s u ∧ u.MemOk ∧ u.rows = s.rows ∧ u.byte k = s.byte k ||| 0x40 ∧ (∀ j, j ≠ k → u.byte j = s.byte j) ∧
          tlbFind (FMap.getD u.mem.tlbC g.a []) g.b g.w.toNat = some e ∧ tlbFind (FMap.getD u.mem.tlbD (dieOf g.a) []) g.b g.w.toNat = some e ∧
          e.leaf = BitVec.ofNat 64 (leaf ||| 0x40) ∧ e.entry = k ∧ e.size = pageOf lv) ∧
      (∀ e, tlbFind (FMap.getD s.mem.tlbD (dieOf g.a) []) g.b g.w.toNat = some e → ∃ u, Happens .pageWalkComplete s u ∧ u.rows = s.rows ∧
        u.mem.cells = s.mem.cells ∧ tlbFind (FMap.getD u.mem.tlbC g.a []) g.b g.w.toNat = some e) ∧
      (tlbFind (FMap.getD s.mem.tlbD (dieOf g.a) []) g.b g.w.toNat = none → ∀ c, walk s g.w.toNat 4 (s.pdesc g.b 0) = .error c →
        NotYet .pageWalkComplete s)) ∧
    (g.a < 16 → ∀ i kind page, (i, kind, page) ∈
        [(Instr.tlbinvPage, 0, g.b % 2 ^ 48), (.tlbinvAll, 1, 0), (.tlbinvFlush, 2, g.b % 2 ^ 48)] →
      Happens i s (s.modPart g.a fun q =>
        { q with invReq := q.invReq + 1, invs := q.invs ++ [{ kind := kind, page := page, gwct := 0, after := [] }] })) ∧
    (∀ r l, g.a < 16 → (s.part g.a).invs = r :: l →
      (s.accessesDone g.a r = false → NotYet .tlbInvalidationComplete s) ∧
      (s.accessesDone g.a r = true → ∃ u, Happens .tlbInvalidationComplete s u ∧ (u.part g.a).invs = l ∧
        (u.part g.a).invDone = (s.part g.a).invDone + 1 ∧ u.mem.cells = s.mem.cells ∧
        ∀ c e, (e ∈ FMap.getD u.mem.tlbC c [] ∨ e ∈ FMap.getD u.mem.tlbD c []) → e.named g.a r.kind r.page = false)) ∧
    (∀ row l, (s.cluster g.a).mx.holder = none → (s.cluster g.a).mx.waiting = row :: l → ∃ u, Happens .matrixUnitGrant s u ∧
      (u.cluster g.a).mx.holder = some row ∧ (u.cluster g.a).mx.waiting = l.filter (· != row) ∧ u.mem = s.mem ∧ u.slices = s.slices) ∧
    (∀ row, (s.cluster g.a).mx.holder = some row → NotYet .matrixUnitGrant s) ∧
    (∀ r o, s.matrixReady g.a = some (r, o) → (∀ z ha hb k, o.kind = .mop z ha hb k → Happens .matrixOpStart s (s.mopPart r o z ha hb k)) ∧
      (o.kind = .mzero → Happens .matrixOpStart s (((s.modSlice r fun sl => sl.zeroRegs 15 31).modCluster r.cluster fun c =>
        { c with mx := { c.mx with bandk := 0 } }).modOp o.id fun q => { q with started := true })) ∧
      (∀ n, o.kind = .mrow n → Happens .matrixOpStart s ((s.modRow r.id fun q => { q with mxrow := n }).modOp o.id fun q => { q with started := true })) ∧
      ∀ u, s.matrixRun r o = (u, none) → Happens .matrixOpStart s u) ∧
    (∀ r o, s.matrixHead g.a = some (r, o) → (o.started = true → Happens .matrixOpComplete s ((s.endOp o).convCheck r.id)) ∧
      (o.started = false → NotYet .matrixOpComplete s))) ∧
  (∀ (s : State) (r : Row) (o : Op) (z ha hb : Bool) (k : Nat), s.matrixReady s.clock.arg.a = some (r, o) → o.kind = .mop z ha hb k → 4 ≤ r.w →
    let a := halfOf s r false ha
    let b := halfOf s r true hb
    let lo := if o.f = 0 then 0 else r.mxk
    let hi := min k (lo + stepsAtOnce a b)
    let cut (l : List XF) : List XF := (l.take hi).drop lo
    let unit := (s.cluster r.cluster).mx
    let vB := if r.band then 16 else 24
    lo < hi → (r.band = true → (unit.bandk = 0 ∨ unit.openHA = ha ∧ unit.openHB = hb) ∧ unit.bandk + (hi - lo) < 128) →
      ∃ u q, Happens .matrixOpStart s u ∧ u.row? r.id = some q ∧ q.mxk = hi ∧
        (∀ i < 64, ∀ j < 2 * r.w,
          cellOf (u.slice r) r.w vB i j = ((cut (a.row i)).zip (cut (b.row j))).foldl macStep (cellOf (s.slice r) r.w vB i j) % 2 ^ 32) ∧
        (z = true → ∀ i < 64, (u.slice r).elem r.w 15 32 i = (cut (a.row i)).foldl addF32 ((s.slice r).elem r.w 15 32 i) % 2 ^ 32) ∧
        (∀ n < 15, (u.slice r).reg n = (s.slice r).reg n) ∧ (r.band = true → (u.cluster r.cluster).mx.bandk = unit.bandk + (hi - lo))) ∧
  (∀ (s : State) (r : Row) (o : Op), s.matrixReady s.clock.arg.a = some (r, o) → o.kind = .mfold → 0 < r.w →
    let unit := (s.cluster r.cluster).mx
    let sa := (halfOf s r false unit.openHA).scale
    let sb := (halfOf s r true unit.openHB).scale
    ∃ u, Happens .matrixOpStart s u ∧ (unit.bandk = 0 → u.slices = s.slices) ∧
      (unit.bandk ≠ 0 → (u.cluster r.cluster).mx.bandk = 0 ∧ (∀ n < 15, (u.slice r).reg n = (s.slice r).reg n) ∧ ∀ i < 64, ∀ j < 2 * r.w,
        cellOf (u.slice r) r.w 16 i j = 0 ∧ cellOf (u.slice r) r.w 24 i j = foldValue (cellOf (s.slice r) r.w 24 i j)
          (cellOf (s.slice r) r.w 16 i j) (FMap.getD sa i xone) (FMap.getD sb j xone) % 2 ^ 32)) ∧
  (∀ (s : State) (r : Row) (o : Op) (n : Nat) (sc : Option (Reg × Reg)) (blk b : DrainBlk), s.drainStart r n sc blk = .ok b →
    (blk.rm = none → b.rm = some (r.frm, r.vxrm) ∧ (sc = none → b.sc = none) ∧ ∀ vs vz, sc = some (vs, vz) → ∃ l fl, b.sc = some (l, fl) ∧
      l.length = 2 * r.w ∧ ∀ j < 2 * r.w, let sl := s.slice r
        let num (v : Reg) : XF := if (sl.reg v).tag = .bf16 then fmtBf16.decode (sl.elem r.w v 16 j) else fmtF32.decode (sl.elem r.w v 32 j)
        l[j]? = some (num vs, num vz)) ∧
    (s.matrixReady s.clock.arg.a = some (r, o) → o.kind = .mdrain n sc blk → (s.slice r).parity = [] → r.threadLive = false → 0 < r.w →
      r.mxrow < 64 → (∀ p, b.sc = some p → p.1.length = 2 * r.w) → ∀ w vd, b.pos = 0 → b.words = [w] → decodeWord w.toNat = some (.vmv vd (.vec 24) 0) →
      drainWordOk r (s.slice r) (.vmv vd (.vec 24) 0) = true → ∃ u q, Happens .matrixOpStart s u ∧ u.row? r.id = some q ∧
        q.mxrow = (r.mxrow + 1) % 64 ∧ (∀ i < 64, ∀ j < 2 * r.w, cellOf (u.slice r) r.w 24 i j = cellOf (s.slice r) r.w 24 i j) ∧
        ∀ j < 2 * r.w, let acc := cellOf (s.slice r) r.w 24 r.mxrow j
          cellOf (u.slice r) r.w vd r.mxrow j = match b.sc.bind fun p => p.1[j]? with
            | none => acc % 2 ^ 32
            | some p => scaledValue acc ((s.slice r).elem r.w 15 32 r.mxrow) p.1 p.2 % 2 ^ 32))

/-- R330, R331, R334 to R336, R341: a doorbell of a queue the host fills moves TAIL between TAIL and HEAD + 2^LOG2, and is ignored otherwise; the
slot of a launch is read when it reaches the head, one that is not valid being rejected, and it is started once its conditions hold; the
engine places a team that fits, of the lowest priority number, in the queues' turn; a row placed begins with the registers R57, R63 and R65 give,
its x1 to x31 those of ARGS, on slices of owner 0 that it takes, or with VOWN.VALID = 0 on those of another; a team that has not fitted for 100 µs
becomes blocking; a launch whose rows have all ended writes its status and time, and its event follows the record with release order. The model's
own reading or choice in it: the event codes (log 8), the scratchpad offset (log 14), the request of a disabled queue (log 19), the address space
of rings (log 40), the bytes of new registers (log 52), rows not placed yet (log 57). -/
def Obligations.LaunchEngineEvents : Prop :=
  ∀ s : State, let g := s.clock.arg
    (g.a < 16 → ∀ e u, s.readQueue g.a g.b = (some e, u) →
      (e.dev = false → e.tail ≤ g.w.toNat → g.w.toNat ≤ e.head + 2 ^ e.log2 → Happens .hostDoorbell s (u.queuePut g.a g.b 3 g.w.toNat)) ∧
      (e.dev = true ∨ g.w.toNat < e.tail ∨ e.head + 2 ^ e.log2 < g.w.toNat → Happens .hostDoorbell s (u.log 6 g.a 0 g.b g.w.toNat))) ∧
    (∀ e u, s.readQueue g.a g.b = (some e, u) →
      (e.tail ≤ e.head → NotYet .launchStart s) ∧
      (e.head < e.tail → ∀ k, FMap.get? u.engine.kept (u.queueIx g.a g.b) = some k →
        (k.slot = none → ∀ ls bs v, u.eng g.a (e.ring + 64 * (e.head % 2 ^ e.log2)) 64 = some (ls, bs, v) →
          (e.dev = true → Happens .launchStart s (v.keep (v.queueIx g.a g.b) { k with slot := some bs })) ∧
          (e.dev = false → v.checkDesc g.a (parseDesc bs) = none → Happens .launchStart s (v.startLaunch g.a g.b e (parseDesc bs) true)) ∧
          (e.dev = false → ∀ img w, v.checkDesc g.a (parseDesc bs) = some (img, w) →
            Happens .launchStart s (w.keep (w.queueIx g.a g.b) { k with slot := some bs }))) ∧
        (∀ bs, k.slot = some bs → (parseDesc bs).depev = 0 → (parseDesc bs).depwm = 0 → (parseDesc bs).flags % 2 = 0 →
          Happens .launchStart s (u.startLaunch g.a g.b e (parseDesc bs) false)))) ∧
    (∀ cs v, State.candidates s.readQueues.engine.launches [] s.readQueues = (cs, v) →
      let fits := cs.filter fun c => (v.candFit cs c).isSome
      (fits = [] → (∀ c ∈ cs, c.l.unfit.isSome) → v.engine.kept = s.engine.kept → NotYet .launchEngineSelection s) ∧
      (fits ≠ [] → (cs.map (·.g)).Nodup →
        ∃ c die plan, ∃ w : State, c ∈ cs ∧ v.candFit cs c = some (die, plan) ∧ Happens .launchEngineSelection s (w.placeTeam cs c die plan) ∧
          w.rows = v.rows ∧ w.mem = v.mem ∧ w.clusters = v.clusters ∧ ∀ b ∈ fits, c.prio ≤ b.prio ∧
            let at_ := (FMap.getD v.engine.turn c.prio (0, 0)).1
            (b.prio = c.prio → at_ ≤ c.g ∧ b.g < at_ ∨ c.g ≤ b.g ∧ (at_ ≤ c.g ↔ at_ ≤ b.g)))) ∧
    (∀ l t cs u k, State.candidates s.engine.launches [] s = (cs, u) → cs.find? (fun c => c.l.id == g.a) = some k → k.l.unfit = some t →
      k.l.blocking = none → u.candFit cs k = none → k.l.die = some l →
      (u.clock.et < t + 100000 → NotYet .teamBlockingTimeout s) ∧
      (t + 100000 ≤ u.clock.et → ∀ p, u.planDie k.l.part l true k.whole (imageKey k.l.part k.l.image) k.img k.rows = some p →
        ∀ d, u.bestDie k.l.part [(l, p)] = some d →
        Happens .teamBlockingTimeout s (u.modLaunch g.a fun x => { x with blocking := some (u.clock.et, d.1) }))) ∧
    (∀ (l : Launch) (img : KImage) (prio off fo size : Nat) (whole : Bool) (p : PlanRow) (u v : State) (code : List Byte),
      s.row? s.engine.nextRow = none → img.ovs[p.role.ov]? = some (fo, size) →
      s.loadImage l.part p.cluster (imageKey l.part l.image) l.image img = (off, u) → u.engRun l.part (l.image + fo) 128 size = some (code, v) →
      let m := v.pokeBytes (spadAt p.cluster + off) code
      let t := s.placeRow l img prio whole p
      ∃ r, t.row? s.engine.nextRow = some r ∧ r.cluster = p.cluster ∧ r.ctx = some p.ctx ∧ r.cls = p.role.cls ∧ r.nregCode = p.role.nreg ∧
        r.roleIx = p.roleIx ∧ r.team = l.next ∧ r.rowid = p.rowid ∧ r.part = l.part ∧ r.th.pc = BitVec.ofNat 64 (l.image + fo + p.role.off) ∧
        (∀ i, r.th.getX i = 0 ∨ l.args ≠ 0 ∧ i ≠ 0) ∧
        (∀ ls bs w, l.args ≠ 0 → m.eng l.part l.args 256 = some (ls, bs, w) → ∀ i : Reg, i ≠ 0 →
          r.th.getX i = BitVec.ofNat 64 (leNat ((bs.drop (8 * i.val)).take 8))) ∧
        (∀ n < 12, r.cf[n]? = some 0) ∧ (∀ n < 8, r.cv[n]? = some none ∧ r.streams[n]? = some none) ∧ (∀ n < 4, r.wm[n]? = some none) ∧
        (∀ n : Fin 8, r.sb[n] = 0) ∧ r.vps = [] ∧ r.blocks = [] ∧ r.bundles = [] ∧ r.th.wait = none ∧ r.th.frozen = none ∧ r.th.gwct = 0 ∧
        r.vxrm = 0 ∧ r.vsat = false ∧ r.frm = 0 ∧ r.fflags = 0 ∧ r.zp = false ∧ r.band = false ∧ r.mxon = false ∧ r.mxrow = 0 ∧ r.mxk = 0 ∧
        ((s.slice r).owner = 0 → let sl := t.slice r
          r.vvalid = true ∧ sl.owner = r.owner ∧ sl.w = p.w ∧ sl.base = p.base ∧ sl.nreg = p.role.nreg ∧ sl.vl = 0 ∧ sl.ew = 2 ∧ sl.grp = 0 ∧
          sl.vestart = 0 ∧ sl.vdirty = 0 ∧ sl.strip = StripV.closed ∧ (∀ n : Reg, (sl.reg n).tag = .none ∧ (sl.reg n).hwm = 0) ∧
          ∀ n : Fin 8, sl.m[n] = MaskV.fresh) ∧
        ((s.slice r).owner ≠ 0 → (s.slice r).owner ≠ r.owner → r.vvalid = false ∧ t.slice r = s.slice r)) ∧
    (∀ l, s.engine.launches.find? (fun l => l.id == g.a) = some l →
      let without (u : State) : State := { u with engine := { u.engine with launches := u.engine.launches.filter (·.id != g.a) } }
      (∀ k, l.recorded = some k →
        (s.clock.et ≤ k → NotYet .completionRecordWrite s) ∧
        (k < s.clock.et → Happens .completionRecordWrite s (without (s.signalEvent l.part l.doneEv)))) ∧
      (l.recorded = none →
        (s.launchDone l = false → NotYet .completionRecordWrite s) ∧
        (s.launchDone l = true →
          let status := if l.rejected then 2 else if l.killed ≠ 0 ∨ l.forced = true then 1 else 0
          let put := if l.done = 0 then (s, 0) else s.engPut l.part l.done (leBytes 8 (status + l.killed % 2 ^ 32 * 2 ^ 16) ++ leBytes 8 s.clock.et)
          (l.doneEv = 0 → Happens .completionRecordWrite s (without put.1)) ∧
          (l.doneEv ≠ 0 → Happens .completionRecordWrite s (put.1.modLaunch g.a fun q => { q with recorded := some put.2 })))))

/-- R222 to R225, R230, R358, R362, R363, R369 to R373, R377: the host reads and writes the HBM window of every partition at its homes, a read of
a poisoned line saying so, a write under a byte mask and with a completion; requests of other devices are served, and answers end their operations; a remote operation without an
answer for 10 ms, and those toward a device that has failed, fault as REMOTEFLT; a collective completes once every member has submitted the one of the same
position; a member whose ports have been silent for 1 ms has failed, remote operations toward it and collectives with it fault, and it is heard
again with its next answer; a heartbeat is answered, and a replay changes nothing. The model's own reading or choice in it: bytes read under
another key are free (log 22), remote accesses of poisoned lines and of host memory (logs 46 and 47), how a member is heard again (log 87),
operations of ended rows (log 89). -/
def Obligations.HostAndDomainEvents : Prop :=
  ∀ s : State, let g := s.clock.arg
    (let n := g.l.headD 1
     let ls := locRun { key := g.b, enc := 0, home := 0 } n
     g.a < 16 → s.pdesc g.a 1 ≤ g.b → g.b + n ≤ s.pdesc g.a 2 → g.b + n ≤ 2 ^ 39 →
       (s.poisoned ls = none → Happens .hostMemRead s (s.send (4 :: 0 :: (s.homeBytes g.a ls).map (·.toNat)))) ∧
       (s.poisoned ls ≠ none → Happens .hostMemRead s (s.send [4, 1]))) ∧
    (16 ≤ g.a ∨ g.b < s.pdesc g.a 1 ∨ s.pdesc g.a 2 < g.b → NotYet .hostMemRead s ∧ NotYet .hostMemWrite s) ∧
    (let ls := locRun { key := g.b, enc := 0, home := 0 } g.bytes.length
     let on (i : Nat) : Bool := g.l.isEmpty || bit (g.l.getD (i / 64) 0) (i % 64)
     g.a < 16 → s.pdesc g.a 1 ≤ g.b → g.b + g.bytes.length ≤ s.pdesc g.a 2 → g.b + g.bytes.length ≤ 2 ^ 39 →
       Happens .hostMemWrite s ((s.applyAt (.hnd 1280) 128 g.a false
         (((ls.zip g.bytes).zipIdx.filter fun q => on q.2).map fun q => .byte q.1.1 0xFF q.1.2)).1.send [4, 2])) ∧
    (∀ q, g.req = some q → Happens .remoteRequestArrival s (s.serveRemote q)) ∧
    (∀ o d op w od ad v x old t, s.op? g.a = some o → o.stopped = false → s.lineBehind o = false → o.kind = .ramo d op w od ad v x →
      g.ack = some (.amo old t) → ad.toNat / 2 ^ 50 < bits (s.pdesc o.part 13) 32 14 →
      (s.pdesc o.part 12, ad.toNat / 2 ^ 50) ∉ s.mgmt.failed → Happens .remoteAcknowledgement s (((s.raiseGwct (.ctl o.row) t).modThread (.ctl o.row)
        fun q => q.setX d (if w then (old.extractLsb' 0 32).signExtend 64 else old)).endOp o)) ∧
    (∀ o, s.op? g.a = some o → o.kind.isRemote = true → o.stopped = false →
      (s.clock.et < o.since + 10000000 → NotYet .remoteOpTimeout s) ∧
      (o.since + 10000000 ≤ s.clock.et → Happens .remoteOpTimeout s
        (s.raiseOp o { code := .remoteflt, pc := o.pc, f := some o.f, addr1 := o.kind.remoteAddr o.f }))) ∧
    (∀ o d e j, s.op? g.a = some o → o.kind = .coll d e j → o.stopped = false →
      let ms := g.members.filter (·.ordinal == j)
      ((∃ k < bits (s.pdesc o.part 13) 32 14, ∀ m ∈ ms, m.self ≠ k) → NotYet .collectiveComplete s) ∧
      ((∀ k < bits (s.pdesc o.part 13) 32 14, ∃ m ∈ ms, m.self = k) → (∃ m ∈ ms, collAgree m.desc d = false) →
        Happens .collectiveComplete s (s.raiseOp o { code := .remoteflt, pc := o.pc, f := some 0 })) ∧
      ((∀ k < bits (s.pdesc o.part 13) 32 14, ∃ m ∈ ms, m.self = k) → (∀ m ∈ ms, collAgree m.desc d = true) →
        let me := bits (s.pdesc o.part 13) 0 14
        let spann := bits (s.pdesc o.part 13) 32 14
        let ty := bits (d.headD 0) 16 8
        let n := if bits (d.headD 0) 0 8 = 3 ∧ bits (d.headD 0) 32 32 ≠ me then 0 else collSend d spann
        ∀ own u v, ReadsRun o (collShape (d.getD 2 0) ty (collSend d spann)) n 0 (s.settle o.row) own u →
          let out := collResult d (ms.map fun m => if m.self = me then { m with data := own } else m) me spann
          WritesRun o (collShape (d.getD 3 0) ty out.length) out 0 u v →
          (e = 0 → Happens .collectiveComplete s (v.endOp o)) ∧ (e ≠ 0 → Happens .collectiveComplete s ((v.signalEvent o.part e).endOp o)))) ∧
    (let heard := ((s.mgmt.heard.find? fun q => q.1 == g.b && q.2.1 == g.a).map (·.2.2)).getD 0
     let inSpan := ∃ p < 16, s.partOn p = true ∧ s.pdesc p 12 = g.b ∧ g.a < bits (s.pdesc p 13) 32 14 ∧ bits (s.pdesc p 13) 0 14 ≠ g.a
     let hit (o : Op) : Bool := !o.stopped && s.pdesc o.part 12 == g.b && (match o.kind with
       | .coll .. => true
       | k => k.isRemote && k.remoteAddr o.f / 2 ^ 50 == g.a)
     let away := (s.engine.launches.flatMap (·.remote)).filter hit
     let u := { s with
       mgmt := { s.mgmt with failed := (g.b, g.a) :: s.mgmt.failed }
       engine := { s.engine with launches := s.engine.launches.map fun l =>
         { l with remote := l.remote.filter fun o => away.all fun q => q.id != o.id } } }
     (inSpan → (g.b, g.a) ∉ s.mgmt.failed → heard + 1000000 ≤ s.clock.et → Happens .deviceFailureDetected s
       ((s.ops.filter hit).foldl (fun u o => u.raiseOp o { code := .remoteflt, pc := o.pc, f := some (if o.kind.isRemote then o.f else 0)
                                                           addr1 := o.kind.remoteAddr (if o.kind.isRemote then o.f else 0) }) u)) ∧
     (¬ inSpan ∨ (g.b, g.a) ∈ s.mgmt.failed ∨ s.clock.et < heard + 1000000 → NotYet .deviceFailureDetected s)) ∧
    (∀ p va, (s.pdesc p 12, va / 2 ^ 50) ∈ s.mgmt.failed → s.remoteAway p va = some { code := .remoteflt, addr1 := va, addr2 := 0 }) ∧
    (∀ o, s.op? g.a = none → s.awayOp? g.a = some o → o.since + 10000000 ≤ s.clock.et → ∃ u, Happens .remoteOpTimeout s u ∧
      (∀ l ∈ u.engine.launches, ∀ q ∈ l.remote, q.id ≠ o.id) ∧ u.rows = s.rows ∧ u.mem = s.mem ∧ u.ops = s.ops) ∧
    (g.a < 16 → Happens .felokLinkReplay s s ∧
      (g.flag = false → ∃ u, Happens .heartbeat s u ∧ OnlyMgmt s u ∧
        FMap.get? u.mgmt.heartbeat g.a = some s.clock.et ∧ u.mgmt.outbox = s.mgmt.outbox ++ [[6, g.a]]) ∧
      (g.flag = true → ∃ u, Happens .heartbeat s u ∧ OnlyMgmt s u ∧ (g.w.toNat, g.b, s.clock.et) ∈ u.mgmt.heard ∧
        (g.w.toNat, g.b) ∉ u.mgmt.failed ∧ ∀ q, q ≠ (g.w.toNat, g.b) → (q ∈ u.mgmt.failed ↔ q ∈ s.mgmt.failed))) ∧
    (16 ≤ g.a → NotYet .heartbeat s ∧ NotYet .felokLinkReplay s)

/-- R325, R360, R361, R365, R366, R374 to R376: a partition's key is made at its creation and erased at its destruction, after which no byte
stands under it; EN is set once every condition holds, and the condition that fails is logged; clearing EN fails the frozen threads, asks the
rows to stop, and ends the launches once they have; a snapshot in a span takes the span's barrier first, is taken when all rows have stopped
and every remote operation is acknowledged, and goes to the own region and to the buddy; a restore puts back a whole snapshot of this group
and member, and fails otherwise; a member's peer region is kept, and sent to it on its command 3. The model's own reading or choice in it: the
event codes and data (log 8), the layout of a range list and of a region (log 15), what a restore and a disabling leave (logs 34 and 35), an
enable before all rows have stopped (log 77), a grant that stays (log 78), the barrier (log 79). -/
def Obligations.PartitionEvents : Prop :=
  ∀ s : State, let g := s.clock.arg
    let p := g.a
    let spann := bits (s.pdesc p 13) 32 14
    let outside (i : Nat) (u : State) : Prop := ∀ k, (k < s.rgn p i ∨ s.rgn p i + s.rgn p (i + 1) ≤ k) → u.byte k = s.byte k
    p < 16 →
    ((s.part p).keyCreated = false → ∃ u, Happens .partitionCreation s u ∧ u.mem = s.mem ∧ u.rows = s.rows ∧ (u.part p).keyCreated = true ∧
      (u.part p).keyReleased = false ∧ (∀ q, q ≠ p → u.part q = s.part q)) ∧
    ((s.part p).keyCreated = true → NotYet .partitionCreation s) ∧
    ((s.part p).keyCreated = true → s.partOn p = false → (∀ r ∈ s.rows, r.part ≠ p) → ∃ u, Happens .partitionDestruction s u ∧
      (u.part p).keyCreated = false ∧ (u.part p).keyReleased = false ∧ (∀ q ∈ u.mem.keys, q.2 ≠ p + 1) ∧ u.mem.cells = s.mem.cells) ∧
    (s.partOn p = true → NotYet .partitionEnable s ∧ NotYet .partitionDestruction s) ∧
    (s.partOn p = false →
      ((∃ q < 16, q ≠ p ∧ s.partOn q = true ∧ s.partsApart p q = false) → Happens .partitionEnable s (s.log 10 p 0 1)) ∧
      ((∀ q < 16, q ≠ p → s.partOn q = true → s.partsApart p q = true) →
        (s.partAligned p = false → Happens .partitionEnable s (s.log 10 p 0 2)) ∧
        (s.partAligned p = true → s.spanOk p = true → s.rgnOk p = true → (s.part p).keyCreated = true →
          (s.stopping p = true → Happens .partitionEnable s (s.log 10 p 0 7)) ∧
          (s.stopping p = false → (s.handlerImage p = none → Happens .partitionEnable s (s.log 10 p 0 6)) ∧ ∀ base size code u,
            s.handlerImage p = some (base, size, code, u) → u.parts = s.parts →
            ∃ v, Happens .partitionEnable s v ∧ v.partOn p = true ∧ (v.part p).effw = (s.part p).floorw ∧ (v.part p).notify = 0 ∧
              (v.part p).grant = (s.part p).grant ∧ (v.part p).collSeq = 0 ∧ v.rows = u.rows)))) ∧
    (s.partOn p = true → (s.rows.map (·.id)).Nodup → (∃ r ∈ s.rows, r.part = p ∧ r.ctx ≠ none) → (∀ k ∈ s.cave.recs, k.part ≠ p) →
      ∃ u, Happens .partitionDisable s u ∧ u.partOn p = false ∧ { u.mem with eventQ := s.mem.eventQ } = s.mem ∧
        ∀ id r, s.row? id = some r → ∃ q, u.row? id = some q ∧ q.th = r.th ∧ (r.part = p → r.ctx ≠ none → q.preempt ≠ none) ∧ (r.part ≠ p → q = r)) ∧
    (s.partOn p = false → s.stopping p = true → (∀ r ∈ s.rows, r.part = p → r.ctx = none) → (∀ r ∈ s.rows, ∃ l ∈ s.engine.launches,
      l.id = r.launch ∧ l.part = r.part) → ∃ u, Happens .partitionDisable s u ∧ (∀ r ∈ u.rows, r.part ≠ p) ∧
        (∀ l ∈ u.engine.launches, l.part = p → l.forced = true) ∧ (u.part p).hres = 0) ∧
    ((s.part p).snapState ≠ 1 → ∃ u, Happens .snapshot s u ∧ (u.part p).snapState = 1 ∧ (u.part p).snapList = g.w.toNat ∧ u.mem = s.mem ∧
      (spann ≠ 0 → (u.part p).snapBar = true ∧ u.rows = s.rows) ∧
      (spann = 0 → (u.part p).snapBar = false ∧ ((s.rows.map (·.id)).Nodup → ∀ r ∈ u.rows, r.part = p → r.ctx ≠ none → r.preempt ≠ none))) ∧
    ((s.part p).snapState = 1 → (s.part p).snapBar = true →
      let failed := ∃ q ∈ s.mgmt.failed, q.1 = s.pdesc p 12
      (failed → Happens .snapshot s (s.modPart p fun q => { q with snapState := 3, snapBar := false })) ∧
      (¬ failed → (∃ k < spann, ∀ m ∈ g.members, m.self ≠ k) → NotYet .snapshot s) ∧
      (¬ failed → (∀ k < spann, ∃ m ∈ g.members, m.self = k) → ∃ u, Happens .snapshot s u ∧ (u.part p).snapState = 1 ∧
        (u.part p).snapBar = false ∧ u.mem = s.mem ∧ ((s.rows.map (·.id)).Nodup → ∀ r ∈ u.rows, r.part = p → r.ctx ≠ none → r.preempt ≠ none))) ∧
    ((s.part p).snapState = 1 → (s.part p).snapBar = false →
      ((∃ r ∈ s.rows, r.part = p ∧ r.ctx ≠ none) ∨ (∃ o ∈ s.ops, o.part = p ∧ o.kind.isRemote = true ∧ o.stopped = false) → NotYet .snapshot s) ∧
      ((∀ r ∈ s.rows, r.part = p → r.ctx = none) → (∀ o ∈ s.ops, o.part = p → o.kind.isRemote = true → o.stopped = true) →
        (∀ l ∈ s.engine.launches, l.part = p → l.remote = []) → (∀ w ∈ s.mem.writes, w.part ≠ p) → s.MemOk →
        ∃ u, Happens .snapshot s u ∧ ((u.part p).snapState = 2 ∨ (u.part p).snapState = 3) ∧ u.rows = s.rows ∧ outside 0 u ∧
          ((u.part p).snapState = 2 → ∃ d, u.ownSnap p = some d ∧ d.complete = true ∧ d.rows = s.rows.filter (·.part == p) ∧
            d.launches = s.engine.launches.filter (·.part == p) ∧ d.size ≤ s.rgn p 1 ∧ d.group = s.pdesc p 12 ∧
            d.self = bits (s.pdesc p 13) 0 14 ∧ (spann ≠ 0 → g.flag = true)) ∧
          (spann ≠ 0 → ∃ d, u.mgmt.snapOut = s.mgmt.snapOut ++ [(bits (s.pdesc p 14) 0 14, d)] ∧ d.rows = s.rows.filter (·.part == p)))) ∧
    (s.partOn p = true → (s.part p).snapState ≠ 1 →
      let fail := s.modPart p fun q => { q with snapState := 3 }
      let good (d : SnapData) : Prop := d.complete = true ∧ d.group = s.pdesc p 12 ∧ d.self = bits (s.pdesc p 13) 0 14
      ((s.part p).own = none → Happens .restoreOwn s fail) ∧
      (∀ r, (s.part p).own = some r →
        (good r.snap → r.base = s.rgn p 0 → r.size = s.rgn p 1 → s.trailerStands r = true →
          Happens .restoreOwn s ((s.restore p r.snap).modPart p fun q => { q with snapState := 2 })) ∧
        (¬ good r.snap ∨ r.base ≠ s.rgn p 0 ∨ r.size ≠ s.rgn p 1 ∨ s.trailerStands r = false → Happens .restoreOwn s fail)) ∧
      (spann = 0 ∨ g.snap = none → Happens .restoreBuddy s fail) ∧
      (spann ≠ 0 → ∀ d, g.snap = some d → (good d → Happens .restoreBuddy s ((s.restore p d).modPart p fun q => { q with snapState := 2 })) ∧
        (¬ good d → Happens .restoreBuddy s fail))) ∧
    (∀ d, g.snap = some d → s.partOn p = true → s.rgn p 3 ≠ 0 → d.group = s.pdesc p 12 → d.group ≠ 0 → s.MemOk →
      let fits := d.size ≤ s.rgn p 3
      ∃ u, Happens .peerSnapshotWrite s u ∧ u.rows = s.rows ∧ outside 2 u ∧
        (fits → u.mgmt.outbox = s.mgmt.outbox ++ [[7, p, 1]] ∧ ∃ r, (u.part p).peer = some r ∧ r.snap = d ∧ r.base = s.rgn p 2 ∧ r.size = s.rgn p 3) ∧
        (¬ fits → u.mgmt.outbox = s.mgmt.outbox ++ [[7, p, 0]] ∧ (u.part p).peer = none)) ∧
    (∀ r self, g.req = some (.snap (s.pdesc p 12) self) → s.groupPart (s.pdesc p 12) = some p → (s.part p).peer = some r → r.snap.complete = true →
      r.snap.group = s.pdesc p 12 → r.snap.self = self → r.base = s.rgn p 2 → r.size = s.rgn p 3 → s.trailerStands r = true →
      Happens .remoteRequestArrival s { s with mgmt := { s.mgmt with snapOut := s.mgmt.snapOut ++ [(self, r.snap)] } })

/-- R16, R358, R359, R361, R378 to R386: a lane with three corrected events within 24 hours, or one that fails a test, leaves service while no
row is resident, and a cluster that would keep fewer than 30 leaves instead; a test's energy is of the overhead account; a cap below the idle
floor is refused, one below the floors is taken only by force, which scales them; measured energy goes to the account of what it was spent on; the
power controls lower grants over the cap, or of partitions with a hot die, raise the lowest below 0.97 of the cap, and slow the matrix units after
100 µs; a die above 115 °C stops; allowed activity moves by an eighth at a time; the scrub counts, or poisons. The model's own reading or choice in
it: the event codes and data (log 8), the lane a corrected error counts for (log 45), grants of partitions that are not enabled (log 78), the
rounding of ballast (log 80). -/
def Obligations.PowerAndSensorEvents : Prop :=
  ∀ s : State, let g := s.clock.arg
    (g.a < 128 → (∀ r ∈ s.rows, r.cluster = g.a → r.ctx = none) →
      (g.b ≤ 33 → (s.cluster g.a).laneDue g.b = true → (s.cluster g.a).retired.contains g.b = false →
        Happens .laneRetirement s (s.retire g.a g.b)) ∧
      let u := { s with mgmt := { s.mgmt with overhead := (s.mgmt.overhead + g.w.toNat) % 2 ^ 64 } }
      (g.flag = false → Happens .inFieldTest s u) ∧
      (g.flag = true → g.b ≤ 33 → (s.cluster g.a).retired.contains g.b = false → Happens .inFieldTest s (u.retire g.a g.b))) ∧
    (g.a < 128 → (∃ r ∈ s.rows, r.cluster = g.a ∧ r.ctx ≠ none) → NotYet .laneRetirement s ∧ NotYet .inFieldTest s) ∧
    (∀ c lane, c < 128 → lane ≤ 32 → (30 ≤ ((s.cluster c).inService.filter (· != lane)).length →
        ((s.retire c lane).cluster c).outOfService = (s.cluster c).outOfService) ∧
      (((s.cluster c).inService.filter (· != lane)).length < 30 → ((s.retire c lane).cluster c).outOfService = true) ∧
      lane ∈ ((s.retire c lane).cluster c).retired) ∧
    (∀ i force, (i, force) ∈ [(Instr.capwWrite, false), (.capwForceWrite, true)] →
      let c := min (g.a % 2 ^ 16) 2400
      let idle := s.mgmt.idle
      let f := s.floorSum
      ∃ u, Happens i s u ∧
        (c < idle → u.mgmt.capw = s.mgmt.capw ∧ u.mgmt.capStatus = 1 ∧ u.parts = s.parts) ∧
        (idle ≤ c → idle + f ≤ c → u.mgmt.capw = c ∧ u.mgmt.capStatus = 0 ∧ ∀ p < 16, (u.part p).effw = (s.part p).floorw) ∧
        (idle ≤ c → c < idle + f → force = false → u.mgmt.capw = s.mgmt.capw ∧ u.mgmt.capStatus = 2 ∧ u.parts = s.parts) ∧
        (idle ≤ c → c < idle + f → force = true → u.mgmt.capw = c ∧ u.mgmt.capStatus = 0 ∧ ∀ p < 16, s.partOn p = true →
          (u.part p).effw = (s.part p).floorw * (c - idle) / f ∧ (u.part p).notify = ((s.part p).notify + 1) % 2 ^ 16)) ∧
    (g.a < 16 → let w := s.modPart g.a fun q => { q with floorw := g.b % 2 ^ 16 }
      (s.mgmt.capw < s.mgmt.idle + w.floorSum → Happens .floorwWrite s (s.log 14 g.a 0 (g.b % 2 ^ 16))) ∧
      (s.mgmt.idle + w.floorSum ≤ s.mgmt.capw → ∃ u, Happens .floorwWrite s u ∧ (u.part g.a).floorw = g.b % 2 ^ 16 ∧ (u.part g.a).effw = g.b % 2 ^ 16)) ∧
    (∃ u, Happens .idleFloorMeasure s u ∧ OnlyMgmt s u ∧ u.mgmt.idle = g.a % 2 ^ 16 ∧ u.mgmt.capw = s.mgmt.capw ∧
      (u.mgmt.logCount = s.mgmt.logCount ↔ g.a % 2 ^ 16 ≤ s.mgmt.capw)) ∧
    (let share (p : Nat) (q : Activity × Nat) : Nat := match q.1 with
       | .work t => if s.partOf t = p then q.2 else 0
       | .save r | .restore r => if s.partOf (.ctl r) = p then q.2 else 0
       | .ballast steps => ((steps.filter (·.1 == p)).map fun k => q.2 * k.2 / (steps.map (·.2)).sum).sum
       | _ => 0
     let common (q : Activity × Nat) : Nat := match q.1 with
       | .scrub | .test | .idle => q.2
       | _ => 0
     let hot (d t : Nat) : Prop := ∃ x ∈ (s.mgmt.sensors.dieTemp.drop (16 * d)).take 16, t < x
     let hotPart (p : Nat) : Prop := ∃ d < 8, hot d 105 ∧ ∃ k < 16, s.clusterIn p (16 * d + k) = true
     let above (p : Nat) : Prop := s.partOn p = true ∧ (s.part p).effw < g.l.getD p 0
     ∃ u, Happens .powerControlTick s u ∧ u.rows = s.rows ∧ u.mem = s.mem ∧ u.slices = s.slices ∧
      (s.mgmt.overhead < 2 ^ 64 → u.mgmt.overhead = (s.mgmt.overhead + (g.charges.map common).sum) % 2 ^ 64) ∧
      (∀ p < 16, ((s.part p).energy < 2 ^ 64 → (u.part p).energy = ((s.part p).energy + (g.charges.map (share p)).sum) % 2 ^ 64) ∧
        (s.mgmt.capw < g.a ∨ hotPart p → above p → 1 < (s.part p).grant → s.mgmt.capw * 97 ≤ g.a * 100 → (u.part p).grant = (s.part p).grant - 1) ∧
        (s.mgmt.capw * 97 ≤ g.a * 100 → g.a ≤ s.mgmt.capw → ¬ hotPart p → (u.part p).grant = (s.part p).grant) ∧
        (g.a * 100 < s.mgmt.capw * 97 → (∀ q < 16, ¬ hotPart q) → (s.part p).grant < 16 → (∀ q < p, (s.part p).grant < (s.part q).grant) →
          (∀ q < 16, (s.part p).grant ≤ (s.part q).grant) → (u.part p).grant = (s.part p).grant + 1 ∧
            ∀ q < 16, q ≠ p → (u.part q).grant = (s.part q).grant)) ∧
      ((∀ p < 16, ¬ hotPart p) → g.a ≤ s.mgmt.capw → u.mgmt.overSince = none) ∧
      ((s.mgmt.capw < g.a ∨ ∃ p < 16, hotPart p) → (∀ p < 16, (s.mgmt.capw < g.a ∨ hotPart p) → above p → (s.part p).grant ≤ 1) →
        u.mgmt.overSince = some (s.mgmt.overSince.getD s.clock.et))) ∧
    (∀ t, s.mgmt.overSince = some t →
      (s.clock.et < t + 100000 → NotYet .matrixThrottle s) ∧
      (t + 100000 ≤ s.clock.et → ∃ u, Happens .matrixThrottle s u ∧ u.parts = s.parts ∧ u.mem = s.mem ∧ ∀ c < 128,
        (∃ p < 16, s.clusterIn p c = true ∧ s.partOn p = true ∧ (s.part p).effw < g.l.getD p 0) → (u.cluster c).mx.throttled = true)) ∧
    (let hot (d : Nat) : Prop := ∃ t ∈ (g.sensors.dieTemp.drop (16 * d)).take 16, 115 < t
     ∃ u, Happens .sensorSample s u ∧ u.mgmt.sensors = g.sensors ∧
      ((∀ d < 8, ¬ hot d) → u = { s with mgmt := { s.mgmt with sensors := g.sensors } }) ∧
      (∀ d < 8, hot d → (∀ k < 16, (u.cluster (16 * d + k)).stoppedHot = true) ∧ (∀ r ∈ u.rows, r.cluster / 16 ≠ d) ∧
        s.mgmt.logCount < u.mgmt.logCount)) ∧
    (∃ u, Happens .currentSlewWindow s u ∧ OnlyMgmt s u ∧ u.mgmt.slew.length = s.mgmt.slew.length ∧
      ∀ k x y : Nat, s.mgmt.slew[k]? = some x → u.mgmt.slew[k]? = some y → y ≤ x + 1 ∧ x ≤ y + 1) ∧
    (g.a < 2 ^ 33 → (g.b = 0 → Happens .patrolScrub s s) ∧
      (g.b = 1 → Happens .patrolScrub s { s with mgmt := { s.mgmt with corrected := s.mgmt.corrected + 1 } }) ∧
      (g.b = 2 → ∃ u, Happens .patrolScrub s u ∧ g.a ∈ u.mem.poison ∧ u.mem.cells = s.mem.cells ∧ ∀ c ∈ u.mem.l1, c.line ≠ g.a))

/-- R3, R16, R361, R365, R366, R368, R389, R390: a register write has its register's effect, and none outside the table, and a read answers with
the register's value, zero for a field that only takes writes and outside the table; a firmware image is
taken into the inactive slot when its signature holds and its rollback number is not lower, and is discarded and logged otherwise; a reset
boots a slot that passes its self-test, falls back to the other, and stops where neither does; each SPDM request is answered, in a session under
its key, which a key exchange makes and a FINISH with its proof takes into use; a key is released only to the session that read the measurements
it states. The model's own reading or choice in it: the event codes and data (log
8), what a reset keeps (log 24), the order of SPDM requests (log 26), signatures and hashes as free functions (log 23), an offset that is
no multiple of 8 (log 59), reads as a second form of the event (log 60). -/
def Obligations.FirmwareAndIdentityEvents : Prop :=
  ∀ s : State, let g := s.clock.arg
    (g.l = [] → g.flag2 = false → ∃ u, Happens .registerWrite s u ∧ ((g.a % 8 ≠ 0 ∨ 0x600000 ≤ g.a) → u = s) ∧
      (∀ p < 16, ∀ i < 15, i ∉ [8, 11, 13, 14] → g.a = 0x200000 + 256 * p + 8 * i → s.partOn p = false → (u.part p).desc[i]? = some g.w) ∧
      (∀ p < 16, ∀ i < 15, i ∉ [8, 11, 13, 14] → g.a = 0x200000 + 256 * p + 8 * i → s.partOn p = true → u.parts = s.parts)) ∧
    (∀ v, g.flag2 = true →
      ((g.l = [] ∧
        ((∃ p < 16, ∃ i < 17, g.a = 0x200000 + 256 * p + 8 * i ∧ v = s.pdesc p i) ∨
         (∃ p < 16, g.a = 0x300000 + 8 * p ∧ v = (s.part p).snapState % 4) ∨
         (g.a = 0x500000 ∧ v = s.mgmt.capStatus % 4 * 2 ^ 61 + s.mgmt.idle % 2 ^ 16 * 2 ^ 32 + s.mgmt.capw % 2 ^ 16) ∨
         (∃ p < 16, g.a = 0x500100 + 8 * p ∧ v = (s.part p).effw % 2 ^ 16 * 2 ^ 16 + (s.part p).floorw % 2 ^ 16) ∨
         (g.a = 0x500200 ∧ v = s.mgmt.overhead % 2 ^ 64) ∨ (g.a = 0x500300 ∧ v = s.mgmt.logCount % 2 ^ 64) ∨
         ((g.a % 8 ≠ 0 ∨ g.a < 0x200000 ∨ 0x610000 ≤ g.a) ∧ v = 0))) ∨
       (∃ p l, g.l = p :: l ∧ p < 16 ∧
        ((∃ i < 17, g.a = 8 * i ∧ v = s.pdesc p i) ∨ (g.a = 0x020808 ∧ v = (s.part p).invDone % 2 ^ 64) ∨
         (g.a = 0x030000 ∧ v = (s.part p).notify % 2 ^ 16 * 2 ^ 48 + (s.part p).effw % 2 ^ 16 * 2 ^ 32 + (s.part p).grant % 32) ∨
         (g.a = 0x030008 ∧ v = (s.part p).energy % 2 ^ 64) ∨
         ((g.a % 8 ≠ 0 ∨ 0x010000 ≤ g.a ∧ g.a < 0x020000 ∨ g.a = 0x020800 ∨ 0x030010 ≤ g.a) ∧ v = 0)))) →
      Happens .registerWrite s (s.send [8, v])) ∧
    (g.flag2 = false → ∀ p l, g.l = p :: l → p < 16 →
      (∀ q < 2 ^ 13, g.a = 0x010000 + 8 * q → Happens .registerWrite s (s.doorbell p q g.w.toNat)) ∧
      (g.a % 8 ≠ 0 ∨ g.a < 0x010000 ∨ 0x030000 ≤ g.a → Happens .registerWrite s s)) ∧
    (∀ p l, g.l = p :: l → 16 ≤ p → NotYet .registerWrite s) ∧
    (∀ i, g.image = some i →
      let good := Config.rsaVerify i.content i.signature = true ∧ s.mgmt.rollback ≤ i.rollback
      ∃ u, Happens .firmwareUpdate s u ∧ (¬ good → u = s.log 15 0 0 i.rollback) ∧
        (good → u.mgmt.staged = true ∧ (s.mgmt.activeB = true → u.mgmt.slotA = some i ∧ u.mgmt.slotB = s.mgmt.slotB) ∧
          (s.mgmt.activeB = false → u.mgmt.slotB = some i ∧ u.mgmt.slotA = s.mgmt.slotA) ∧
          ((if s.mgmt.activeB = true then s.mgmt.slotA else s.mgmt.slotB) = some i → u.mgmt.log = s.mgmt.log))) ∧
    (let b := Bool.xor s.mgmt.staged s.mgmt.activeB
     let ok (b : Bool) : Bool := if b then g.flag2 else g.flag
     (ok b = true → ∃ u, Happens .deviceReset s u ∧ u.mgmt.activeB = b ∧ u.rows = [] ∧ u.handlers = [] ∧ u.mem = State.reset.mem ∧
       u.clock.et = 0 ∧ u.parts = State.reset.parts ∧ u.cave = State.reset.cave ∧ u.mgmt.staged = false) ∧
     (ok b = false → ok (!b) = true → ∃ u, Happens .deviceReset s u ∧ u.mgmt.activeB = !b ∧ u.rows = [] ∧ u.mem = State.reset.mem ∧
       u.mgmt.log.getLast? = some [0, 16, 0, 0, b.toNat, 0]) ∧
     (ok b = false → ok (!b) = false → exec .deviceReset s = .fault .noBootableFirmware)) ∧
    (∀ i n a, spdmForm s i = some (n, a) → ∃ u, Happens i s u ∧ OnlyMgmt s u ∧ u.mgmt.outbox = s.mgmt.outbox ++ [answered s n a] ∧
      u.mgmt.spdm = (if n = 0 then [0] else s.mgmt.spdm ++ [n]) ∧ u.mgmt.key = (if n = 0 then none else s.mgmt.key)) ∧
    (∃ u seed, Happens .keyExchange s u ∧ u.mem = s.mem ∧ u.rows = s.rows ∧ u.mgmt.key = some (Config.ecdhKey seed g.b) ∧
      u.mgmt.outbox = s.mgmt.outbox ++ [[5, 7, Config.ecdhPublic seed, Config.spdmSign g.a (Config.ecdhPublic seed)]] ∧
      u.mgmt.spdm = s.mgmt.spdm.filter (fun k => decide (k < 6)) ++ [7]) ∧
    (∃ u, Happens .finish s u ∧ OnlyMgmt s u ∧ u.mgmt.key = s.mgmt.key ∧
      let proved := ∃ k, s.mgmt.key = some k ∧ g.a = Config.finishData k ∧ 8 ∉ s.mgmt.spdm
      (proved → u.mgmt.spdm = s.mgmt.spdm ++ [8] ∧ u.mgmt.outbox = s.mgmt.outbox ++ [[5, 8, 1]]) ∧
      (¬ proved → u.mgmt.spdm = s.mgmt.spdm ∧ u.mgmt.outbox = s.mgmt.outbox ++ [answered s 8 [0]])) ∧
    (let ok := g.a < 16 ∧ (s.part g.a).keyCreated = true ∧ (∃ l m, s.mgmt.spdm = l ++ 8 :: m ∧ 6 ∈ m) ∧ g.b = Config.measurementHash s.measured
     ∃ u, Happens .keyRelease s u ∧ u.mem = s.mem ∧ (∀ p < 16, (u.part p).keyReleased = true ↔ (s.part p).keyReleased = true ∨ p = g.a ∧ ok) ∧
      (ok → u.mgmt.outbox = s.mgmt.outbox ++ [answered s 9 [1]]) ∧ (¬ ok → u.mgmt.outbox = s.mgmt.outbox ++ [answered s 9 [0]]))

/-- The state after reset. The spec gives: ET 0 (R13), no lane out of service (R16), every partition's descriptor, TLBINV count, snapshot state,
energy and floor 0 with grant 16 (R354, R365, R375, R376, R380, R383, R385), CAPW 2400 with status 0 (R380), an empty event log (R387). The
model's choices: no row and no handler, memory that reads 0 (log 3), the idle floor 0 (log 6), firmware slots without an image (log 7), and
nothing on the agenda or the issue list (log 1). -/
def Obligations.ResetState : Prop :=
  let s := State.reset
  (s.clock.et = 0 ∧ (∀ c, (s.cluster c).retired = [] ∧ (s.cluster c).outOfService = false ∧ (s.cluster c).lmap.extractLsb' 40 6 = 32) ∧
    (∀ p < 16, (∀ i < 20, (s.part p).desc[i]? = some 0) ∧ s.partOn p = false ∧ (s.part p).invDone = 0 ∧ (s.part p).snapState = 0 ∧
      (s.part p).floorw = 0 ∧ (s.part p).effw = 0 ∧ (s.part p).notify = 0 ∧ (s.part p).grant = 16 ∧ (s.part p).energy = 0) ∧
    s.mgmt.capw = 2400 ∧ s.mgmt.capStatus = 0 ∧ s.mgmt.log = [] ∧ s.mgmt.logCount = 0 ∧ s.cave.recs = [] ∧ ∀ d, s.cave.queue.getD d [] = []) ∧
  (s.MemOk ∧ (∀ k, s.byte k = 0) ∧ s.rows = [] ∧ s.handlers = [] ∧ s.ops = [] ∧ s.mem.writes = [] ∧ s.mgmt.idle = 0 ∧
    s.mgmt.slotA = none ∧ s.mgmt.slotB = none ∧ s.clock.agenda = [] ∧ s.clock.issue = [])

/-- R27, R104, R224, R324: the head of the issue list runs the word its thread fetches: a control or handler thread the four bytes its overlay
binding puts at its PC, a block or bundle its next word. One that decodes at its place to a well-formed instruction runs as exec gives; an
event that was given runs with its arguments; a PC outside the overlay is OVLMISS; and a word that needs the answer of an outstanding ramo
waits. The model's own reading or choice in it: the agenda and the issue list (log 1), and that a word waits for the answer of a ramo it
needs (log 43). -/
def Obligations.StepRunsDecodedWord : Prop :=
  ∀ s : State,
    (∀ e l, s.clock.agenda = e :: l → step s = exec e.1 { s with clock := { s.clock with agenda := l, arg := e.2 } }) ∧
    (s.clock.agenda = [] → ∀ a l, s.clock.issue = a :: l →
      (∀ w i, s.fetched a = .word w → decodeAt (s.placeAt a) w = .ok i → i.wellFormed ∧
        (s.ramoWait a i = false → step s = exec i s) ∧ (s.ramoWait a i = true → step s = .next s.popIssue)) ∧
      (∀ w c, s.fetched a = .word w → decodeAt (s.placeAt a) w = .error c →
        step s = exec .nonInstructionWord { s with clock := { s.clock with arg := { w := BitVec.ofNat 64 w } } }) ∧
      (∀ r, a = .ctl r.id → s.row? r.id = some r → s.fetched a = .miss → s.mustWait (.ctl r.id) true false = false → s.blocksLive (.ctl r.id) = false →
        step s = .next (s.popIssue.raise (.ctl r.id) { code := .ovlmiss, pc := r.th.pc })) ∧
      (s.actorReady a = false → step s = .next s.popIssue)) ∧
    (∀ r, s.row? r.id = some r → s.actorReady (.ctl r.id) = true →
      (r.bind.1 ≤ r.th.pc.toNat → r.th.pc.toNat < r.bind.1 + r.bind.2.1 → r.bind.2.2 + r.bind.2.1 ≤ 2 ^ 19 →
        s.fetched (.ctl r.id) = .word (leNat ((List.range 4).map fun i =>
          Memory.read r.code (spadAt r.cluster + r.bind.2.2 + (r.th.pc.toNat - r.bind.1) + i)))) ∧
      (r.th.pc.toNat < r.bind.1 ∨ r.bind.1 + r.bind.2.1 ≤ r.th.pc.toNat ∨ 2 ^ 19 < r.bind.2.2 + r.bind.2.1 → s.fetched (.ctl r.id) = .miss)) ∧
    (∀ r, s.MemOk → s.row? r.id = some r → r.ctx ≠ none → ∃ q, (s.rebind (.ctl r.id)).row? r.id = some q ∧ q.th = r.th ∧
      ∀ k, q.bind.2.2 ≤ k → k < q.bind.2.2 + q.bind.2.1 + 3 →
        Memory.read q.code (spadAt r.cluster + k) = s.byte (spadAt r.cluster + k))

/-- R104, R105: a word that is no instruction at its place faults as the first failing test gives: of a control or handler thread at its PC, of
a block's word at the lowest active element, of a VP's word for that VP. -/
def Obligations.NonInstructionWordResults : Prop :=
  (∀ (s : State) (t : Tid) (th : Thread) (a : Actor) (c : Code), s.Issues true false t th → s.clock.issue.head? = some a →
    decodeAt (s.placeAt a) (s.clock.arg.w.toNat % 2 ^ 32) = .error c → s.blocksLive t = false →
    Raises .nonInstructionWord s t th.pc c) ∧
  (∀ (s : State) (r : Row) (k : LaneRun) (c : Code), s.LanesIssue r k → decodeAt .block (s.clock.arg.w.toNat % 2 ^ 32) = .error c →
    (s.slice r).strip.nr = false → exec .nonInstructionWord s = .next (s.popIssue.raiseRow r.id
      { code := c, pc := wordAddr k.header k.idx, f := some ((s.lockLV r k).acts.headD 0), header := k.header, run := some k })) ∧
  (∀ (s : State) (r : Row) (n : Nat) (b : Bundle) (m : BMem) (c : Code), s.VpIssues r n b m →
    decodeAt .thread (s.clock.arg.w.toNat % 2 ^ 32) = .error c →
    exec .nonInstructionWord s = .next (s.popIssue.raiseVp r.id m.e (vpFault b m.idx c 0 0 0 m.ops)))

/-- R31, R37, R306, R327: a word of the control stream that may not run ahead of the row's vector-fetched blocks stays where it is while they may
still fault, one on the row's vector state until they have ended, and any word while a step of the thread waits for them (which words those are
is the model's choice, log 12); and while the slices hold another row's contents, the words and the csr accesses R327 names fault as VOWN before
any effect. -/
def Obligations.WordsHeldAndVown : Prop :=
  (∀ (s : State) (t : Tid) (th : Thread) (i : Instr), s.ctlActor = some t → s.thread? t = some th →
    (s.blocksLive t = true → waitsForBlocks s i → Retries i s) ∧
    (s.blocksRun t = true → vectorWord i = true → (∀ d, i ≠ .vf d) → Retries i s) ∧
    (s.blocksRun t = true → s.steppingOf t ≠ none → isWord i → majorOf i ≤ 0x19 ∨ majorOf i = 0x2C ∨ majorOf i = 0x32 → Retries i s)) ∧
  (∀ (s : State) (r : Row) (i : Instr), s.ctlActor = some (.ctl r.id) → s.row? r.id = some r → r.vvalid = false →
    (vectorWord i = true → s.mustWait (.ctl r.id) false true = false → Raises i s (.ctl r.id) r.th.pc .vown) ∧
    (vownCsr i = true → s.mustWait (.ctl r.id) false false = false → Raises i s (.ctl r.id) r.th.pc .vown))

/-- R89 to R103: words the spec encodes in its examples decode to the instructions it gives. -/
def Obligations.SpecWordsDecode : Prop :=
∀ p ∈ specWords, decodeTableWord 32 p.1 = some p.2

/-- R89 to R102: decoding the word of a well-formed instruction gives the instruction back, with every operand at every value; two
different well-formed instructions have different words. -/
def Obligations.DecodeEncode : Prop :=
  (∀ (i : Instr) (w : Nat), i.wellFormed → encode i = some w → w < 2 ^ 32 ∧ decodeWord w = some i ∧ decodeTableWord 32 w = some i) ∧
  (∀ (i j : Instr) (w : Nat), i.wellFormed → j.wellFormed → encode i = some w → encode j = some w → i = j)

/-- Memory keeps its canonical form: addresses strictly rising, and no entry equal to what an unlisted address reads as. Every step keeps
it, whatever the word or the event. -/
def Obligations.StepKeepsMemOk : Prop :=
∀ s u : State, s.MemOk → step s = .next u → u.MemOk

/-- R75, R77, R78, R83, R84, R162, R165 to R167: what the rounded results of the float words are. A finite value rounds to the number of its
format that the mode names, with the flags of R75, NaN to the canonical NaN; sums and products are exact before that, with the sign of a zero sum
by the mode, and NV for opposite infinities and for infinity times zero; quotients, square roots, reciprocals and powers of two at integers are
rounded once; minimum and maximum give an operand; conversions to an integer round to one, or give the nearer bound with NV. The model's own reading
in it: exp2 elsewhere is computed to 192 bits (log 9). -/
def Obligations.RoundingResults : Prop :=
  (∀ (f : FFmt) (rm : RMode) (neg : Bool) (m : Nat) (e : Int), f ∈ [fmtF32, fmtBf16, fmtFp16, fmtE5m2, fmtE4m3] →
    let x := numOf (.fin neg m e)
    let sign := neg.toNat * 2 ^ (f.eb + f.mb)
    (m ≠ 0 → roundedInto f rm (· < x) (x < ·) neg (roundX f rm (.fin neg m e))) ∧
    (m = 0 → roundX f rm (.fin neg m e) = (sign, 0)) ∧ roundX f rm .nan = (canonicalNan f, 0) ∧
    (f.hasInf = true → roundX f rm (.inf neg) = (sign + (2 ^ f.eb - 1) * 2 ^ f.mb, 0)) ∧
    (f.hasInf = false → roundX f rm (.inf neg) = (sign + 0x7E, 5))) ∧
  (∀ (f : FFmt) (b : Nat), f ∈ [fmtF32, fmtBf16, fmtFp16, fmtE5m2, fmtE4m3] → b < 2 ^ f.width →
    let e := b / 2 ^ f.mb % 2 ^ f.eb
    let m := b % 2 ^ f.mb
    let s : Rat := if 2 ^ (f.eb + f.mb) ≤ b then -1 else 1
    (e = 2 ^ f.eb - 1 → f.hasInf = true → f.decode b = if m = 0 then .inf (decide (2 ^ (f.eb + f.mb) ≤ b)) else .nan) ∧
    (f.hasInf = false → e = 2 ^ f.eb - 1 → m = 2 ^ f.mb - 1 → f.decode b = .nan) ∧
    (e = 0 → numOf (f.decode b) = s * pow2 (1 - f.bias) * ((m : Rat) / pow2 f.mb)) ∧
    (e ≠ 0 → e ≠ 2 ^ f.eb - 1 ∨ f.hasInf = false ∧ m ≠ 2 ^ f.mb - 1 →
      numOf (f.decode b) = s * pow2 ((e : Int) - f.bias) * (1 + (m : Rat) / pow2 f.mb))) ∧
  (∀ (rm : RMode) (a b : Bool) (m k : Nat) (e g : Int),
    let x : XF := .fin a m e
    let y : XF := .fin b k g
    numOf (xadd rm x y).1 = numOf x + numOf y ∧ (xadd rm x y).2 = 0 ∧ numOf (xmul x y).1 = numOf x * numOf y ∧ (xmul x y).2 = 0 ∧
    (numOf x + numOf y = 0 → ∃ q, (xadd rm x y).1 = .fin (if a = b then a else decide (rm = .rdn)) 0 q) ∧
    xadd rm (.inf a) (.inf b) = (if a = b then (.inf a, 0) else (.nan, 16)) ∧ xadd rm (.inf a) y = (.inf a, 0) ∧ xadd rm x (.inf b) = (.inf b, 0) ∧
    xmul (.inf a) (.inf b) = (.inf (a != b), 0) ∧ xmul (.inf a) y = (if k = 0 then (.nan, 16) else (.inf (a != b), 0)) ∧
    xmul x (.inf b) = (if m = 0 then (.nan, 16) else (.inf (a != b), 0))) ∧
  (∀ (f : FFmt) (rm : RMode) (a b : Bool) (m k : Nat) (e g : Int), f ∈ [fmtF32, fmtBf16] →
    let x : XF := .fin a m e
    let y : XF := .fin b k g
    let inf (n : Bool) : Nat := n.toNat * 2 ^ (f.eb + f.mb) + (2 ^ f.eb - 1) * 2 ^ f.mb
    (m ≠ 0 → k ≠ 0 → roundedInto f rm (· < numOf x / numOf y) (numOf x / numOf y < ·) (a != b) (roundDiv f rm x y)) ∧
    (m = 0 → k ≠ 0 → roundDiv f rm x y = ((a != b).toNat * 2 ^ (f.eb + f.mb), 0)) ∧ (m ≠ 0 → k = 0 → roundDiv f rm x y = (inf (a != b), 8)) ∧
    (m = 0 → k = 0 → roundDiv f rm x y = (canonicalNan f, 16)) ∧ roundDiv f rm (.inf a) (.inf b) = (canonicalNan f, 16) ∧
    roundDiv f rm (.inf a) y = (inf (a != b), 0) ∧ roundDiv f rm x (.inf b) = ((a != b).toNat * 2 ^ (f.eb + f.mb), 0) ∧
    roundRcp f rm x = roundDiv f rm (.fin false 1 0) x ∧
    (m ≠ 0 → a = false → roundedInto f rm (fun r => r < 0 ∨ r * r < numOf x) (fun r => 0 ≤ r ∧ numOf x < r * r) false (roundSqrt f rm x) ∧
      roundedInto f rm (fun r => r < 0 ∨ r * r * numOf x < 1) (fun r => 0 < r ∧ 1 < r * r * numOf x) false (roundRsq f rm x)) ∧
    (m ≠ 0 → a = true → roundSqrt f rm x = (canonicalNan f, 16) ∧ roundRsq f rm x = (canonicalNan f, 16)) ∧
    (m = 0 → roundSqrt f rm x = (a.toNat * 2 ^ (f.eb + f.mb), 0) ∧ roundRsq f rm x = (inf a, 8)) ∧
    (roundSqrt f rm (.inf false) = (inf false, 0) ∧ roundRsq f rm (.inf false) = (0, 0)) ∧
    (∀ z : Int, numOf x = z → -2 ^ 20 ≤ z → z ≤ 2 ^ 20 → roundedInto f rm (· < pow2 z) (pow2 z < ·) false (roundExp2 f rm x)) ∧
    (roundExp2 f rm (.inf false) = (inf false, 0) ∧ roundExp2 f rm (.inf true) = (0, 0))) ∧
  (∀ (f : FFmt) (rm : RMode) (op : XF → XF → XF × Nat) (a b : Nat), f ∈ [fmtF32, fmtBf16] →
    let q := op (f.decode a) (f.decode b)
    fArith2 f rm op a b = ((roundX f rm q.1).1, q.2 ||| (roundX f rm q.1).2 ||| if f.isSnan a ∨ f.isSnan b then 16 else 0) ∧
    (∀ hi : Bool, let p := fminmax f hi a b
      (f.decode a = .nan → f.decode b = .nan → p.1 = canonicalNan f) ∧ (f.decode a = .nan → f.decode b ≠ .nan → p.1 = b) ∧
      (f.decode a ≠ .nan → f.decode b = .nan → p.1 = a) ∧ p.2 = (if f.isSnan a ∨ f.isSnan b then 16 else 0) ∧
      (∀ n m e n' m' e', f.decode a = .fin n m e → f.decode b = .fin n' m' e' →
        let x := numOf (.fin n m e)
        let y := numOf (.fin n' m' e')
        (x < y → p.1 = if hi then b else a) ∧ (y < x → p.1 = if hi then a else b) ∧
        (x = y → n = true → n' = false → p.1 = if hi then b else a) ∧ (x = y → n = false → n' = true → p.1 = if hi then a else b)))) ∧
  (∀ (S D : Tag) (rm : RMode) (x : Nat), S.isFloat = true → D.isInt = true →
    let w := D.width
    let bound (hi : Bool) : Nat := if hi then 2 ^ (w - 1) - 1 else 2 ^ (w - 1)
    (S.ffmt.decode x = .nan → cvtOne S D rm x = (0, 16, false)) ∧ (∀ n, S.ffmt.decode x = .inf n → cvtOne S D rm x = (bound (!n), 16, false)) ∧
    (∀ n m e, S.ffmt.decode x = .fin n m e → ∃ z : Int,
      roundsTo (fun r => ∃ j : Int, r = (j : Rat)) rm (· < numOf (.fin n m e)) (numOf (.fin n m e) < ·) (z : Rat) ∧
      (z < -2 ^ (w - 1) → cvtOne S D rm x = (bound false, 16, false)) ∧ (2 ^ (w - 1) ≤ z → cvtOne S D rm x = (bound true, 16, false)) ∧
      (-2 ^ (w - 1) ≤ z → z < 2 ^ (w - 1) →
        cvtOne S D rm x = ((z % 2 ^ w).toNat, if numOf (.fin n m e) = z then 0 else 1, false)))) ∧
  (∀ (S D : Tag) (rm : RMode) (x : Nat), S.isInt = true → x < 2 ^ S.width →
    let z : Int := if 2 ^ (S.width - 1) ≤ x then (x : Int) - 2 ^ S.width else x
    (D.isFloat = true → cvtOne S D rm x =
      ((roundX D.ffmt rm (.fin (decide (z < 0)) z.natAbs 0)).1, (roundX D.ffmt rm (.fin (decide (z < 0)) z.natAbs 0)).2, false)) ∧
    (D.isInt = true → cvtOne S D rm x = ((clamp true D.width z % 2 ^ D.width).toNat, 0, decide (z ≠ clamp true D.width z))))
end

