-- ==== Sys2Proof/Laws/State.lean ====
section
/-! SUPPORT. What each named update of the state leaves as it is: one lemma a field, true by unfolding; and what the updates of
rows, threads and slices read back as. -/

set_option Elab.async false

namespace Sys2Proof.Machine.State

/-! popIssue -/

@[simp] theorem popIssue_mem (s : State) : (s.popIssue).mem = s.mem := rfl

@[simp] theorem popIssue_rows (s : State) : (s.popIssue).rows = s.rows := rfl

@[simp] theorem popIssue_handlers (s : State) : (s.popIssue).handlers = s.handlers := rfl

@[simp] theorem popIssue_slices (s : State) : (s.popIssue).slices = s.slices := rfl

@[simp] theorem popIssue_clusters (s : State) : (s.popIssue).clusters = s.clusters := rfl

@[simp] theorem popIssue_ops (s : State) : (s.popIssue).ops = s.ops := rfl

@[simp] theorem popIssue_cave (s : State) : (s.popIssue).cave = s.cave := rfl

@[simp] theorem popIssue_engine (s : State) : (s.popIssue).engine = s.engine := rfl

@[simp] theorem popIssue_parts (s : State) : (s.popIssue).parts = s.parts := rfl

@[simp] theorem popIssue_mgmt (s : State) : (s.popIssue).mgmt = s.mgmt := rfl

/-! setMem -/

@[simp] theorem setMem_clock (s : State) (m : Mem) : (s.setMem m).clock = s.clock := rfl

@[simp] theorem setMem_rows (s : State) (m : Mem) : (s.setMem m).rows = s.rows := rfl

@[simp] theorem setMem_handlers (s : State) (m : Mem) : (s.setMem m).handlers = s.handlers := rfl

@[simp] theorem setMem_slices (s : State) (m : Mem) : (s.setMem m).slices = s.slices := rfl

@[simp] theorem setMem_clusters (s : State) (m : Mem) : (s.setMem m).clusters = s.clusters := rfl

@[simp] theorem setMem_ops (s : State) (m : Mem) : (s.setMem m).ops = s.ops := rfl

@[simp] theorem setMem_cave (s : State) (m : Mem) : (s.setMem m).cave = s.cave := rfl

@[simp] theorem setMem_engine (s : State) (m : Mem) : (s.setMem m).engine = s.engine := rfl

@[simp] theorem setMem_parts (s : State) (m : Mem) : (s.setMem m).parts = s.parts := rfl

@[simp] theorem setMem_mgmt (s : State) (m : Mem) : (s.setMem m).mgmt = s.mgmt := rfl

/-! pokeBytes -/

@[simp] theorem pokeBytes_clock (s : State) (k : Nat) (bs : List Byte) : (s.pokeBytes k bs).clock = s.clock := rfl

@[simp] theorem pokeBytes_rows (s : State) (k : Nat) (bs : List Byte) : (s.pokeBytes k bs).rows = s.rows := rfl

@[simp] theorem pokeBytes_handlers (s : State) (k : Nat) (bs : List Byte) : (s.pokeBytes k bs).handlers = s.handlers := rfl

@[simp] theorem pokeBytes_slices (s : State) (k : Nat) (bs : List Byte) : (s.pokeBytes k bs).slices = s.slices := rfl

@[simp] theorem pokeBytes_clusters (s : State) (k : Nat) (bs : List Byte) : (s.pokeBytes k bs).clusters = s.clusters := rfl

@[simp] theorem pokeBytes_ops (s : State) (k : Nat) (bs : List Byte) : (s.pokeBytes k bs).ops = s.ops := rfl

@[simp] theorem pokeBytes_cave (s : State) (k : Nat) (bs : List Byte) : (s.pokeBytes k bs).cave = s.cave := rfl

@[simp] theorem pokeBytes_engine (s : State) (k : Nat) (bs : List Byte) : (s.pokeBytes k bs).engine = s.engine := rfl

@[simp] theorem pokeBytes_parts (s : State) (k : Nat) (bs : List Byte) : (s.pokeBytes k bs).parts = s.parts := rfl

@[simp] theorem pokeBytes_mgmt (s : State) (k : Nat) (bs : List Byte) : (s.pokeBytes k bs).mgmt = s.mgmt := rfl

/-! fresh -/

@[simp] theorem fresh_mem (s : State) : (s.fresh.2).mem = s.mem := rfl

@[simp] theorem fresh_rows (s : State) : (s.fresh.2).rows = s.rows := rfl

@[simp] theorem fresh_handlers (s : State) : (s.fresh.2).handlers = s.handlers := rfl

@[simp] theorem fresh_slices (s : State) : (s.fresh.2).slices = s.slices := rfl

@[simp] theorem fresh_clusters (s : State) : (s.fresh.2).clusters = s.clusters := rfl

@[simp] theorem fresh_ops (s : State) : (s.fresh.2).ops = s.ops := rfl

@[simp] theorem fresh_cave (s : State) : (s.fresh.2).cave = s.cave := rfl

@[simp] theorem fresh_engine (s : State) : (s.fresh.2).engine = s.engine := rfl

@[simp] theorem fresh_parts (s : State) : (s.fresh.2).parts = s.parts := rfl

@[simp] theorem fresh_mgmt (s : State) : (s.fresh.2).mgmt = s.mgmt := rfl

/-! newId -/

@[simp] theorem newId_mem (s : State) : (s.newId.2).mem = s.mem := rfl

@[simp] theorem newId_rows (s : State) : (s.newId.2).rows = s.rows := rfl

@[simp] theorem newId_handlers (s : State) : (s.newId.2).handlers = s.handlers := rfl

@[simp] theorem newId_slices (s : State) : (s.newId.2).slices = s.slices := rfl

@[simp] theorem newId_clusters (s : State) : (s.newId.2).clusters = s.clusters := rfl

@[simp] theorem newId_ops (s : State) : (s.newId.2).ops = s.ops := rfl

@[simp] theorem newId_cave (s : State) : (s.newId.2).cave = s.cave := rfl

@[simp] theorem newId_engine (s : State) : (s.newId.2).engine = s.engine := rfl

@[simp] theorem newId_parts (s : State) : (s.newId.2).parts = s.parts := rfl

@[simp] theorem newId_mgmt (s : State) : (s.newId.2).mgmt = s.mgmt := rfl

/-! setRow -/

@[simp] theorem setRow_clock (s : State) (r : Row) : (s.setRow r).clock = s.clock := rfl

@[simp] theorem setRow_mem (s : State) (r : Row) : (s.setRow r).mem = s.mem := rfl

@[simp] theorem setRow_handlers (s : State) (r : Row) : (s.setRow r).handlers = s.handlers := rfl

@[simp] theorem setRow_slices (s : State) (r : Row) : (s.setRow r).slices = s.slices := rfl

@[simp] theorem setRow_clusters (s : State) (r : Row) : (s.setRow r).clusters = s.clusters := rfl

@[simp] theorem setRow_ops (s : State) (r : Row) : (s.setRow r).ops = s.ops := rfl

@[simp] theorem setRow_cave (s : State) (r : Row) : (s.setRow r).cave = s.cave := rfl

@[simp] theorem setRow_engine (s : State) (r : Row) : (s.setRow r).engine = s.engine := rfl

@[simp] theorem setRow_parts (s : State) (r : Row) : (s.setRow r).parts = s.parts := rfl

@[simp] theorem setRow_mgmt (s : State) (r : Row) : (s.setRow r).mgmt = s.mgmt := rfl

/-! modRow -/

@[simp] theorem modRow_clock (s : State) (r : Nat) (f : Row → Row) : (s.modRow r f).clock = s.clock := rfl

@[simp] theorem modRow_mem (s : State) (r : Nat) (f : Row → Row) : (s.modRow r f).mem = s.mem := rfl

@[simp] theorem modRow_handlers (s : State) (r : Nat) (f : Row → Row) : (s.modRow r f).handlers = s.handlers := rfl

@[simp] theorem modRow_slices (s : State) (r : Nat) (f : Row → Row) : (s.modRow r f).slices = s.slices := rfl

@[simp] theorem modRow_clusters (s : State) (r : Nat) (f : Row → Row) : (s.modRow r f).clusters = s.clusters := rfl

@[simp] theorem modRow_ops (s : State) (r : Nat) (f : Row → Row) : (s.modRow r f).ops = s.ops := rfl

@[simp] theorem modRow_cave (s : State) (r : Nat) (f : Row → Row) : (s.modRow r f).cave = s.cave := rfl

@[simp] theorem modRow_engine (s : State) (r : Nat) (f : Row → Row) : (s.modRow r f).engine = s.engine := rfl

@[simp] theorem modRow_parts (s : State) (r : Nat) (f : Row → Row) : (s.modRow r f).parts = s.parts := rfl

@[simp] theorem modRow_mgmt (s : State) (r : Nat) (f : Row → Row) : (s.modRow r f).mgmt = s.mgmt := rfl

/-! modHnd -/

@[simp] theorem modHnd_clock (s : State) (h : Nat) (f : HThread → HThread) : (s.modHnd h f).clock = s.clock := rfl

@[simp] theorem modHnd_mem (s : State) (h : Nat) (f : HThread → HThread) : (s.modHnd h f).mem = s.mem := rfl

@[simp] theorem modHnd_rows (s : State) (h : Nat) (f : HThread → HThread) : (s.modHnd h f).rows = s.rows := rfl

@[simp] theorem modHnd_slices (s : State) (h : Nat) (f : HThread → HThread) : (s.modHnd h f).slices = s.slices := rfl

@[simp] theorem modHnd_clusters (s : State) (h : Nat) (f : HThread → HThread) : (s.modHnd h f).clusters = s.clusters := rfl

@[simp] theorem modHnd_ops (s : State) (h : Nat) (f : HThread → HThread) : (s.modHnd h f).ops = s.ops := rfl

@[simp] theorem modHnd_cave (s : State) (h : Nat) (f : HThread → HThread) : (s.modHnd h f).cave = s.cave := rfl

@[simp] theorem modHnd_engine (s : State) (h : Nat) (f : HThread → HThread) : (s.modHnd h f).engine = s.engine := rfl

@[simp] theorem modHnd_parts (s : State) (h : Nat) (f : HThread → HThread) : (s.modHnd h f).parts = s.parts := rfl

@[simp] theorem modHnd_mgmt (s : State) (h : Nat) (f : HThread → HThread) : (s.modHnd h f).mgmt = s.mgmt := rfl

/-! modCluster -/

@[simp] theorem modCluster_clock (s : State) (c : Nat) (f : Cluster → Cluster) : (s.modCluster c f).clock = s.clock := rfl

@[simp] theorem modCluster_mem (s : State) (c : Nat) (f : Cluster → Cluster) : (s.modCluster c f).mem = s.mem := rfl

@[simp] theorem modCluster_rows (s : State) (c : Nat) (f : Cluster → Cluster) : (s.modCluster c f).rows = s.rows := rfl

@[simp] theorem modCluster_handlers (s : State) (c : Nat) (f : Cluster → Cluster) : (s.modCluster c f).handlers = s.handlers := rfl

@[simp] theorem modCluster_slices (s : State) (c : Nat) (f : Cluster → Cluster) : (s.modCluster c f).slices = s.slices := rfl

@[simp] theorem modCluster_ops (s : State) (c : Nat) (f : Cluster → Cluster) : (s.modCluster c f).ops = s.ops := rfl

@[simp] theorem modCluster_cave (s : State) (c : Nat) (f : Cluster → Cluster) : (s.modCluster c f).cave = s.cave := rfl

@[simp] theorem modCluster_engine (s : State) (c : Nat) (f : Cluster → Cluster) : (s.modCluster c f).engine = s.engine := rfl

@[simp] theorem modCluster_parts (s : State) (c : Nat) (f : Cluster → Cluster) : (s.modCluster c f).parts = s.parts := rfl

@[simp] theorem modCluster_mgmt (s : State) (c : Nat) (f : Cluster → Cluster) : (s.modCluster c f).mgmt = s.mgmt := rfl

/-! modPart -/

@[simp] theorem modPart_clock (s : State) (p : Nat) (f : Part → Part) : (s.modPart p f).clock = s.clock := rfl

@[simp] theorem modPart_mem (s : State) (p : Nat) (f : Part → Part) : (s.modPart p f).mem = s.mem := rfl

@[simp] theorem modPart_rows (s : State) (p : Nat) (f : Part → Part) : (s.modPart p f).rows = s.rows := rfl

@[simp] theorem modPart_handlers (s : State) (p : Nat) (f : Part → Part) : (s.modPart p f).handlers = s.handlers := rfl

@[simp] theorem modPart_slices (s : State) (p : Nat) (f : Part → Part) : (s.modPart p f).slices = s.slices := rfl

@[simp] theorem modPart_clusters (s : State) (p : Nat) (f : Part → Part) : (s.modPart p f).clusters = s.clusters := rfl

@[simp] theorem modPart_ops (s : State) (p : Nat) (f : Part → Part) : (s.modPart p f).ops = s.ops := rfl

@[simp] theorem modPart_cave (s : State) (p : Nat) (f : Part → Part) : (s.modPart p f).cave = s.cave := rfl

@[simp] theorem modPart_engine (s : State) (p : Nat) (f : Part → Part) : (s.modPart p f).engine = s.engine := rfl

@[simp] theorem modPart_mgmt (s : State) (p : Nat) (f : Part → Part) : (s.modPart p f).mgmt = s.mgmt := rfl

/-! setSlice -/

@[simp] theorem setSlice_clock (s : State) (r : Row) (sl : Slice) : (s.setSlice r sl).clock = s.clock := rfl

@[simp] theorem setSlice_mem (s : State) (r : Row) (sl : Slice) : (s.setSlice r sl).mem = s.mem := rfl

@[simp] theorem setSlice_rows (s : State) (r : Row) (sl : Slice) : (s.setSlice r sl).rows = s.rows := rfl

@[simp] theorem setSlice_handlers (s : State) (r : Row) (sl : Slice) : (s.setSlice r sl).handlers = s.handlers := rfl

@[simp] theorem setSlice_clusters (s : State) (r : Row) (sl : Slice) : (s.setSlice r sl).clusters = s.clusters := rfl

@[simp] theorem setSlice_ops (s : State) (r : Row) (sl : Slice) : (s.setSlice r sl).ops = s.ops := rfl

@[simp] theorem setSlice_cave (s : State) (r : Row) (sl : Slice) : (s.setSlice r sl).cave = s.cave := rfl

@[simp] theorem setSlice_engine (s : State) (r : Row) (sl : Slice) : (s.setSlice r sl).engine = s.engine := rfl

@[simp] theorem setSlice_parts (s : State) (r : Row) (sl : Slice) : (s.setSlice r sl).parts = s.parts := rfl

@[simp] theorem setSlice_mgmt (s : State) (r : Row) (sl : Slice) : (s.setSlice r sl).mgmt = s.mgmt := rfl

/-! modSlice -/

@[simp] theorem modSlice_clock (s : State) (r : Row) (f : Slice → Slice) : (s.modSlice r f).clock = s.clock := rfl

@[simp] theorem modSlice_mem (s : State) (r : Row) (f : Slice → Slice) : (s.modSlice r f).mem = s.mem := rfl

@[simp] theorem modSlice_rows (s : State) (r : Row) (f : Slice → Slice) : (s.modSlice r f).rows = s.rows := rfl

@[simp] theorem modSlice_handlers (s : State) (r : Row) (f : Slice → Slice) : (s.modSlice r f).handlers = s.handlers := rfl

@[simp] theorem modSlice_clusters (s : State) (r : Row) (f : Slice → Slice) : (s.modSlice r f).clusters = s.clusters := rfl

@[simp] theorem modSlice_ops (s : State) (r : Row) (f : Slice → Slice) : (s.modSlice r f).ops = s.ops := rfl

@[simp] theorem modSlice_cave (s : State) (r : Row) (f : Slice → Slice) : (s.modSlice r f).cave = s.cave := rfl

@[simp] theorem modSlice_engine (s : State) (r : Row) (f : Slice → Slice) : (s.modSlice r f).engine = s.engine := rfl

@[simp] theorem modSlice_parts (s : State) (r : Row) (f : Slice → Slice) : (s.modSlice r f).parts = s.parts := rfl

@[simp] theorem modSlice_mgmt (s : State) (r : Row) (f : Slice → Slice) : (s.modSlice r f).mgmt = s.mgmt := rfl

/-! modVp -/

@[simp] theorem modVp_clock (s : State) (r e : Nat) (f : VP → VP) : (s.modVp r e f).clock = s.clock := rfl

@[simp] theorem modVp_mem (s : State) (r e : Nat) (f : VP → VP) : (s.modVp r e f).mem = s.mem := rfl

@[simp] theorem modVp_handlers (s : State) (r e : Nat) (f : VP → VP) : (s.modVp r e f).handlers = s.handlers := rfl

@[simp] theorem modVp_slices (s : State) (r e : Nat) (f : VP → VP) : (s.modVp r e f).slices = s.slices := rfl

@[simp] theorem modVp_clusters (s : State) (r e : Nat) (f : VP → VP) : (s.modVp r e f).clusters = s.clusters := rfl

@[simp] theorem modVp_ops (s : State) (r e : Nat) (f : VP → VP) : (s.modVp r e f).ops = s.ops := rfl

@[simp] theorem modVp_cave (s : State) (r e : Nat) (f : VP → VP) : (s.modVp r e f).cave = s.cave := rfl

@[simp] theorem modVp_engine (s : State) (r e : Nat) (f : VP → VP) : (s.modVp r e f).engine = s.engine := rfl

@[simp] theorem modVp_parts (s : State) (r e : Nat) (f : VP → VP) : (s.modVp r e f).parts = s.parts := rfl

@[simp] theorem modVp_mgmt (s : State) (r e : Nat) (f : VP → VP) : (s.modVp r e f).mgmt = s.mgmt := rfl

/-! modThread -/

@[simp] theorem modThread_clock (s : State) (t : Tid) (f : Thread → Thread) : (s.modThread t f).clock = s.clock := by
  cases t <;> rfl

@[simp] theorem modThread_mem (s : State) (t : Tid) (f : Thread → Thread) : (s.modThread t f).mem = s.mem := by
  cases t <;> rfl

@[simp] theorem modThread_slices (s : State) (t : Tid) (f : Thread → Thread) : (s.modThread t f).slices = s.slices := by
  cases t <;> rfl

@[simp] theorem modThread_clusters (s : State) (t : Tid) (f : Thread → Thread) : (s.modThread t f).clusters = s.clusters := by
  cases t <;> rfl

@[simp] theorem modThread_ops (s : State) (t : Tid) (f : Thread → Thread) : (s.modThread t f).ops = s.ops := by
  cases t <;> rfl

@[simp] theorem modThread_cave (s : State) (t : Tid) (f : Thread → Thread) : (s.modThread t f).cave = s.cave := by
  cases t <;> rfl

@[simp] theorem modThread_engine (s : State) (t : Tid) (f : Thread → Thread) : (s.modThread t f).engine = s.engine := by
  cases t <;> rfl

@[simp] theorem modThread_parts (s : State) (t : Tid) (f : Thread → Thread) : (s.modThread t f).parts = s.parts := by
  cases t <;> rfl

@[simp] theorem modThread_mgmt (s : State) (t : Tid) (f : Thread → Thread) : (s.modThread t f).mgmt = s.mgmt := by
  cases t <;> rfl

/-! setWait -/

@[simp] theorem setWait_clock (s : State) (t : Tid) (w : Option Wait) : (s.setWait t w).clock = s.clock := by
  cases t <;> rfl

@[simp] theorem setWait_mem (s : State) (t : Tid) (w : Option Wait) : (s.setWait t w).mem = s.mem := by
  cases t <;> rfl

@[simp] theorem setWait_slices (s : State) (t : Tid) (w : Option Wait) : (s.setWait t w).slices = s.slices := by
  cases t <;> rfl

@[simp] theorem setWait_clusters (s : State) (t : Tid) (w : Option Wait) : (s.setWait t w).clusters = s.clusters := by
  cases t <;> rfl

@[simp] theorem setWait_ops (s : State) (t : Tid) (w : Option Wait) : (s.setWait t w).ops = s.ops := by
  cases t <;> rfl

@[simp] theorem setWait_cave (s : State) (t : Tid) (w : Option Wait) : (s.setWait t w).cave = s.cave := by
  cases t <;> rfl

@[simp] theorem setWait_engine (s : State) (t : Tid) (w : Option Wait) : (s.setWait t w).engine = s.engine := by
  cases t <;> rfl

@[simp] theorem setWait_parts (s : State) (t : Tid) (w : Option Wait) : (s.setWait t w).parts = s.parts := by
  cases t <;> rfl

@[simp] theorem setWait_mgmt (s : State) (t : Tid) (w : Option Wait) : (s.setWait t w).mgmt = s.mgmt := by
  cases t <;> rfl

/-! raiseGwct -/

@[simp] theorem raiseGwct_clock (s : State) (t : Tid) (g : Nat) : (s.raiseGwct t g).clock = s.clock := by
  cases t <;> rfl

@[simp] theorem raiseGwct_mem (s : State) (t : Tid) (g : Nat) : (s.raiseGwct t g).mem = s.mem := by
  cases t <;> rfl

@[simp] theorem raiseGwct_slices (s : State) (t : Tid) (g : Nat) : (s.raiseGwct t g).slices = s.slices := by
  cases t <;> rfl

@[simp] theorem raiseGwct_clusters (s : State) (t : Tid) (g : Nat) : (s.raiseGwct t g).clusters = s.clusters := by
  cases t <;> rfl

@[simp] theorem raiseGwct_ops (s : State) (t : Tid) (g : Nat) : (s.raiseGwct t g).ops = s.ops := by
  cases t <;> rfl

@[simp] theorem raiseGwct_cave (s : State) (t : Tid) (g : Nat) : (s.raiseGwct t g).cave = s.cave := by
  cases t <;> rfl

@[simp] theorem raiseGwct_engine (s : State) (t : Tid) (g : Nat) : (s.raiseGwct t g).engine = s.engine := by
  cases t <;> rfl

@[simp] theorem raiseGwct_parts (s : State) (t : Tid) (g : Nat) : (s.raiseGwct t g).parts = s.parts := by
  cases t <;> rfl

@[simp] theorem raiseGwct_mgmt (s : State) (t : Tid) (g : Nat) : (s.raiseGwct t g).mgmt = s.mgmt := by
  cases t <;> rfl

/-! setFrozen -/

@[simp] theorem setFrozen_clock (s : State) (t : Tid) (k : Option Nat) : (s.setFrozen t k).clock = s.clock := by
  cases t <;> rfl

@[simp] theorem setFrozen_mem (s : State) (t : Tid) (k : Option Nat) : (s.setFrozen t k).mem = s.mem := by
  cases t <;> rfl

@[simp] theorem setFrozen_slices (s : State) (t : Tid) (k : Option Nat) : (s.setFrozen t k).slices = s.slices := by
  cases t <;> rfl

@[simp] theorem setFrozen_clusters (s : State) (t : Tid) (k : Option Nat) : (s.setFrozen t k).clusters = s.clusters := by
  cases t <;> rfl

@[simp] theorem setFrozen_ops (s : State) (t : Tid) (k : Option Nat) : (s.setFrozen t k).ops = s.ops := by
  cases t <;> rfl

@[simp] theorem setFrozen_cave (s : State) (t : Tid) (k : Option Nat) : (s.setFrozen t k).cave = s.cave := by
  cases t <;> rfl

@[simp] theorem setFrozen_engine (s : State) (t : Tid) (k : Option Nat) : (s.setFrozen t k).engine = s.engine := by
  cases t <;> rfl

@[simp] theorem setFrozen_parts (s : State) (t : Tid) (k : Option Nat) : (s.setFrozen t k).parts = s.parts := by
  cases t <;> rfl

@[simp] theorem setFrozen_mgmt (s : State) (t : Tid) (k : Option Nat) : (s.setFrozen t k).mgmt = s.mgmt := by
  cases t <;> rfl

/-! clearStepping -/

@[simp] theorem clearStepping_clock (s : State) (t : Tid) : (s.clearStepping t).clock = s.clock := by
  cases t <;> rfl

@[simp] theorem clearStepping_mem (s : State) (t : Tid) : (s.clearStepping t).mem = s.mem := by
  cases t <;> rfl

@[simp] theorem clearStepping_slices (s : State) (t : Tid) : (s.clearStepping t).slices = s.slices := by
  cases t <;> rfl

@[simp] theorem clearStepping_clusters (s : State) (t : Tid) : (s.clearStepping t).clusters = s.clusters := by
  cases t <;> rfl

@[simp] theorem clearStepping_ops (s : State) (t : Tid) : (s.clearStepping t).ops = s.ops := by
  cases t <;> rfl

@[simp] theorem clearStepping_cave (s : State) (t : Tid) : (s.clearStepping t).cave = s.cave := by
  cases t <;> rfl

@[simp] theorem clearStepping_engine (s : State) (t : Tid) : (s.clearStepping t).engine = s.engine := by
  cases t <;> rfl

@[simp] theorem clearStepping_parts (s : State) (t : Tid) : (s.clearStepping t).parts = s.parts := by
  cases t <;> rfl

@[simp] theorem clearStepping_mgmt (s : State) (t : Tid) : (s.clearStepping t).mgmt = s.mgmt := by
  cases t <;> rfl

/-! modFlag -/

@[simp] theorem modFlag_clock (s : State) (t : Tid) (n : Nat) (f : List Nat → Nat → List Nat) : (s.modFlag t n f).clock = s.clock := by
  cases t <;> rfl

@[simp] theorem modFlag_mem (s : State) (t : Tid) (n : Nat) (f : List Nat → Nat → List Nat) : (s.modFlag t n f).mem = s.mem := by
  cases t <;> rfl

@[simp] theorem modFlag_handlers (s : State) (t : Tid) (n : Nat) (f : List Nat → Nat → List Nat) : (s.modFlag t n f).handlers = s.handlers := by
  cases t <;> rfl

@[simp] theorem modFlag_slices (s : State) (t : Tid) (n : Nat) (f : List Nat → Nat → List Nat) : (s.modFlag t n f).slices = s.slices := by
  cases t <;> rfl

@[simp] theorem modFlag_clusters (s : State) (t : Tid) (n : Nat) (f : List Nat → Nat → List Nat) : (s.modFlag t n f).clusters = s.clusters := by
  cases t <;> rfl

@[simp] theorem modFlag_ops (s : State) (t : Tid) (n : Nat) (f : List Nat → Nat → List Nat) : (s.modFlag t n f).ops = s.ops := by
  cases t <;> rfl

@[simp] theorem modFlag_cave (s : State) (t : Tid) (n : Nat) (f : List Nat → Nat → List Nat) : (s.modFlag t n f).cave = s.cave := by
  cases t <;> rfl

@[simp] theorem modFlag_engine (s : State) (t : Tid) (n : Nat) (f : List Nat → Nat → List Nat) : (s.modFlag t n f).engine = s.engine := by
  cases t <;> rfl

@[simp] theorem modFlag_parts (s : State) (t : Tid) (n : Nat) (f : List Nat → Nat → List Nat) : (s.modFlag t n f).parts = s.parts := by
  cases t <;> rfl

@[simp] theorem modFlag_mgmt (s : State) (t : Tid) (n : Nat) (f : List Nat → Nat → List Nat) : (s.modFlag t n f).mgmt = s.mgmt := by
  cases t <;> rfl

/-! log -/

@[simp] theorem log_clock (s : State) (code part cluster d2 d3 : Nat) : (s.log code part cluster d2 d3).clock = s.clock := rfl

@[simp] theorem log_mem (s : State) (code part cluster d2 d3 : Nat) : (s.log code part cluster d2 d3).mem = s.mem := rfl

@[simp] theorem log_rows (s : State) (code part cluster d2 d3 : Nat) : (s.log code part cluster d2 d3).rows = s.rows := rfl

@[simp] theorem log_handlers (s : State) (code part cluster d2 d3 : Nat) : (s.log code part cluster d2 d3).handlers = s.handlers := rfl

@[simp] theorem log_slices (s : State) (code part cluster d2 d3 : Nat) : (s.log code part cluster d2 d3).slices = s.slices := rfl

@[simp] theorem log_clusters (s : State) (code part cluster d2 d3 : Nat) : (s.log code part cluster d2 d3).clusters = s.clusters := rfl

@[simp] theorem log_ops (s : State) (code part cluster d2 d3 : Nat) : (s.log code part cluster d2 d3).ops = s.ops := rfl

@[simp] theorem log_cave (s : State) (code part cluster d2 d3 : Nat) : (s.log code part cluster d2 d3).cave = s.cave := rfl

@[simp] theorem log_engine (s : State) (code part cluster d2 d3 : Nat) : (s.log code part cluster d2 d3).engine = s.engine := rfl

@[simp] theorem log_parts (s : State) (code part cluster d2 d3 : Nat) : (s.log code part cluster d2 d3).parts = s.parts := rfl

/-! refresh -/

@[simp] theorem refresh_clock (s : State) (c : Nat) (ls : List Loc) : (s.refresh c ls).clock = s.clock := rfl

@[simp] theorem refresh_rows (s : State) (c : Nat) (ls : List Loc) : (s.refresh c ls).rows = s.rows := rfl

@[simp] theorem refresh_handlers (s : State) (c : Nat) (ls : List Loc) : (s.refresh c ls).handlers = s.handlers := rfl

@[simp] theorem refresh_slices (s : State) (c : Nat) (ls : List Loc) : (s.refresh c ls).slices = s.slices := rfl

@[simp] theorem refresh_clusters (s : State) (c : Nat) (ls : List Loc) : (s.refresh c ls).clusters = s.clusters := rfl

@[simp] theorem refresh_ops (s : State) (c : Nat) (ls : List Loc) : (s.refresh c ls).ops = s.ops := rfl

@[simp] theorem refresh_cave (s : State) (c : Nat) (ls : List Loc) : (s.refresh c ls).cave = s.cave := rfl

@[simp] theorem refresh_engine (s : State) (c : Nat) (ls : List Loc) : (s.refresh c ls).engine = s.engine := rfl

@[simp] theorem refresh_parts (s : State) (c : Nat) (ls : List Loc) : (s.refresh c ls).parts = s.parts := rfl

@[simp] theorem refresh_mgmt (s : State) (c : Nat) (ls : List Loc) : (s.refresh c ls).mgmt = s.mgmt := rfl

/-! modOp -/

@[simp] theorem modOp_clock (s : State) (k : Nat) (f : Op → Op) : (s.modOp k f).clock = s.clock := rfl

@[simp] theorem modOp_mem (s : State) (k : Nat) (f : Op → Op) : (s.modOp k f).mem = s.mem := rfl

@[simp] theorem modOp_rows (s : State) (k : Nat) (f : Op → Op) : (s.modOp k f).rows = s.rows := rfl

@[simp] theorem modOp_handlers (s : State) (k : Nat) (f : Op → Op) : (s.modOp k f).handlers = s.handlers := rfl

@[simp] theorem modOp_slices (s : State) (k : Nat) (f : Op → Op) : (s.modOp k f).slices = s.slices := rfl

@[simp] theorem modOp_clusters (s : State) (k : Nat) (f : Op → Op) : (s.modOp k f).clusters = s.clusters := rfl

@[simp] theorem modOp_cave (s : State) (k : Nat) (f : Op → Op) : (s.modOp k f).cave = s.cave := rfl

@[simp] theorem modOp_engine (s : State) (k : Nat) (f : Op → Op) : (s.modOp k f).engine = s.engine := rfl

@[simp] theorem modOp_parts (s : State) (k : Nat) (f : Op → Op) : (s.modOp k f).parts = s.parts := rfl

@[simp] theorem modOp_mgmt (s : State) (k : Nat) (f : Op → Op) : (s.modOp k f).mgmt = s.mgmt := rfl

/-! modRec -/

@[simp] theorem modRec_clock (s : State) (k : Nat) (f : FRec → FRec) : (s.modRec k f).clock = s.clock := rfl

@[simp] theorem modRec_mem (s : State) (k : Nat) (f : FRec → FRec) : (s.modRec k f).mem = s.mem := rfl

@[simp] theorem modRec_rows (s : State) (k : Nat) (f : FRec → FRec) : (s.modRec k f).rows = s.rows := rfl

@[simp] theorem modRec_handlers (s : State) (k : Nat) (f : FRec → FRec) : (s.modRec k f).handlers = s.handlers := rfl

@[simp] theorem modRec_slices (s : State) (k : Nat) (f : FRec → FRec) : (s.modRec k f).slices = s.slices := rfl

@[simp] theorem modRec_clusters (s : State) (k : Nat) (f : FRec → FRec) : (s.modRec k f).clusters = s.clusters := rfl

@[simp] theorem modRec_ops (s : State) (k : Nat) (f : FRec → FRec) : (s.modRec k f).ops = s.ops := rfl

@[simp] theorem modRec_engine (s : State) (k : Nat) (f : FRec → FRec) : (s.modRec k f).engine = s.engine := rfl

@[simp] theorem modRec_parts (s : State) (k : Nat) (f : FRec → FRec) : (s.modRec k f).parts = s.parts := rfl

@[simp] theorem modRec_mgmt (s : State) (k : Nat) (f : FRec → FRec) : (s.modRec k f).mgmt = s.mgmt := rfl

/-! endStepWait -/

@[simp] theorem endStepWait_clock (s : State) (k : Nat) : (s.endStepWait k).clock = s.clock := rfl

@[simp] theorem endStepWait_mem (s : State) (k : Nat) : (s.endStepWait k).mem = s.mem := rfl

@[simp] theorem endStepWait_rows (s : State) (k : Nat) : (s.endStepWait k).rows = s.rows := rfl

@[simp] theorem endStepWait_slices (s : State) (k : Nat) : (s.endStepWait k).slices = s.slices := rfl

@[simp] theorem endStepWait_clusters (s : State) (k : Nat) : (s.endStepWait k).clusters = s.clusters := rfl

@[simp] theorem endStepWait_ops (s : State) (k : Nat) : (s.endStepWait k).ops = s.ops := rfl

@[simp] theorem endStepWait_cave (s : State) (k : Nat) : (s.endStepWait k).cave = s.cave := rfl

@[simp] theorem endStepWait_engine (s : State) (k : Nat) : (s.endStepWait k).engine = s.engine := rfl

@[simp] theorem endStepWait_parts (s : State) (k : Nat) : (s.endStepWait k).parts = s.parts := rfl

@[simp] theorem endStepWait_mgmt (s : State) (k : Nat) : (s.endStepWait k).mgmt = s.mgmt := rfl

/-! Reading back. -/

/-- The row numbered `r` after a change of row `q` that keeps the number. -/
theorem row?_modRow (s : State) (q r : Nat) (f : Row → Row) (h : ∀ x, (f x).id = x.id) :
    (s.modRow q f).row? r = (s.row? r).map fun x => if x.id = q then f x else x := by
  simp only [row?, modRow, List.find?_map, Function.comp_def]
  have e : (fun x : Row => (if x.id = q then f x else x).id == r) = fun x : Row => x.id == r := by
    funext x; split <;> simp [h]
  rw [e]

/-- A row found has the number asked for. -/
theorem row?_id {s : State} {r : Nat} {x : Row} (h : s.row? r = some x) : x.id = r := by
  simpa using List.find?_some h

/-- The changed row. -/
theorem row?_modRow_self {s : State} {r : Nat} {x : Row} {f : Row → Row} (h : s.row? r = some x) (hf : ∀ x, (f x).id = x.id) :
    (s.modRow r f).row? r = some (f x) := by
  rw [row?_modRow s r r f hf, h]
  simp [row?_id h]

/-- Another row is as it was. -/
theorem row?_modRow_ne {s : State} {q r : Nat} {f : Row → Row} (hf : ∀ x, (f x).id = x.id) (h : q ≠ r) :
    (s.modRow q f).row? r = s.row? r := by
  rw [row?_modRow s q r f hf]
  cases e : s.row? r with
  | none => rfl
  | some x => simp [row?_id e, Ne.symm h]

/-- The handler of slot `h` after a change of handler `q` that keeps the number. -/
theorem hnd?_modHnd (s : State) (q h : Nat) (f : HThread → HThread) (hf : ∀ x, (f x).slot = x.slot) :
    (s.modHnd q f).hnd? h = (s.hnd? h).map fun x => if x.slot = q then f x else x := by
  simp only [hnd?, modHnd, List.find?_map, Function.comp_def]
  have e : (fun x : HThread => (if x.slot = q then f x else x).slot == h) = fun x : HThread => x.slot == h := by
    funext x; split <;> simp [hf]
  rw [e]

/-- A handler found has the number asked for. -/
theorem hnd?_slot {s : State} {h : Nat} {x : HThread} (e : s.hnd? h = some x) : x.slot = h := by
  simpa using List.find?_some e

/-- The thread record after a change of it. -/
theorem thread?_modThread_self {s : State} {t : Tid} {th : Thread} {f : Thread → Thread} (h : s.thread? t = some th) :
    (s.modThread t f).thread? t = some (f th) := by
  cases t with
  | ctl r =>
    obtain ⟨x, hx, rfl⟩ := Option.map_eq_some_iff.1 h
    simp only [modThread, thread?]
    rw [row?_modRow_self (f := fun q => { q with th := f q.th }) hx (fun _ => rfl)]
    rfl
  | hnd k =>
    obtain ⟨x, hx, rfl⟩ := Option.map_eq_some_iff.1 h
    simp only [modThread, thread?]
    rw [hnd?_modHnd s k k (fun q => { q with th := f q.th }) (fun _ => rfl), hx]
    simp [hnd?_slot hx]
  | vp r e => simp [thread?] at h

/-- A change of one thread's record leaves every other thread's. -/
theorem thread?_modThread_ne {s : State} {t u : Tid} {f : Thread → Thread} (h : t ≠ u) :
    (s.modThread t f).thread? u = s.thread? u := by
  cases t with
  | ctl r =>
    cases u with
    | ctl q =>
      have n : r ≠ q := fun e => h (by rw [e])
      simp only [modThread, thread?]
      rw [row?_modRow_ne (f := fun q => { q with th := f q.th }) (fun _ => rfl) n]
    | hnd k => rfl
    | vp q e => rfl
  | hnd k =>
    cases u with
    | ctl q => rfl
    | hnd j =>
      have n : j ≠ k := fun e => h (by rw [e])
      simp only [modThread, thread?]
      rw [hnd?_modHnd s k j (fun q => { q with th := f q.th }) (fun _ => rfl)]
      cases e : s.hnd? j with
      | none => rfl
      | some x => simp [hnd?_slot e, n]
    | vp q e => rfl
  | vp r e => rfl

@[simp] theorem popIssue_row? (s : State) (r : Nat) : s.popIssue.row? r = s.row? r := rfl
@[simp] theorem popIssue_hnd? (s : State) (h : Nat) : s.popIssue.hnd? h = s.hnd? h := rfl
@[simp] theorem popIssue_thread? (s : State) (t : Tid) : s.popIssue.thread? t = s.thread? t := by cases t <;> rfl
@[simp] theorem popIssue_slice (s : State) (r : Row) : s.popIssue.slice r = s.slice r := rfl
@[simp] theorem popIssue_steppingOf (s : State) (t : Tid) : s.popIssue.steppingOf t = s.steppingOf t := by cases t <;> rfl
@[simp] theorem popIssue_blocksRun (s : State) (t : Tid) : s.popIssue.blocksRun t = s.blocksRun t := by cases t <;> rfl
@[simp] theorem popIssue_vownBad (s : State) (t : Tid) : s.popIssue.vownBad t = s.vownBad t := by cases t <;> rfl
@[simp] theorem popIssue_blocksLive (s : State) (t : Tid) : s.popIssue.blocksLive t = s.blocksLive t := by cases t <;> rfl
@[simp] theorem popIssue_mustWait (s : State) (t : Tid) (b v : Bool) : s.popIssue.mustWait t b v = s.mustWait t b v := by
  simp [mustWait]

end Sys2Proof.Machine.State

namespace Sys2Proof.Machine

/-- x0 reads 0 (R57). -/
@[simp] theorem Thread.getX_zero (th : Thread) : th.getX 0 = 0 := rfl

/-- A register reads the value written to it, x0 apart (R57). -/
theorem Thread.getX_setX (th : Thread) (d n : Reg) (v : Word) :
    (th.setX d v).getX n = if n = 0 then 0 else if n = d then v else th.getX n := by
  by_cases n0 : n = 0
  · simp [getX, n0]
  · by_cases d0 : d = 0
    · simp only [setX, if_pos d0, getX, if_neg n0]
      split
      · exact absurd (‹n = d›.trans d0) n0
      · rfl
    · simp only [setX, if_neg d0, getX, if_neg n0]
      split
      · subst ‹n = d›; simp
      · rw [show (th.x.set d v)[n] = th.x[n] from by
          rw [Fin.getElem_fin, Fin.getElem_fin, Vector.getElem_set_ne]
          exact fun e => ‹¬n = d› (Fin.ext e.symm)]

/-- Writing a register leaves the rest of the record. -/
@[simp] theorem Thread.setX_pc (th : Thread) (d : Reg) (v : Word) : (th.setX d v).pc = th.pc := by
  unfold Thread.setX; split <;> rfl
@[simp] theorem Thread.setX_wait (th : Thread) (d : Reg) (v : Word) : (th.setX d v).wait = th.wait := by
  unfold Thread.setX; split <;> rfl
@[simp] theorem Thread.setX_frozen (th : Thread) (d : Reg) (v : Word) : (th.setX d v).frozen = th.frozen := by
  unfold Thread.setX; split <;> rfl
@[simp] theorem Thread.setX_gwct (th : Thread) (d : Reg) (v : Word) : (th.setX d v).gwct = th.gwct := by
  unfold Thread.setX; split <;> rfl

/-! Vectors. -/

/-- A vector with each entry changed is the library's. -/
@[simp] theorem mapVec_eq {α β : Type} {n : Nat} (f : α → β) (v : Vector α n) : mapVec f v = v.map f := by
  apply Vector.ext
  intro i h
  simp [mapVec]

/-- An entry of a vector given by its entries. -/
@[simp] theorem genVec_getElem {α : Type} {n : Nat} (f : Fin n → α) (i : Nat) (h : i < n) : (genVec n f)[i] = f ⟨i, h⟩ := by
  simp [genVec]

end Sys2Proof.Machine
end

