-- ==== Sys2Proof/Laws/Control.lean ====
section
/-! SUPPORT. What running one word of a control stream comes to, said once: a word that is held, and a word that runs. -/

set_option Elab.async false

namespace Sys2Proof.Machine

/-- A word that runs: its body, then its conclusion. -/
theorem ctl_next {s : State} {ahead vec : Bool} {t : Tid} {th : Thread} (h : s.Issues ahead vec t th)
    (body : Tid → Thread → State → CRes) :
    ctl ahead vec body s = .next (s.popIssue.conclude t (body t th s.popIssue)) := by
  unfold ctl
  rw [h.actor]
  simp only [h.thread, State.popIssue_mustWait, h.free, State.popIssue_vownBad, h.own]
  rfl

/-- A word that must wait stays where it is. -/
theorem ctl_waits {s : State} {ahead vec : Bool} {t : Tid} {th : Thread} (ha : s.ctlActor = some t) (ht : s.thread? t = some th)
    (hw : s.mustWait t ahead vec = true) (body : Tid → Thread → State → CRes) : ctl ahead vec body s = .next s.popIssue := by
  unfold ctl
  rw [ha]
  simp only [ht, State.popIssue_mustWait, hw, if_true]

/-- A row's thread issues. -/
theorem State.RowIssues.issues {s : State} {ahead vec : Bool} {r : Row} (h : s.RowIssues ahead vec r) :
    s.Issues ahead vec (.ctl r.id) r.th :=
  ⟨h.actor, by simp [State.thread?, h.row], h.free, h.own⟩

/-- A handler issues. -/
theorem State.HandlerIssues.issues {s : State} {h : HThread} (hi : s.HandlerIssues h) (ahead vec : Bool) :
    s.Issues ahead vec (.hnd h.slot) h.th :=
  ⟨hi.actor, by simp [State.thread?, hi.handler], by simp [State.mustWait, State.blocksRun, State.blocksLive], by simp [State.vownBad]⟩

/-- A word for a row's thread that runs. -/
theorem ctlRow_next {s : State} {ahead vec : Bool} {r : Row} (h : s.RowIssues ahead vec r)
    (body : Row → Thread → State → CRes) :
    ctlRow ahead vec body s = .next (s.popIssue.conclude (.ctl r.id) (body r r.th s.popIssue)) := by
  unfold ctlRow
  rw [ctl_next h.issues]
  simp [h.row]

/-- A word that either stream may hold, in the control stream. -/
theorem ctlOrVp_next {s : State} {ahead vec : Bool} {t : Tid} {th : Thread} (h : s.Issues ahead vec t th)
    (body : Tid → Thread → State → CRes) (vp : Row → Nat → Bundle → BMem → State → CRes) :
    ctlOrVp ahead vec body vp s = .next (s.popIssue.conclude t (body t th s.popIssue)) := by
  have e : ctlOrVp ahead vec body vp s = ctl ahead vec body s := by
    unfold ctlOrVp
    split
    · rename_i q n l e
      have := h.actor
      simp [State.ctlActor, e] at this
    · rfl
  rw [e, ctl_next h]

/-- A thread-block word for the one member due. -/
theorem vpWord_next {s : State} {r : Row} {n : Nat} {b : Bundle} {m : BMem} (h : s.VpIssues r n b m)
    (body : Row → Nat → Bundle → BMem → State → CRes) {u : State} (hb : body r m.e b m s.popIssue = .done u) :
    vpWord body r.id n s = .next (u.finish (.vp r.id m.e)) := by
  unfold vpWord
  simp only [h.row, h.bundle, h.due, List.foldl_cons, List.foldl_nil, State.popIssue_row?, hb]

/-- The head of the issue list, as the words test it. -/
theorem State.VpIssues.cons {s : State} {r : Row} {n : Nat} {b : Bundle} {m : BMem} (h : s.VpIssues r n b m) :
    ∃ l, s.clock.issue = .bundle r.id n :: l := by
  have := h.actor
  cases e : s.clock.issue with
  | nil => simp [e] at this
  | cons a l => simp [e] at this; exact ⟨l, by rw [this]⟩

/-- The head of the issue list, as the words test it. -/
theorem State.LanesIssue.cons {s : State} {r : Row} {k : LaneRun} (h : s.LanesIssue r k) :
    ∃ l, s.clock.issue = .lanes r.id :: l := by
  have := h.actor
  cases e : s.clock.issue with
  | nil => simp [e] at this
  | cons a l => simp [e] at this; exact ⟨l, by rw [this]⟩

/-- What the words of lane groups answer where no fault and no wait arises: the oldest block of the row. -/
theorem laneLock_next {s : State} {r : Row} {k : LaneRun} (hr : s.row? r.id = some r) (hk : r.blocks.head? = some k) (hv : r.vvalid = true) {op : LOp}
    {v : LV} {lanes : List Nat} (ho : op.checked (s.cluster r.cluster).xorOk (s.lockLV r k) = .ok (v, lanes)) :
    laneLock op r.id s = .next (((s.putLV { v with sl := { v.sl with vestart := 0 } }).logParity r.part r.cluster lanes).advanceRun r.id
      { k with sends := v.sends, rcvd := v.rcvd }) := by
  unfold laneLock
  rw [hr]
  cases e : r.blocks with
  | nil => simp [e] at hk
  | cons a l =>
    simp only [e, List.head?_cons, Option.some.injEq] at hk
    subst hk
    simp [e, hv, ho, State.putRun]

/-- The steps of a word, with no step of a record under way: the thread goes to the address. -/
theorem State.goTo_plain {s : State} {t : Tid} {th : Thread} (pc : Word) (ht : s.thread? t = some th) (hs : s.steppingOf t = none) :
    s.goTo t pc = s.modThread t fun q => { q with pc := pcExt pc } := by
  unfold State.goTo
  rw [ht]
  simp only
  cases t with
  | ctl r =>
    simp only [State.stepEnd, State.modThread]
    obtain ⟨x, hx, rfl⟩ := Option.map_eq_some_iff.1 ht
    rw [State.row?_modRow_self (f := fun q => { q with th := { q.th with pc := pcExt pc } }) hx (fun _ => rfl)]
    simp only [State.steppingOf, hx, Option.bind_some] at hs
    simp [hs]
  | hnd h =>
    simp only [State.stepEnd, State.modThread]
    obtain ⟨x, hx, rfl⟩ := Option.map_eq_some_iff.1 ht
    rw [State.hnd?_modHnd s h h (fun q => { q with th := { q.th with pc := pcExt pc } }) (fun _ => rfl), hx]
    simp only [State.steppingOf, hx, Option.bind_some] at hs
    simp [State.hnd?_slot hx, hs]
  | vp r e => rfl

/-- With no step under way a finished word leaves its thread at PC + 4. -/
theorem State.finish_plain {s : State} {t : Tid} {th : Thread} (ht : s.thread? t = some th) (hs : s.steppingOf t = none) :
    s.finish t = s.modThread t fun q => { q with pc := pcExt (th.pc + 4) } := by
  cases t with
  | vp r e => simp [State.thread?] at ht
  | ctl r => simp only [State.finish, ht]; exact State.goTo_plain _ ht hs
  | hnd h => simp only [State.finish, ht]; exact State.goTo_plain _ ht hs

/-- An update of one thread's record changes nothing else. -/
theorem State.onlyThread_modThread {s : State} {t : Tid} {th : Thread} (f : Thread → Thread) (ht : s.thread? t = some th) :
    s.OnlyThread (s.popIssue.modThread t f) t := by
  refine ⟨by simp, by simp, by simp, by simp, by simp, by simp, by simp, by simp, ?_, ?_, ?_, ?_⟩
  · simp [State.popIssue]
  · intro q hq
    rw [State.thread?_modThread_ne (Ne.symm hq)]; simp
  · intro q x hx
    cases t with
    | ctl r =>
      by_cases e : q = r
      · subst e
        refine ⟨f x.th, ?_⟩
        have := State.row?_modRow_self (s := s.popIssue) (f := fun q => { q with th := f q.th }) (x := x) hx (fun _ => rfl)
        exact this
      · refine ⟨x.th, ?_⟩
        have := State.row?_modRow_ne (s := s.popIssue) (f := fun q => { q with th := f q.th }) (fun _ => rfl) (Ne.symm e)
        exact this.trans hx
    | hnd h => exact ⟨x.th, hx⟩
    | vp r e => exact ⟨x.th, hx⟩
  · intro q x hx
    cases t with
    | hnd r =>
      by_cases e : q = r
      · subst e
        refine ⟨f x.th, ?_⟩
        have := State.hnd?_modHnd s.popIssue q q (fun k => { k with th := f k.th }) (fun _ => rfl)
        simp only [State.modThread]
        rw [this]
        simp [hx, State.hnd?_slot hx]
      · refine ⟨x.th, ?_⟩
        have := State.hnd?_modHnd s.popIssue r q (fun k => { k with th := f k.th }) (fun _ => rfl)
        simp only [State.modThread]
        rw [this]
        have k := State.hnd?_slot hx
        subst k
        simp [hx, e]
    | ctl h => exact ⟨x.th, hx⟩
    | vp r e => exact ⟨x.th, hx⟩

/-- Two updates of one thread's record are one. -/
theorem State.modThread_modThread (s : State) (t : Tid) (f g : Thread → Thread) :
    (s.modThread t f).modThread t g = s.modThread t (g ∘ f) := by
  cases t with
  | ctl r =>
    simp only [State.modThread, State.modRow, List.map_map]
    congr 1; apply List.map_congr_left; intro x _; simp only [Function.comp]; split <;> simp_all
  | hnd r =>
    simp only [State.modThread, State.modHnd, List.map_map]
    congr 1; apply List.map_congr_left; intro x _; simp only [Function.comp]; split <;> simp_all
  | vp r e => rfl

/-- An update of a thread's record leaves a step of its frozen record under way or not. -/
theorem State.steppingOf_modThread (s : State) (t : Tid) (f : Thread → Thread) :
    (s.modThread t f).steppingOf t = s.steppingOf t := by
  cases t with
  | ctl r =>
    simp only [State.modThread, State.steppingOf]
    rw [State.row?_modRow s r r (fun q => { q with th := f q.th }) (fun _ => rfl)]
    cases e : s.row? r <;> simp
    split <;> rfl
  | hnd r =>
    simp only [State.modThread, State.steppingOf]
    rw [State.hnd?_modHnd s r r (fun q => { q with th := f q.th }) (fun _ => rfl)]
    cases e : s.hnd? r <;> simp
    split <;> rfl
  | vp r e => rfl

/-- A finished word of a control or handler thread sends it to PC + 4. -/
theorem State.finish_eq_goTo {s : State} {t : Tid} {th : Thread} (ht : s.thread? t = some th) : s.finish t = s.goTo t (th.pc + 4) := by
  cases t with
  | vp r e => simp [State.thread?] at ht
  | ctl r => simp only [State.finish, ht]
  | hnd r => simp only [State.finish, ht]

/-- A row's step under way is its `stepping`. -/
theorem State.steppingOf_row {s : State} {r : Row} (h : s.row? r.id = some r) : s.steppingOf (.ctl r.id) = r.stepping := by
  simp [State.steppingOf, h]

/-- Waiting leaves a step under way or not. -/
theorem State.steppingOf_setWait (s : State) (t : Tid) (w : Option Wait) (hne : ∀ r e, t ≠ .vp r e) :
    (s.setWait t w).steppingOf t = s.steppingOf t := by
  cases t with
  | vp r e => exact absurd rfl (hne r e)
  | ctl r => exact State.steppingOf_modThread s (.ctl r) (fun th => { th with wait := w })
  | hnd r => exact State.steppingOf_modThread s (.hnd r) (fun th => { th with wait := w })

/-- A word that waits, with no step under way, leaves the state its body made. -/
theorem State.conclude_stall {s u : State} {t : Tid} (hs : u.steppingOf t = none) : s.conclude t (.stall u) = u := by
  unfold State.conclude; dsimp only; rw [hs]

/-- A word whose body faults, with no vector-fetched block under way: the fault is taken. -/
theorem ctl_fault {s u : State} {ahead vec : Bool} {t : Tid} {th : Thread} (h : s.Issues ahead vec t th) (hbl : s.blocksLive t = false)
    {body : Tid → Thread → State → CRes} {fi : FInfo} (hb : body t th s.popIssue = .fault u fi) :
    ctl ahead vec body s = .next (u.raise t fi) := by
  rw [ctl_next h, hb]
  show Host.Outcome.next (if s.popIssue.blocksLive t then _ else _) = _
  rw [State.popIssue_blocksLive, hbl]; rfl

/-- A row's word whose body is done: the thread goes on. -/
theorem ctlRow_done {s u : State} {ahead vec : Bool} {r : Row} (h : s.RowIssues ahead vec r) {body : Row → Thread → State → CRes}
    (hb : body r r.th s.popIssue = .done u) : ctlRow ahead vec body s = .next (u.finish (.ctl r.id)) := by
  rw [ctlRow_next h, hb]; rfl

/-- A row's word whose body waits, with no step under way. -/
theorem ctlRow_stall {s u : State} {ahead vec : Bool} {r : Row} (h : s.RowIssues ahead vec r) {body : Row → Thread → State → CRes}
    (hs : u.steppingOf (.ctl r.id) = none) (hb : body r r.th s.popIssue = .stall u) : ctlRow ahead vec body s = .next u := by
  rw [ctlRow_next h, hb, State.conclude_stall hs]

/-- A row's word whose body faults, with no vector-fetched block under way. -/
theorem ctlRow_fault {s u : State} {ahead vec : Bool} {r : Row} (h : s.RowIssues ahead vec r) (hbl : s.blocksLive (.ctl r.id) = false)
    {body : Row → Thread → State → CRes} {fi : FInfo} (hb : body r r.th s.popIssue = .fault u fi) :
    ctlRow ahead vec body s = .next (u.raise (.ctl r.id) fi) := by
  rw [ctlRow_next h, hb]
  show Host.Outcome.next (if s.popIssue.blocksLive _ then _ else _) = _
  rw [State.popIssue_blocksLive, hbl]; rfl

/-- A word that may not run ahead of blocks issues where none before it can fault. -/
theorem State.blocksLive_of_free {s : State} {t : Tid} {vec : Bool} (h : s.mustWait t false vec = false) : s.blocksLive t = false := by
  simp only [State.mustWait, Bool.not_false, Bool.true_and, Bool.or_eq_false_iff] at h
  exact h.2.1

/-- A word on vector state issues with no block under way. -/
theorem State.blocksRun_of_free {s : State} {t : Tid} (h : s.mustWait t false true = false) : s.blocksRun t = false := by
  simp only [State.mustWait, Bool.not_false, Bool.true_and, Bool.or_eq_false_iff] at h
  exact h.2.2

end Sys2Proof.Machine
end

