-- ==== Sys2Proof/Laws/Dispatch.lean ====
section
/-! SUPPORT. Which meaning each instruction has: one equation an arm of the dispatch. -/

set_option Elab.async false

namespace Sys2Proof.Machine

theorem exec_add (d : Reg) (a : Reg) (b : Reg) (s : State) : exec (.add d a b) s = execAdd d a b s := rfl
theorem exec_sub (d : Reg) (a : Reg) (b : Reg) (s : State) : exec (.sub d a b) s = execSub d a b s := rfl
theorem exec_and (d : Reg) (a : Reg) (b : Reg) (s : State) : exec (.and d a b) s = execAnd d a b s := rfl
theorem exec_or (d : Reg) (a : Reg) (b : Reg) (s : State) : exec (.or d a b) s = execOr d a b s := rfl
theorem exec_xor (d : Reg) (a : Reg) (b : Reg) (s : State) : exec (.xor d a b) s = execXor d a b s := rfl
theorem exec_sll (d : Reg) (a : Reg) (b : Reg) (s : State) : exec (.sll d a b) s = execSll d a b s := rfl
theorem exec_srl (d : Reg) (a : Reg) (b : Reg) (s : State) : exec (.srl d a b) s = execSrl d a b s := rfl
theorem exec_sra (d : Reg) (a : Reg) (b : Reg) (s : State) : exec (.sra d a b) s = execSra d a b s := rfl
theorem exec_mul (d : Reg) (a : Reg) (b : Reg) (s : State) : exec (.mul d a b) s = execMul d a b s := rfl
theorem exec_mulhS (d : Reg) (a : Reg) (b : Reg) (s : State) : exec (.mulhS d a b) s = execMulhS d a b s := rfl
theorem exec_mulhN (d : Reg) (a : Reg) (b : Reg) (s : State) : exec (.mulhN d a b) s = execMulhN d a b s := rfl
theorem exec_divS (d : Reg) (a : Reg) (b : Reg) (s : State) : exec (.divS d a b) s = execDivS d a b s := rfl
theorem exec_divN (d : Reg) (a : Reg) (b : Reg) (s : State) : exec (.divN d a b) s = execDivN d a b s := rfl
theorem exec_remS (d : Reg) (a : Reg) (b : Reg) (s : State) : exec (.remS d a b) s = execRemS d a b s := rfl
theorem exec_remN (d : Reg) (a : Reg) (b : Reg) (s : State) : exec (.remN d a b) s = execRemN d a b s := rfl
theorem exec_sltS (d : Reg) (a : Reg) (b : Reg) (s : State) : exec (.sltS d a b) s = execSltS d a b s := rfl
theorem exec_sltN (d : Reg) (a : Reg) (b : Reg) (s : State) : exec (.sltN d a b) s = execSltN d a b s := rfl
theorem exec_minS (d : Reg) (a : Reg) (b : Reg) (s : State) : exec (.minS d a b) s = execMinS d a b s := rfl
theorem exec_minN (d : Reg) (a : Reg) (b : Reg) (s : State) : exec (.minN d a b) s = execMinN d a b s := rfl
theorem exec_maxS (d : Reg) (a : Reg) (b : Reg) (s : State) : exec (.maxS d a b) s = execMaxS d a b s := rfl
theorem exec_maxN (d : Reg) (a : Reg) (b : Reg) (s : State) : exec (.maxN d a b) s = execMaxN d a b s := rfl
theorem exec_clz (d : Reg) (a : Reg) (s : State) : exec (.clz d a) s = execClz d a s := rfl
theorem exec_ctz (d : Reg) (a : Reg) (s : State) : exec (.ctz d a) s = execCtz d a s := rfl
theorem exec_pop (d : Reg) (a : Reg) (s : State) : exec (.pop d a) s = execPop d a s := rfl
theorem exec_bswap (d : Reg) (a : Reg) (s : State) : exec (.bswap d a) s = execBswap d a s := rfl
theorem exec_addi (d : Reg) (a : Reg) (imm : BitVec 16) (s : State) : exec (.addi d a imm) s = execAddi d a imm s := rfl
theorem exec_andi (d : Reg) (a : Reg) (imm : BitVec 16) (s : State) : exec (.andi d a imm) s = execAndi d a imm s := rfl
theorem exec_ori (d : Reg) (a : Reg) (imm : BitVec 16) (s : State) : exec (.ori d a imm) s = execOri d a imm s := rfl
theorem exec_xori (d : Reg) (a : Reg) (imm : BitVec 16) (s : State) : exec (.xori d a imm) s = execXori d a imm s := rfl
theorem exec_sltiS (d : Reg) (a : Reg) (imm : BitVec 16) (s : State) : exec (.sltiS d a imm) s = execSltiS d a imm s := rfl
theorem exec_slli (d : Reg) (a : Reg) (n : BitVec 6) (s : State) : exec (.slli d a n) s = execSlli d a n s := rfl
theorem exec_srli (d : Reg) (a : Reg) (n : BitVec 6) (s : State) : exec (.srli d a n) s = execSrli d a n s := rfl
theorem exec_srai (d : Reg) (a : Reg) (n : BitVec 6) (s : State) : exec (.srai d a n) s = execSrai d a n s := rfl
theorem exec_lui (d : Reg) (disp : BitVec 21) (s : State) : exec (.lui d disp) s = execLui d disp s := rfl
theorem exec_addpc (d : Reg) (disp : BitVec 21) (s : State) : exec (.addpc d disp) s = execAddpc d disp s := rfl
theorem exec_beq (a : Reg) (b : Reg) (disp : BitVec 13) (s : State) : exec (.beq a b disp) s = execBeq a b disp s := rfl
theorem exec_bne (a : Reg) (b : Reg) (disp : BitVec 13) (s : State) : exec (.bne a b disp) s = execBne a b disp s := rfl
theorem exec_bltS (a : Reg) (b : Reg) (disp : BitVec 13) (s : State) : exec (.bltS a b disp) s = execBltS a b disp s := rfl
theorem exec_bgeS (a : Reg) (b : Reg) (disp : BitVec 13) (s : State) : exec (.bgeS a b disp) s = execBgeS a b disp s := rfl
theorem exec_bltN (a : Reg) (b : Reg) (disp : BitVec 13) (s : State) : exec (.bltN a b disp) s = execBltN a b disp s := rfl
theorem exec_bgeN (a : Reg) (b : Reg) (disp : BitVec 13) (s : State) : exec (.bgeN a b disp) s = execBgeN a b disp s := rfl
theorem exec_jal (d : Reg) (disp : BitVec 21) (s : State) : exec (.jal d disp) s = execJal d disp s := rfl
theorem exec_jalr (d : Reg) (a : Reg) (imm : BitVec 16) (s : State) : exec (.jalr d a imm) s = execJalr d a imm s := rfl
theorem exec_csrr (d : Reg) (csr : BitVec 14) (s : State) : exec (.csrr d csr) s = execCsrr d csr s := rfl
theorem exec_csrw (csr : BitVec 14) (a : Reg) (s : State) : exec (.csrw csr a) s = execCsrw csr a s := rfl
theorem exec_csrs (csr : BitVec 14) (a : Reg) (s : State) : exec (.csrs csr a) s = execCsrs csr a s := rfl
theorem exec_csrc (csr : BitVec 14) (a : Reg) (s : State) : exec (.csrc csr a) s = execCsrc csr a s := rfl
theorem exec_ldBs (d : Reg) (a : Reg) (disp : BitVec 13) (s : State) : exec (.ldBs d a disp) s = execLdBs d a disp s := rfl
theorem exec_ldBn (d : Reg) (a : Reg) (disp : BitVec 13) (s : State) : exec (.ldBn d a disp) s = execLdBn d a disp s := rfl
theorem exec_ldHs (d : Reg) (a : Reg) (disp : BitVec 13) (s : State) : exec (.ldHs d a disp) s = execLdHs d a disp s := rfl
theorem exec_ldHn (d : Reg) (a : Reg) (disp : BitVec 13) (s : State) : exec (.ldHn d a disp) s = execLdHn d a disp s := rfl
theorem exec_ldWs (d : Reg) (a : Reg) (disp : BitVec 13) (s : State) : exec (.ldWs d a disp) s = execLdWs d a disp s := rfl
theorem exec_ldWn (d : Reg) (a : Reg) (disp : BitVec 13) (s : State) : exec (.ldWn d a disp) s = execLdWn d a disp s := rfl
theorem exec_ldD (d : Reg) (a : Reg) (disp : BitVec 13) (s : State) : exec (.ldD d a disp) s = execLdD d a disp s := rfl
theorem exec_stB (d : Reg) (a : Reg) (disp : BitVec 13) (s : State) : exec (.stB d a disp) s = execStB d a disp s := rfl
theorem exec_stH (d : Reg) (a : Reg) (disp : BitVec 13) (s : State) : exec (.stH d a disp) s = execStH d a disp s := rfl
theorem exec_stW (d : Reg) (a : Reg) (disp : BitVec 13) (s : State) : exec (.stW d a disp) s = execStW d a disp s := rfl
theorem exec_stD (d : Reg) (a : Reg) (disp : BitVec 13) (s : State) : exec (.stD d a disp) s = execStD d a disp s := rfl
theorem exec_amoAdd (d : Reg) (a : Reg) (b : Reg) (sc : Scope) (od : Order) (word : Bool) (s : State) : exec (.amoAdd d a b sc od word) s = execAmoAdd d a b sc od word s := rfl
theorem exec_amoAnd (d : Reg) (a : Reg) (b : Reg) (sc : Scope) (od : Order) (word : Bool) (s : State) : exec (.amoAnd d a b sc od word) s = execAmoAnd d a b sc od word s := rfl
theorem exec_amoOr (d : Reg) (a : Reg) (b : Reg) (sc : Scope) (od : Order) (word : Bool) (s : State) : exec (.amoOr d a b sc od word) s = execAmoOr d a b sc od word s := rfl
theorem exec_amoXor (d : Reg) (a : Reg) (b : Reg) (sc : Scope) (od : Order) (word : Bool) (s : State) : exec (.amoXor d a b sc od word) s = execAmoXor d a b sc od word s := rfl
theorem exec_amoMinS (d : Reg) (a : Reg) (b : Reg) (sc : Scope) (od : Order) (word : Bool) (s : State) : exec (.amoMinS d a b sc od word) s = execAmoMinS d a b sc od word s := rfl
theorem exec_amoMinN (d : Reg) (a : Reg) (b : Reg) (sc : Scope) (od : Order) (word : Bool) (s : State) : exec (.amoMinN d a b sc od word) s = execAmoMinN d a b sc od word s := rfl
theorem exec_amoMaxS (d : Reg) (a : Reg) (b : Reg) (sc : Scope) (od : Order) (word : Bool) (s : State) : exec (.amoMaxS d a b sc od word) s = execAmoMaxS d a b sc od word s := rfl
theorem exec_amoMaxN (d : Reg) (a : Reg) (b : Reg) (sc : Scope) (od : Order) (word : Bool) (s : State) : exec (.amoMaxN d a b sc od word) s = execAmoMaxN d a b sc od word s := rfl
theorem exec_amoSwap (d : Reg) (a : Reg) (b : Reg) (sc : Scope) (od : Order) (word : Bool) (s : State) : exec (.amoSwap d a b sc od word) s = execAmoSwap d a b sc od word s := rfl
theorem exec_amoCas (d : Reg) (a : Reg) (b : Reg) (sc : Scope) (od : Order) (word : Bool) (s : State) : exec (.amoCas d a b sc od word) s = execAmoCas d a b sc od word s := rfl
theorem exec_amoFadd (d : Reg) (a : Reg) (b : Reg) (sc : Scope) (od : Order) (s : State) : exec (.amoFadd d a b sc od) s = execAmoFadd d a b sc od s := rfl
theorem exec_fenceAcq (sc : Scope) (s : State) : exec (.fenceAcq sc) s = execFenceAcq sc s := rfl
theorem exec_fenceRel (sc : Scope) (s : State) : exec (.fenceRel sc) s = execFenceRel sc s := rfl
theorem exec_fenceAr (sc : Scope) (s : State) : exec (.fenceAr sc) s = execFenceAr sc s := rfl
theorem exec_setvl (d : Reg) (a : Reg) (s : State) : exec (.setvl d a) s = execSetvl d a s := rfl
theorem exec_setvlw (d : Reg) (a : Reg) (w : Fin 4) (s : State) : exec (.setvlw d a w) s = execSetvlw d a w s := rfl
theorem exec_vcfg (d : Reg) (ew : Fin 4) (g : Fin 4) (s : State) : exec (.vcfg d ew g) s = execVcfg d ew g s := rfl
theorem exec_vtagw (d : Reg) (tag : Tag) (s : State) : exec (.vtagw d tag) s = execVtagw d tag s := rfl
theorem exec_vtagr (d : Reg) (a : Reg) (s : State) : exec (.vtagr d a) s = execVtagr d a s := rfl
theorem exec_vhwm (d : Reg) (a : Reg) (s : State) : exec (.vhwm d a) s = execVhwm d a s := rfl
theorem exec_vf (disp : BitVec 21) (s : State) : exec (.vf disp) s = execVf disp s := rfl
theorem exec_vfD (disp : BitVec 21) (s : State) : exec (.vfD disp) s = execVfD disp s := rfl
theorem exec_vjoin (d : Reg) (j : BitVec 8) (t : BitVec 8) (s : State) : exec (.vjoin d j t) s = execVjoin d j t s := rfl
theorem exec_vjoinReg (d : Reg) (j : BitVec 8) (t : Reg) (s : State) : exec (.vjoinReg d j t) s = execVjoinReg d j t s := rfl
theorem exec_waitf (flags : BitVec 12) (s : State) : exec (.waitf flags) s = execWaitf flags s := rfl
theorem exec_waitc (cls : Fin 4) (n : BitVec 8) (s : State) : exec (.waitc cls n) s = execWaitc cls n s := rfl
theorem exec_qseed (a : Reg) (s : State) : exec (.qseed a) s = execQseed a s := rfl
theorem exec_qdrain (d : Reg) (s : State) : exec (.qdrain d) s = execQdrain d s := rfl
theorem exec_sbput (n : Fin 8) (a : Reg) (s : State) : exec (.sbput n a) s = execSbput n a s := rfl
theorem exec_sbget (d : Reg) (n : Fin 8) (s : State) : exec (.sbget d n) s = execSbget d n s := rfl
theorem exec_mxon (zp : Bool) (band : Bool) (keep : Bool) (s : State) : exec (.mxon zp band keep) s = execMxon zp band keep s := rfl
theorem exec_launch (d : Reg) (a : Reg) (s : State) : exec (.launch d a) s = execLaunch d a s := rfl
theorem exec_evsig (a : Reg) (s : State) : exec (.evsig a) s = execEvsig a s := rfl
theorem exec_evwait (a : Reg) (s : State) : exec (.evwait a) s = execEvwait a s := rfl
theorem exec_vld (vd : Reg) (xb : Reg) (vx : Reg) (fmt : Fmt) (m : MaskReg) (s : State) : exec (.vld vd xb vx fmt m) s = execVld vd xb vx fmt m s := rfl
theorem exec_vlds (vd : Reg) (xb : Reg) (vx : Reg) (fmt : Fmt) (m : MaskReg) (s : State) : exec (.vlds vd xb vx fmt m) s = execVlds vd xb vx fmt m s := rfl
theorem exec_vldseg (vd : Reg) (xb : Reg) (vx : Reg) (fmt : Fmt) (m : MaskReg) (s : State) : exec (.vldseg vd xb vx fmt m) s = execVldseg vd xb vx fmt m s := rfl
theorem exec_vldx (vd : Reg) (xb : Reg) (vx : Reg) (fmt : Fmt) (m : MaskReg) (s : State) : exec (.vldx vd xb vx fmt m) s = execVldx vd xb vx fmt m s := rfl
theorem exec_vfg (vd : Reg) (xb : Reg) (vx : Reg) (fmt : Fmt) (m : MaskReg) (s : State) : exec (.vfg vd xb vx fmt m) s = execVfg vd xb vx fmt m s := rfl
theorem exec_vldt (vd : Reg) (vr : Reg) (m : MaskReg) (s : State) : exec (.vldt vd vr m) s = execVldt vd vr m s := rfl
theorem exec_vst (vd : Reg) (xb : Reg) (vx : Reg) (fmt : Fmt) (m : MaskReg) (s : State) : exec (.vst vd xb vx fmt m) s = execVst vd xb vx fmt m s := rfl
theorem exec_vsts (vd : Reg) (xb : Reg) (vx : Reg) (fmt : Fmt) (m : MaskReg) (s : State) : exec (.vsts vd xb vx fmt m) s = execVsts vd xb vx fmt m s := rfl
theorem exec_vstseg (vd : Reg) (xb : Reg) (vx : Reg) (fmt : Fmt) (m : MaskReg) (s : State) : exec (.vstseg vd xb vx fmt m) s = execVstseg vd xb vx fmt m s := rfl
theorem exec_vstx (vd : Reg) (xb : Reg) (vx : Reg) (fmt : Fmt) (m : MaskReg) (s : State) : exec (.vstx vd xb vx fmt m) s = execVstx vd xb vx fmt m s := rfl
theorem exec_vstxa (vd : Reg) (xb : Reg) (vx : Reg) (fmt : Fmt) (m : MaskReg) (s : State) : exec (.vstxa vd xb vx fmt m) s = execVstxa vd xb vx fmt m s := rfl
theorem exec_vstt (vd : Reg) (vr : Reg) (m : MaskReg) (s : State) : exec (.vstt vd vr m) s = execVstt vd vr m s := rfl
theorem exec_sbind (n : Fin 8) (a : Reg) (s : State) : exec (.sbind n a) s = execSbind n a s := rfl
theorem exec_sbindx (n : Fin 8) (a : Reg) (vi : Reg) (s : State) : exec (.sbindx n a vi) s = execSbindx n a vi s := rfl
theorem exec_sclose (n : Fin 8) (s : State) : exec (.sclose n) s = execSclose n s := rfl
theorem exec_cpy (d : Reg) (a : Reg) (s : State) : exec (.cpy d a) s = execCpy d a s := rfl
theorem exec_cpyx (d : Reg) (a : Reg) (vi : Reg) (s : State) : exec (.cpyx d a vi) s = execCpyx d a vi s := rfl
theorem exec_wmpub (n : Fin 4) (a : Reg) (s : State) : exec (.wmpub n a) s = execWmpub n a s := rfl
theorem exec_wmbind (n : Fin 4) (a : Reg) (cls : PubCls) (s : State) : exec (.wmbind n a cls) s = execWmbind n a cls s := rfl
theorem exec_pfetch (a : Reg) (lvl : PfLvl) (s : State) : exec (.pfetch a lvl) s = execPfetch a lvl s := rfl
theorem exec_cflush (a : Reg) (s : State) : exec (.cflush a) s = execCflush a s := rfl
theorem exec_rput (d : Reg) (a : Reg) (s : State) : exec (.rput d a) s = execRput d a s := rfl
theorem exec_rget (d : Reg) (a : Reg) (s : State) : exec (.rget d a) s = execRget d a s := rfl
theorem exec_ramo (d : Reg) (a : Reg) (b : Reg) (op : AmoSel) (od : Order) (s : State) : exec (.ramo d a b op od) s = execRamo d a b op od s := rfl
theorem exec_coll (d : Reg) (a : Reg) (s : State) : exec (.coll d a) s = execColl d a s := rfl
theorem exec_vadd (vd : Reg) (va : Reg) (src : Src) (m : MaskReg) (s : State) : exec (.vadd vd va src m) s = execVadd vd va src m s := rfl
theorem exec_vsub (vd : Reg) (va : Reg) (src : Src) (m : MaskReg) (s : State) : exec (.vsub vd va src m) s = execVsub vd va src m s := rfl
theorem exec_vmul (vd : Reg) (va : Reg) (src : Src) (m : MaskReg) (s : State) : exec (.vmul vd va src m) s = execVmul vd va src m s := rfl
theorem exec_vmulhS (vd : Reg) (va : Reg) (src : Src) (m : MaskReg) (s : State) : exec (.vmulhS vd va src m) s = execVmulhS vd va src m s := rfl
theorem exec_vmulhN (vd : Reg) (va : Reg) (src : Src) (m : MaskReg) (s : State) : exec (.vmulhN vd va src m) s = execVmulhN vd va src m s := rfl
theorem exec_vminS (vd : Reg) (va : Reg) (src : Src) (m : MaskReg) (s : State) : exec (.vminS vd va src m) s = execVminS vd va src m s := rfl
theorem exec_vminN (vd : Reg) (va : Reg) (src : Src) (m : MaskReg) (s : State) : exec (.vminN vd va src m) s = execVminN vd va src m s := rfl
theorem exec_vmaxS (vd : Reg) (va : Reg) (src : Src) (m : MaskReg) (s : State) : exec (.vmaxS vd va src m) s = execVmaxS vd va src m s := rfl
theorem exec_vmaxN (vd : Reg) (va : Reg) (src : Src) (m : MaskReg) (s : State) : exec (.vmaxN vd va src m) s = execVmaxN vd va src m s := rfl
theorem exec_vand (vd : Reg) (va : Reg) (src : Src) (m : MaskReg) (s : State) : exec (.vand vd va src m) s = execVand vd va src m s := rfl
theorem exec_vor (vd : Reg) (va : Reg) (src : Src) (m : MaskReg) (s : State) : exec (.vor vd va src m) s = execVor vd va src m s := rfl
theorem exec_vxor (vd : Reg) (va : Reg) (src : Src) (m : MaskReg) (s : State) : exec (.vxor vd va src m) s = execVxor vd va src m s := rfl
theorem exec_vsll (vd : Reg) (va : Reg) (src : Src) (m : MaskReg) (s : State) : exec (.vsll vd va src m) s = execVsll vd va src m s := rfl
theorem exec_vsrl (vd : Reg) (va : Reg) (src : Src) (m : MaskReg) (s : State) : exec (.vsrl vd va src m) s = execVsrl vd va src m s := rfl
theorem exec_vsra (vd : Reg) (va : Reg) (src : Src) (m : MaskReg) (s : State) : exec (.vsra vd va src m) s = execVsra vd va src m s := rfl
theorem exec_vclz (vd : Reg) (src : Src) (m : MaskReg) (s : State) : exec (.vclz vd src m) s = execVclz vd src m s := rfl
theorem exec_vpop (vd : Reg) (src : Src) (m : MaskReg) (s : State) : exec (.vpop vd src m) s = execVpop vd src m s := rfl
theorem exec_vabs (vd : Reg) (src : Src) (m : MaskReg) (s : State) : exec (.vabs vd src m) s = execVabs vd src m s := rfl
theorem exec_vneg (vd : Reg) (src : Src) (m : MaskReg) (s : State) : exec (.vneg vd src m) s = execVneg vd src m s := rfl
theorem exec_vmv (vd : Reg) (src : Src) (m : MaskReg) (s : State) : exec (.vmv vd src m) s = execVmv vd src m s := rfl
theorem exec_vsel (vd : Reg) (va : Reg) (src : Src) (m : MaskReg) (s : State) : exec (.vsel vd va src m) s = execVsel vd va src m s := rfl
theorem exec_vcmpEq (md : MaskReg) (va : Reg) (src : Src) (m : MaskReg) (s : State) : exec (.vcmpEq md va src m) s = execVcmpEq md va src m s := rfl
theorem exec_vcmpNe (md : MaskReg) (va : Reg) (src : Src) (m : MaskReg) (s : State) : exec (.vcmpNe md va src m) s = execVcmpNe md va src m s := rfl
theorem exec_vcmpLtS (md : MaskReg) (va : Reg) (src : Src) (m : MaskReg) (s : State) : exec (.vcmpLtS md va src m) s = execVcmpLtS md va src m s := rfl
theorem exec_vcmpLtN (md : MaskReg) (va : Reg) (src : Src) (m : MaskReg) (s : State) : exec (.vcmpLtN md va src m) s = execVcmpLtN md va src m s := rfl
theorem exec_vcmpLeS (md : MaskReg) (va : Reg) (src : Src) (m : MaskReg) (s : State) : exec (.vcmpLeS md va src m) s = execVcmpLeS md va src m s := rfl
theorem exec_vcmpLeN (md : MaskReg) (va : Reg) (src : Src) (m : MaskReg) (s : State) : exec (.vcmpLeN md va src m) s = execVcmpLeN md va src m s := rfl
theorem exec_vidx (vd : Reg) (m : MaskReg) (s : State) : exec (.vidx vd m) s = execVidx vd m s := rfl
theorem exec_vimm (vd : Reg) (imm : BitVec 10) (m : MaskReg) (s : State) : exec (.vimm vd imm m) s = execVimm vd imm m s := rfl
theorem exec_vwmulS (vd : Reg) (va : Reg) (src : Src) (m : MaskReg) (s : State) : exec (.vwmulS vd va src m) s = execVwmulS vd va src m s := rfl
theorem exec_vwmulN (vd : Reg) (va : Reg) (src : Src) (m : MaskReg) (s : State) : exec (.vwmulN vd va src m) s = execVwmulN vd va src m s := rfl
theorem exec_vwmacS (vd : Reg) (va : Reg) (src : Src) (m : MaskReg) (s : State) : exec (.vwmacS vd va src m) s = execVwmacS vd va src m s := rfl
theorem exec_vwmacN (vd : Reg) (va : Reg) (src : Src) (m : MaskReg) (s : State) : exec (.vwmacN vd va src m) s = execVwmacN vd va src m s := rfl
theorem exec_vwmacSn (vd : Reg) (va : Reg) (src : Src) (m : MaskReg) (s : State) : exec (.vwmacSn vd va src m) s = execVwmacSn vd va src m s := rfl
theorem exec_vnsr (vd : Reg) (va : Reg) (src : Src) (m : MaskReg) (s : State) : exec (.vnsr vd va src m) s = execVnsr vd va src m s := rfl
theorem exec_vnsra (vd : Reg) (va : Reg) (src : Src) (m : MaskReg) (s : State) : exec (.vnsra vd va src m) s = execVnsra vd va src m s := rfl
theorem exec_vsaddS (vd : Reg) (va : Reg) (src : Src) (m : MaskReg) (s : State) : exec (.vsaddS vd va src m) s = execVsaddS vd va src m s := rfl
theorem exec_vsaddN (vd : Reg) (va : Reg) (src : Src) (m : MaskReg) (s : State) : exec (.vsaddN vd va src m) s = execVsaddN vd va src m s := rfl
theorem exec_vssubS (vd : Reg) (va : Reg) (src : Src) (m : MaskReg) (s : State) : exec (.vssubS vd va src m) s = execVssubS vd va src m s := rfl
theorem exec_vssubN (vd : Reg) (va : Reg) (src : Src) (m : MaskReg) (s : State) : exec (.vssubN vd va src m) s = execVssubN vd va src m s := rfl
theorem exec_vavg (vd : Reg) (va : Reg) (src : Src) (m : MaskReg) (s : State) : exec (.vavg vd va src m) s = execVavg vd va src m s := rfl
theorem exec_vcvt (vd : Reg) (rm : Rm) (vb : Reg) (m : MaskReg) (s : State) : exec (.vcvt vd rm vb m) s = execVcvt vd rm vb m s := rfl
theorem exec_vretag (vd : Reg) (tag : Tag) (s : State) : exec (.vretag vd tag) s = execVretag vd tag s := rfl
theorem exec_vfadd (vd : Reg) (va : Reg) (src : Src) (m : MaskReg) (s : State) : exec (.vfadd vd va src m) s = execVfadd vd va src m s := rfl
theorem exec_vfsub (vd : Reg) (va : Reg) (src : Src) (m : MaskReg) (s : State) : exec (.vfsub vd va src m) s = execVfsub vd va src m s := rfl
theorem exec_vfmul (vd : Reg) (va : Reg) (src : Src) (m : MaskReg) (s : State) : exec (.vfmul vd va src m) s = execVfmul vd va src m s := rfl
theorem exec_vfma (vd : Reg) (va : Reg) (src : Src) (m : MaskReg) (s : State) : exec (.vfma vd va src m) s = execVfma vd va src m s := rfl
theorem exec_vfms (vd : Reg) (va : Reg) (src : Src) (m : MaskReg) (s : State) : exec (.vfms vd va src m) s = execVfms vd va src m s := rfl
theorem exec_vfnma (vd : Reg) (va : Reg) (src : Src) (m : MaskReg) (s : State) : exec (.vfnma vd va src m) s = execVfnma vd va src m s := rfl
theorem exec_vfmin (vd : Reg) (va : Reg) (src : Src) (m : MaskReg) (s : State) : exec (.vfmin vd va src m) s = execVfmin vd va src m s := rfl
theorem exec_vfmax (vd : Reg) (va : Reg) (src : Src) (m : MaskReg) (s : State) : exec (.vfmax vd va src m) s = execVfmax vd va src m s := rfl
theorem exec_vfdiv (vd : Reg) (va : Reg) (src : Src) (m : MaskReg) (s : State) : exec (.vfdiv vd va src m) s = execVfdiv vd va src m s := rfl
theorem exec_vfsqrt (vd : Reg) (rm : Rm) (vb : Reg) (m : MaskReg) (s : State) : exec (.vfsqrt vd rm vb m) s = execVfsqrt vd rm vb m s := rfl
theorem exec_vfrcp (vd : Reg) (rm : Rm) (vb : Reg) (m : MaskReg) (s : State) : exec (.vfrcp vd rm vb m) s = execVfrcp vd rm vb m s := rfl
theorem exec_vfrsq (vd : Reg) (rm : Rm) (vb : Reg) (m : MaskReg) (s : State) : exec (.vfrsq vd rm vb m) s = execVfrsq vd rm vb m s := rfl
theorem exec_vfexp2 (vd : Reg) (rm : Rm) (vb : Reg) (m : MaskReg) (s : State) : exec (.vfexp2 vd rm vb m) s = execVfexp2 vd rm vb m s := rfl
theorem exec_vfcmpEq (md : MaskReg) (va : Reg) (src : Src) (m : MaskReg) (s : State) : exec (.vfcmpEq md va src m) s = execVfcmpEq md va src m s := rfl
theorem exec_vfcmpLt (md : MaskReg) (va : Reg) (src : Src) (m : MaskReg) (s : State) : exec (.vfcmpLt md va src m) s = execVfcmpLt md va src m s := rfl
theorem exec_vfcmpLe (md : MaskReg) (va : Reg) (src : Src) (m : MaskReg) (s : State) : exec (.vfcmpLe md va src m) s = execVfcmpLe md va src m s := rfl
theorem exec_vfclass (vd : Reg) (src : Src) (m : MaskReg) (s : State) : exec (.vfclass vd src m) s = execVfclass vd src m s := rfl
theorem exec_vfsgnj (vd : Reg) (va : Reg) (src : Src) (m : MaskReg) (s : State) : exec (.vfsgnj vd va src m) s = execVfsgnj vd va src m s := rfl
theorem exec_mand (md : MaskReg) (ma : MaskReg) (mb : MaskReg) (s : State) : exec (.mand md ma mb) s = execMand md ma mb s := rfl
theorem exec_mor (md : MaskReg) (ma : MaskReg) (mb : MaskReg) (s : State) : exec (.mor md ma mb) s = execMor md ma mb s := rfl
theorem exec_mxor (md : MaskReg) (ma : MaskReg) (mb : MaskReg) (s : State) : exec (.mxor md ma mb) s = execMxor md ma mb s := rfl
theorem exec_mnot (md : MaskReg) (ma : MaskReg) (s : State) : exec (.mnot md ma) s = execMnot md ma s := rfl
theorem exec_mlist (md : MaskReg) (s : State) : exec (.mlist md) s = execMlist md s := rfl
theorem exec_mbits (md : MaskReg) (s : State) : exec (.mbits md) s = execMbits md s := rfl
theorem exec_mpop (vd : Reg) (ma : MaskReg) (s : State) : exec (.mpop vd ma) s = execMpop vd ma s := rfl
theorem exec_mfirst (vd : Reg) (ma : MaskReg) (s : State) : exec (.mfirst vd ma) s = execMfirst vd ma s := rfl
theorem exec_vpopx (vd : Reg) (src : Src) (m : MaskReg) (s : State) : exec (.vpopx vd src m) s = execVpopx vd src m s := rfl
theorem exec_vxsect (vd : Reg) (va : Reg) (src : Src) (m : MaskReg) (s : State) : exec (.vxsect vd va src m) s = execVxsect vd va src m s := rfl
theorem exec_vsegl (vd : Reg) (src : Src) (m : MaskReg) (s : State) : exec (.vsegl vd src m) s = execVsegl vd src m s := rfl
theorem exec_vslup (vd : Reg) (va : Reg) (src : Src) (m : MaskReg) (s : State) : exec (.vslup vd va src m) s = execVslup vd va src m s := rfl
theorem exec_vsldn (vd : Reg) (va : Reg) (src : Src) (m : MaskReg) (s : State) : exec (.vsldn vd va src m) s = execVsldn vd va src m s := rfl
theorem exec_vperm (vd : Reg) (va : Reg) (src : Src) (m : MaskReg) (s : State) : exec (.vperm vd va src m) s = execVperm vd va src m s := rfl
theorem exec_vcompress (vd : Reg) (va : Reg) (m : MaskReg) (s : State) : exec (.vcompress vd va m) s = execVcompress vd va m s := rfl
theorem exec_vexpand (vd : Reg) (va : Reg) (m : MaskReg) (s : State) : exec (.vexpand vd va m) s = execVexpand vd va m s := rfl
theorem exec_vmatch (vd : Reg) (va : Reg) (src : Src) (m : MaskReg) (s : State) : exec (.vmatch vd va src m) s = execVmatch vd va src m s := rfl
theorem exec_vredsum (vd : Reg) (va : Reg) (src : Src) (m : MaskReg) (s : State) : exec (.vredsum vd va src m) s = execVredsum vd va src m s := rfl
theorem exec_vredmax (vd : Reg) (va : Reg) (src : Src) (m : MaskReg) (s : State) : exec (.vredmax vd va src m) s = execVredmax vd va src m s := rfl
theorem exec_vredmin (vd : Reg) (va : Reg) (src : Src) (m : MaskReg) (s : State) : exec (.vredmin vd va src m) s = execVredmin vd va src m s := rfl
theorem exec_vscan (vd : Reg) (src : Src) (m : MaskReg) (s : State) : exec (.vscan vd src m) s = execVscan vd src m s := rfl
theorem exec_qswpH (vd : Reg) (vs : Reg) (m : MaskReg) (s : State) : exec (.qswpH vd vs m) s = execQswpH vd vs m s := rfl
theorem exec_qswpV (vd : Reg) (vs : Reg) (m : MaskReg) (s : State) : exec (.qswpV vd vs m) s = execQswpV vd vs m s := rfl
theorem exec_qswpD (vd : Reg) (vs : Reg) (m : MaskReg) (s : State) : exec (.qswpD vd vs m) s = execQswpD vd vs m s := rfl
theorem exec_qbc (vd : Reg) (va : Reg) (sel : BitVec 5) (m : MaskReg) (s : State) : exec (.qbc vd va sel m) s = execQbc vd va sel m s := rfl
theorem exec_qsnd (src : Src) (m : MaskReg) (s : State) : exec (.qsnd src m) s = execQsnd src m s := rfl
theorem exec_qrcv (vd : Reg) (m : MaskReg) (s : State) : exec (.qrcv vd m) s = execQrcv vd m s := rfl
theorem exec_tf (disp : BitVec 15) (s : State) : exec (.tf disp) s = execTf disp s := rfl
theorem exec_tfc (disp : BitVec 15) (m : MaskReg) (s : State) : exec (.tfc disp m) s = execTfc disp m s := rfl
theorem exec_tsetf (n : FlagNo) (s : State) : exec (.tsetf n) s = execTsetf n s := rfl
theorem exec_vpld (vd : Reg) (va : Reg) (src : Src) (m : MaskReg) (s : State) : exec (.vpld vd va src m) s = execVpld vd va src m s := rfl
theorem exec_vpst (vd : Reg) (va : Reg) (src : Src) (m : MaskReg) (s : State) : exec (.vpst vd va src m) s = execVpst vd va src m s := rfl
theorem exec_vpamo (vd : Reg) (va : Reg) (op : AmoOp) (sc : Scope) (od : Order) (m : MaskReg) (s : State) : exec (.vpamo vd va op sc od m) s = execVpamo vd va op sc od m s := rfl
theorem exec_mlat (side : Bool) (half : Bool) (xa : Reg) (xs : Reg) (fmt : Fmt) (s : State) : exec (.mlat side half xa xs fmt) s = execMlat side half xa xs fmt s := rfl
theorem exec_mlatg (half : Bool) (xa : Reg) (vi : Reg) (fmt : Fmt) (s : State) : exec (.mlatg half xa vi fmt) s = execMlatg half xa vi fmt s := rfl
theorem exec_mlatv (side : Bool) (half : Bool) (vs : Reg) (s : State) : exec (.mlatv side half vs) s = execMlatv side half vs s := rfl
theorem exec_mlut (vc : Reg) (s : State) : exec (.mlut vc) s = execMlut vc s := rfl
theorem exec_mop (ha : Bool) (hb : Bool) (k : BitVec 7) (s : State) : exec (.mop ha hb k) s = execMop ha hb k s := rfl
theorem exec_mopz (ha : Bool) (hb : Bool) (k : BitVec 7) (s : State) : exec (.mopz ha hb k) s = execMopz ha hb k s := rfl
theorem exec_mband (side : Bool) (vs : Reg) (s : State) : exec (.mband side vs) s = execMband side vs s := rfl
theorem exec_mdrain (n : BitVec 6) (s : State) : exec (.mdrain n) s = execMdrain n s := rfl
theorem exec_mdrainSz (vs : Reg) (vz : Reg) (n : BitVec 6) (s : State) : exec (.mdrainSz vs vz n) s = execMdrainSz vs vz n s := rfl
theorem exec_mrow (n : BitVec 6) (s : State) : exec (.mrow n) s = execMrow n s := rfl
theorem exec_mstat (d : Reg) (s : State) : exec (.mstat d) s = execMstat d s := rfl
theorem exec_barInit (a : Reg) (b : Reg) (cls : Cls) (s : State) : exec (.barInit a b cls) s = execBarInit a b cls s := rfl
theorem exec_barArrive (a : Reg) (s : State) : exec (.barArrive a) s = execBarArrive a s := rfl
theorem exec_barArriveCap (a : Reg) (k : Fin 4) (s : State) : exec (.barArriveCap a k) s = execBarArriveCap a k s := rfl
theorem exec_barWait (a : Reg) (s : State) : exec (.barWait a) s = execBarWait a s := rfl
theorem exec_barBytes (a : Reg) (b : Reg) (s : State) : exec (.barBytes a b) s = execBarBytes a b s := rfl
theorem exec_lkacq (d : Reg) (a : Reg) (cls : Cls) (s : State) : exec (.lkacq d a cls) s = execLkacq d a cls s := rfl
theorem exec_lkrel (a : Reg) (s : State) : exec (.lkrel a) s = execLkrel a s := rfl
theorem exec_waitm (d : Reg) (a : Reg) (b : Reg) (cls : Cls) (s : State) : exec (.waitm d a b cls) s = execWaitm d a b cls s := rfl
theorem exec_cvinit (n : Fin 8) (a : Reg) (b : Reg) (cls : Cls) (s : State) : exec (.cvinit n a b cls) s = execCvinit n a b cls s := rfl
theorem exec_cvsign (n : Fin 8) (s : State) : exec (.cvsign n) s = execCvsign n s := rfl
theorem exec_clsq (d : Reg) (a : Reg) (s : State) : exec (.clsq d a) s = execClsq d a s := rfl
theorem exec_fsnap (d : Reg) (k : Fin 4) (s : State) : exec (.fsnap d k) s = execFsnap d k s := rfl
theorem exec_frdx (d : Reg) (k : Fin 4) (n : Reg) (s : State) : exec (.frdx d k n) s = execFrdx d k n s := rfl
theorem exec_fwrx (d : Reg) (k : Fin 4) (n : Reg) (s : State) : exec (.fwrx d k n) s = execFwrx d k n s := rfl
theorem exec_frdv (d : Reg) (k : Fin 4) (n : Reg) (s : State) : exec (.frdv d k n) s = execFrdv d k n s := rfl
theorem exec_fwrv (d : Reg) (k : Fin 4) (n : Reg) (s : State) : exec (.fwrv d k n) s = execFwrv d k n s := rfl
theorem exec_frdm (d : Reg) (k : Fin 4) (n : Reg) (s : State) : exec (.frdm d k n) s = execFrdm d k n s := rfl
theorem exec_fresume (k : Fin 4) (s : State) : exec (.fresume k) s = execFresume k s := rfl
theorem exec_fresumeT (k : Fin 4) (s : State) : exec (.fresumeT k) s = execFresumeT k s := rfl
theorem exec_fkill (k : Fin 4) (s : State) : exec (.fkill k) s = execFkill k s := rfl
theorem exec_fstep (k : Fin 4) (s : State) : exec (.fstep k) s = execFstep k s := rfl
theorem exec_capdrop (k : Fin 4) (s : State) : exec (.capdrop k) s = execCapdrop k s := rfl
theorem exec_ecall (s : State) : exec (.ecall) s = execEcall s := rfl
theorem exec_ebreak (s : State) : exec (.ebreak) s = execEbreak s := rfl
theorem exec_yield (s : State) : exec (.yield) s = execYield s := rfl
theorem exec_halt (s : State) : exec (.halt) s = execHalt s := rfl
theorem exec_fenceOv (s : State) : exec (.fenceOv) s = execFenceOv s := rfl
theorem exec_vcommit (s : State) : exec (.vcommit) s = execVcommit s := rfl
theorem exec_mxoff (s : State) : exec (.mxoff) s = execMxoff s := rfl
theorem exec_tstop (s : State) : exec (.tstop) s = execTstop s := rfl
theorem exec_mzero (s : State) : exec (.mzero) s = execMzero s := rfl
theorem exec_mfold (s : State) : exec (.mfold) s = execMfold s := rfl
theorem exec_hdone (s : State) : exec (.hdone) s = execHdone s := rfl
theorem exec_escapementTick (s : State) : exec (.escapementTick) s = execEscapementTick s := rfl
theorem exec_vfBlockStart (s : State) : exec (.vfBlockStart) s = execVfBlockStart s := rfl
theorem exec_vectorSequencerCycle (s : State) : exec (.vectorSequencerCycle) s = execVectorSequencerCycle s := rfl
theorem exec_tfHeldElementRelease (s : State) : exec (.tfHeldElementRelease) s = execTfHeldElementRelease s := rfl
theorem exec_tffullTimeout (s : State) : exec (.tffullTimeout) s = execTffullTimeout s := rfl
theorem exec_regrouping (s : State) : exec (.regrouping) s = execRegrouping s := rfl
theorem exec_vjoinArrival (s : State) : exec (.vjoinArrival) s = execVjoinArrival s := rfl
theorem exec_vjoinTimeout (s : State) : exec (.vjoinTimeout) s = execVjoinTimeout s := rfl
theorem exec_threadQueueStallRelease (s : State) : exec (.threadQueueStallRelease) s = execThreadQueueStallRelease s := rfl
theorem exec_quadExchangeThreadComplete (s : State) : exec (.quadExchangeThreadComplete) s = execQuadExchangeThreadComplete s := rfl
theorem exec_operationComplete (s : State) : exec (.operationComplete) s = execOperationComplete s := rfl
theorem exec_homeWriteApply (s : State) : exec (.homeWriteApply) s = execHomeWriteApply s := rfl
theorem exec_barexitGroupReady (s : State) : exec (.barexitGroupReady) s = execBarexitGroupReady s := rfl
theorem exec_byteLands (s : State) : exec (.byteLands) s = execByteLands s := rfl
theorem exec_evwaitGrant (s : State) : exec (.evwaitGrant) s = execEvwaitGrant s := rfl
theorem exec_setvlwRelease (s : State) : exec (.setvlwRelease) s = execSetvlwRelease s := rfl
theorem exec_wmpubPerform (s : State) : exec (.wmpubPerform) s = execWmpubPerform s := rfl
theorem exec_fenceReleaseStallEnd (s : State) : exec (.fenceReleaseStallEnd) s = execFenceReleaseStallEnd s := rfl
theorem exec_streamEntryFetch (s : State) : exec (.streamEntryFetch) s = execStreamEntryFetch s := rfl
theorem exec_gatherUnitRequest (s : State) : exec (.gatherUnitRequest) s = execGatherUnitRequest s := rfl
theorem exec_vfgComplete (s : State) : exec (.vfgComplete) s = execVfgComplete s := rfl
theorem exec_engineOpComplete (s : State) : exec (.engineOpComplete) s = execEngineOpComplete s := rfl
theorem exec_engineAsyncFault (s : State) : exec (.engineAsyncFault) s = execEngineAsyncFault s := rfl
theorem exec_pageWalkComplete (s : State) : exec (.pageWalkComplete) s = execPageWalkComplete s := rfl
theorem exec_matrixUnitGrant (s : State) : exec (.matrixUnitGrant) s = execMatrixUnitGrant s := rfl
theorem exec_matrixOpStart (s : State) : exec (.matrixOpStart) s = execMatrixOpStart s := rfl
theorem exec_matrixOpComplete (s : State) : exec (.matrixOpComplete) s = execMatrixOpComplete s := rfl
theorem exec_handlerSpawn (s : State) : exec (.handlerSpawn) s = execHandlerSpawn s := rfl
theorem exec_faultQueueEntryFree (s : State) : exec (.faultQueueEntryFree) s = execFaultQueueEntryFree s := rfl
theorem exec_preemptionRequest (s : State) : exec (.preemptionRequest) s = execPreemptionRequest s := rfl
theorem exec_preemptStripTimeout (s : State) : exec (.preemptStripTimeout) s = execPreemptStripTimeout s := rfl
theorem exec_rowResume (s : State) : exec (.rowResume) s = execRowResume s := rfl
theorem exec_scalarIssueCycle (s : State) : exec (.scalarIssueCycle) s = execScalarIssueCycle s := rfl
theorem exec_starvePromotion (s : State) : exec (.starvePromotion) s = execStarvePromotion s := rfl
theorem exec_promotionEnd (s : State) : exec (.promotionEnd) s = execPromotionEnd s := rfl
theorem exec_promotedRowPlacement (s : State) : exec (.promotedRowPlacement) s = execPromotedRowPlacement s := rfl
theorem exec_laneRetirement (s : State) : exec (.laneRetirement) s = execLaneRetirement s := rfl
theorem exec_inFieldTest (s : State) : exec (.inFieldTest) s = execInFieldTest s := rfl
theorem exec_hostDoorbell (s : State) : exec (.hostDoorbell) s = execHostDoorbell s := rfl
theorem exec_launchStart (s : State) : exec (.launchStart) s = execLaunchStart s := rfl
theorem exec_launchEngineSelection (s : State) : exec (.launchEngineSelection) s = execLaunchEngineSelection s := rfl
theorem exec_teamBlockingTimeout (s : State) : exec (.teamBlockingTimeout) s = execTeamBlockingTimeout s := rfl
theorem exec_completionRecordWrite (s : State) : exec (.completionRecordWrite) s = execCompletionRecordWrite s := rfl
theorem exec_hostMemRead (s : State) : exec (.hostMemRead) s = execHostMemRead s := rfl
theorem exec_hostMemWrite (s : State) : exec (.hostMemWrite) s = execHostMemWrite s := rfl
theorem exec_remoteRequestArrival (s : State) : exec (.remoteRequestArrival) s = execRemoteRequestArrival s := rfl
theorem exec_remoteAcknowledgement (s : State) : exec (.remoteAcknowledgement) s = execRemoteAcknowledgement s := rfl
theorem exec_remoteOpTimeout (s : State) : exec (.remoteOpTimeout) s = execRemoteOpTimeout s := rfl
theorem exec_collectiveComplete (s : State) : exec (.collectiveComplete) s = execCollectiveComplete s := rfl
theorem exec_deviceFailureDetected (s : State) : exec (.deviceFailureDetected) s = execDeviceFailureDetected s := rfl
theorem exec_tlbinvPage (s : State) : exec (.tlbinvPage) s = execTlbinvPage s := rfl
theorem exec_tlbinvAll (s : State) : exec (.tlbinvAll) s = execTlbinvAll s := rfl
theorem exec_tlbinvFlush (s : State) : exec (.tlbinvFlush) s = execTlbinvFlush s := rfl
theorem exec_tlbInvalidationComplete (s : State) : exec (.tlbInvalidationComplete) s = execTlbInvalidationComplete s := rfl
theorem exec_partitionEnable (s : State) : exec (.partitionEnable) s = execPartitionEnable s := rfl
theorem exec_partitionDisable (s : State) : exec (.partitionDisable) s = execPartitionDisable s := rfl
theorem exec_snapshot (s : State) : exec (.snapshot) s = execSnapshot s := rfl
theorem exec_restoreOwn (s : State) : exec (.restoreOwn) s = execRestoreOwn s := rfl
theorem exec_restoreBuddy (s : State) : exec (.restoreBuddy) s = execRestoreBuddy s := rfl
theorem exec_capwWrite (s : State) : exec (.capwWrite) s = execCapwWrite s := rfl
theorem exec_capwForceWrite (s : State) : exec (.capwForceWrite) s = execCapwForceWrite s := rfl
theorem exec_floorwWrite (s : State) : exec (.floorwWrite) s = execFloorwWrite s := rfl
theorem exec_registerWrite (s : State) : exec (.registerWrite) s = execRegisterWrite s := rfl
theorem exec_powerControlTick (s : State) : exec (.powerControlTick) s = execPowerControlTick s := rfl
theorem exec_matrixThrottle (s : State) : exec (.matrixThrottle) s = execMatrixThrottle s := rfl
theorem exec_idleFloorMeasure (s : State) : exec (.idleFloorMeasure) s = execIdleFloorMeasure s := rfl
theorem exec_sensorSample (s : State) : exec (.sensorSample) s = execSensorSample s := rfl
theorem exec_currentSlewWindow (s : State) : exec (.currentSlewWindow) s = execCurrentSlewWindow s := rfl
theorem exec_patrolScrub (s : State) : exec (.patrolScrub) s = execPatrolScrub s := rfl
theorem exec_firmwareUpdate (s : State) : exec (.firmwareUpdate) s = execFirmwareUpdate s := rfl
theorem exec_deviceReset (s : State) : exec (.deviceReset) s = execDeviceReset s := rfl
theorem exec_getVersion (s : State) : exec (.getVersion) s = execGetVersion s := rfl
theorem exec_getCapabilities (s : State) : exec (.getCapabilities) s = execGetCapabilities s := rfl
theorem exec_negotiateAlgorithms (s : State) : exec (.negotiateAlgorithms) s = execNegotiateAlgorithms s := rfl
theorem exec_getDigests (s : State) : exec (.getDigests) s = execGetDigests s := rfl
theorem exec_getCertificate (s : State) : exec (.getCertificate) s = execGetCertificate s := rfl
theorem exec_challenge (s : State) : exec (.challenge) s = execChallenge s := rfl
theorem exec_getMeasurements (s : State) : exec (.getMeasurements) s = execGetMeasurements s := rfl
theorem exec_keyExchange (s : State) : exec (.keyExchange) s = execKeyExchange s := rfl
theorem exec_finish (s : State) : exec (.finish) s = execFinish s := rfl
theorem exec_keyRelease (s : State) : exec (.keyRelease) s = execKeyRelease s := rfl
theorem exec_nonInstructionWord (s : State) : exec (.nonInstructionWord) s = execNonInstructionWord s := rfl
theorem exec_partitionCreation (s : State) : exec (.partitionCreation) s = execPartitionCreation s := rfl
theorem exec_partitionDestruction (s : State) : exec (.partitionDestruction) s = execPartitionDestruction s := rfl
theorem exec_felokLinkReplay (s : State) : exec (.felokLinkReplay) s = execFelokLinkReplay s := rfl
theorem exec_heartbeat (s : State) : exec (.heartbeat) s = execHeartbeat s := rfl
theorem exec_peerSnapshotWrite (s : State) : exec (.peerSnapshotWrite) s = execPeerSnapshotWrite s := rfl

end Sys2Proof.Machine
end

