-- ==== Sys2Proof/Laws/Memory.lean ====
section
/-! SUPPORT. The bytes of memory: a read after a write, and that every operation on memory keeps the canonical form. -/

set_option Elab.async false

namespace Sys2Proof.Machine

/-- Every place of a list of cells is above `k`. -/
def Memory.above (k : Nat) : List Host.Cell → Prop
  | [] => True
  | (a, _) :: t => k < a ∧ Memory.above k t

/-- The tail of a canonical memory is canonical, and above its head. -/
theorem Memory.wf_cons {a : Nat} {b : Byte} {t : List Host.Cell} :
    Memory.wf ((a, b) :: t) = true ↔ b ≠ 0 ∧ Memory.above a t ∧ Memory.wf t = true := by
  induction t generalizing a b with
  | nil => simp [Memory.wf, Memory.above]
  | cons p t ih =>
    obtain ⟨c, d⟩ := p
    simp only [Memory.wf, Bool.and_eq_true, bne_iff_ne, ne_eq, decide_eq_true_eq, Memory.above]
    constructor
    · rintro ⟨⟨h1, h2⟩, h3⟩
      refine ⟨h1, ⟨h2, ?_⟩, h3⟩
      have := (ih.1 h3).2.1
      have mono : ∀ l, Memory.above c l → Memory.above a l := by
        intro l; induction l with
        | nil => intro; trivial
        | cons q l il => exact fun h => ⟨by have := h.1; omega, il h.2⟩
      exact mono t this
    · rintro ⟨h1, ⟨h2, -⟩, h3⟩
      exact ⟨⟨h1, h2⟩, h3⟩

/-- A place below every listed one reads as 0. -/
theorem Memory.read_above {k : Nat} {t : List Host.Cell} (h : Memory.above k t) : Memory.read t k = 0 := by
  cases t with
  | nil => rfl
  | cons p t =>
    obtain ⟨a, b⟩ := p
    have := h.1
    simp only [Memory.read]
    rw [if_neg (by omega), if_pos (by omega)]

/-- Writing above `j` stays above `j`. -/
theorem Memory.above_write {j k : Nat} {v : Byte} {t : List Host.Cell} (h : Memory.above j t) (l : j < k) :
    Memory.above j (Memory.write t k v) := by
  induction t with
  | nil => simp only [Memory.write]; split <;> simp [Memory.above, l]
  | cons p t ih =>
    obtain ⟨a, b⟩ := p
    simp only [Memory.write]
    split
    · split
      · exact h
      · exact ⟨l, h⟩
    · split
      · split
        · exact h.2
        · exact ⟨l, h.2⟩
      · exact ⟨h.1, ih h.2⟩

/-- A write keeps the canonical form. -/
theorem Memory.wf_write {m : List Host.Cell} (k : Nat) (v : Byte) (h : Memory.wf m = true) :
    Memory.wf (Memory.write m k v) = true := by
  induction m with
  | nil =>
    simp only [Memory.write]
    split
    · rfl
    · simpa [Memory.wf] using ‹¬v = 0›
  | cons p t ih =>
    obtain ⟨a, b⟩ := p
    obtain ⟨h1, h2, h3⟩ := Memory.wf_cons.1 h
    simp only [Memory.write]
    split
    · split
      · exact h
      · refine Memory.wf_cons.2 ⟨‹¬v = 0›, ⟨‹k < a›, ?_⟩, h⟩
        have mono : ∀ l, Memory.above a l → Memory.above k l := by
          intro l; induction l with
          | nil => intro; trivial
          | cons q l il => exact fun h => ⟨by have := h.1; omega, il h.2⟩
        exact mono t h2
    · split
      · split
        · exact h3
        · exact Memory.wf_cons.2 ⟨‹¬v = 0›, by subst ‹k = a›; exact h2, h3⟩
      · exact Memory.wf_cons.2 ⟨h1, Memory.above_write h2 (by omega), ih h3⟩

/-- A read after a write: the place written reads the value, every other place as before. -/
theorem Memory.read_write {m : List Host.Cell} (k j : Nat) (v : Byte) (h : Memory.wf m = true) :
    Memory.read (Memory.write m k v) j = if j = k then v else Memory.read m j := by
  induction m with
  | nil =>
    simp only [Memory.write]
    split
    · simp [Memory.read, *]
    · simp only [Memory.read]
      by_cases e : j = k
      · simp [e]
      · rw [if_neg (Ne.symm e), if_neg e]; split <;> rfl
  | cons p t ih =>
    obtain ⟨a, b⟩ := p
    obtain ⟨h1, h2, h3⟩ := Memory.wf_cons.1 h
    simp only [Memory.write]
    split
    · have hk : Memory.read ((a, b) :: t) k = 0 := by
        simp only [Memory.read]; rw [if_neg (by omega), if_pos (by omega)]
      split
      · by_cases e : j = k
        · rw [if_pos e, e, hk]; exact (‹v = 0›).symm
        · rw [if_neg e]
      · by_cases e : j = k
        · simp [Memory.read, e]
        · rw [if_neg e]
          rw [Memory.read, if_neg (Ne.symm e)]
          split
          · simp only [Memory.read]; rw [if_neg (by omega), if_pos (by omega)]
          · rfl
    · split
      · subst ‹k = a›
        split
        · by_cases e : j = k
          · rw [if_pos e, e, Memory.read_above h2, ‹v = 0›]
          · rw [if_neg e, Memory.read, if_neg (Ne.symm e)]
            split
            · have mono : ∀ l, Memory.above k l → Memory.above j l := by
                intro l; induction l with
                | nil => intro; trivial
                | cons q l il => exact fun h => ⟨by have := h.1; omega, il h.2⟩
              exact Memory.read_above (mono t h2)
            · rfl
        · by_cases e : j = k
          · simp [Memory.read, e]
          · simp only [Memory.read, if_neg e, if_neg (Ne.symm e)]
      · simp only [Memory.read]
        rw [ih h3]
        by_cases e : a = j
        · rw [if_pos e, if_neg (by omega)]; simp [e]
        · rw [if_neg e]
          by_cases l : j < a
          · rw [if_pos l, if_neg (by omega), if_neg e, if_pos l]
          · rw [if_neg l, if_neg e, if_neg l]

/-- Bytes poked one after another keep the canonical form. -/
theorem Memory.wf_poke (k : Nat) (bs : List (Byte × Nat)) {m : List Host.Cell} (h : Memory.wf m = true) :
    Memory.wf (bs.foldl (fun c p => Memory.write c (k + p.2) p.1) m) = true := by
  induction bs generalizing m with
  | nil => exact h
  | cons p t ih => exact ih (Memory.wf_write _ _ h)

/-- `pokeBytes` keeps the canonical form. -/
theorem State.memOk_pokeBytes {s : State} (k : Nat) (bs : List Byte) (h : s.MemOk) : (s.pokeBytes k bs).MemOk :=
  Memory.wf_poke k bs.zipIdx h

/-- Reading after a run of writes gives the bytes written in their places, and what was there elsewhere. -/
theorem Memory.read_poke (k j : Nat) : ∀ (bs : List Byte) (n : Nat) {m : List Host.Cell}, Memory.wf m = true →
    Memory.read ((bs.zipIdx n).foldl (fun c p => Memory.write c (k + p.2) p.1) m) j =
      if k + n ≤ j ∧ j < k + n + bs.length then bs[j - (k + n)]?.getD 0 else Memory.read m j
  | [], n, m, _ => by simp
  | b :: bs, n, m, h => by
    simp only [List.zipIdx_cons, List.foldl_cons, List.length_cons]
    rw [Memory.read_poke k j bs (n + 1) (Memory.wf_write _ _ h), Memory.read_write _ _ _ h]
    rcases Nat.lt_trichotomy j (k + n) with a | a | a
    · rw [if_neg (by omega), if_neg (by omega), if_neg (by omega)]
    · subst a; simp
    · have e : j - (k + n) = j - (k + (n + 1)) + 1 := by omega
      rw [if_neg (c := j = k + n) (by omega), e, List.getElem?_cons_succ]
      by_cases c : j < k + n + (bs.length + 1)
      · rw [if_pos (by omega), if_pos (by omega)]
      · rw [if_neg (by omega), if_neg (by omega)]
/-- A byte after `pokeBytes`. -/
theorem State.byte_pokeBytes {s : State} (k j : Nat) (bs : List Byte) (h : s.MemOk) :
    (s.pokeBytes k bs).byte j = if k ≤ j ∧ j < k + bs.length then bs[j - k]?.getD 0 else s.byte j :=
  Memory.read_poke k j bs 0 h

/-- A byte written under a page's key keeps the canonical form. -/
theorem Mem.wf_put {m : Mem} (l : Loc) (b : Byte) (h : Memory.wf m.cells = true) : Memory.wf (m.put l b).cells = true :=
  Memory.wf_write _ _ h

/-- Many bytes so written keep it. -/
theorem Mem.wf_puts (ps : List (Loc × Byte)) {m : Mem} (h : Memory.wf m.cells = true) :
    Memory.wf (ps.foldl (fun m p => m.put p.1 p.2) m).cells = true := by
  induction ps generalizing m with
  | nil => exact h
  | cons p t ih => exact ih (Mem.wf_put p.1 p.2 h)

/-- Applying a buffered or travelling item keeps the canonical form. -/
theorem memOk_applyItem {s : State} (i : WItem) (h : s.MemOk) : (applyItem s i).MemOk := by
  cases i with
  | byte l m b => exact Mem.wf_put _ _ h
  | add ls t v => exact Mem.wf_puts _ h

end Sys2Proof.Machine
end

