-- ==== Sys2Proof/Laws/Keeps.lean ====
section
/-! SUPPORT. What the shared operations do to the bytes of memory: most leave them, and those that write keep the canonical form. -/

set_option Elab.async false

namespace Sys2Proof.Machine

/-- The canonical form, as it is defined. -/
theorem State.memOk_iff {s : State} : s.MemOk ↔ Memory.wf s.mem.cells := Iff.rfl

/-- The canonical form is a property of the bytes alone. -/
theorem State.memOk_of_cells {s u : State} (h : u.mem.cells = s.mem.cells) (k : s.MemOk) : u.MemOk := by
  unfold State.MemOk; rw [h]; exact k

/-- An operation repeated over a list keeps the canonical form where each use of it does. -/
theorem memOk_foldl {α : Type} {f : State → α → State} (hf : ∀ s a, s.MemOk → (f s a).MemOk) (l : List α) {s : State} (h : s.MemOk) :
    (l.foldl f s).MemOk := by
  induction l generalizing s with
  | nil => exact h
  | cons a t ih => exact ih (hf s a h)

/-- An operation repeated over a list leaves the bytes where each use of it does. -/
theorem cells_foldl {α : Type} {f : State → α → State} (hf : ∀ s a, (f s a).mem.cells = s.mem.cells) (l : List α) (s : State) :
    (l.foldl f s).mem.cells = s.mem.cells := by
  induction l generalizing s with
  | nil => rfl
  | cons a t ih => rw [List.foldl_cons, ih, hf]

/-! Operations that leave the bytes. -/

@[simp] theorem State.dropFlag_mem (s : State) (t : Tid) (n : Nat) : (s.dropFlag t n).mem = s.mem := by
  unfold State.dropFlag
  dsimp only
  repeat' split
  all_goals simp

@[simp] theorem State.endOp_cells (s : State) (o : Op) : (s.endOp o).mem.cells = s.mem.cells := by
  unfold State.endOp
  dsimp only
  split
  · rw [State.modRow_mem]; exact cells_foldl (fun s p => by rw [State.dropFlag_mem]) _ _
  · exact cells_foldl (fun s p => by rw [State.dropFlag_mem]) _ _

@[simp] theorem State.cancelOps_cells (s : State) (p : Op → Bool) : (s.cancelOps p).mem.cells = s.mem.cells :=
  cells_foldl (fun s o => State.endOp_cells s o) _ _

@[simp] theorem State.stripNr_mem (s : State) (row cause : Nat) : (s.stripNr row cause).mem = s.mem := by
  unfold State.stripNr; split
  · split
    · rfl
    · rfl
  · rfl

@[simp] theorem State.scalarNr_mem (s : State) (t : Tid) : (s.scalarNr t).mem = s.mem := by
  unfold State.scalarNr; split
  · exact State.stripNr_mem _ _ _
  · rfl

@[simp] theorem State.commitBuf_cells (s : State) (row : Nat) : (s.commitBuf row).mem.cells = s.mem.cells := by
  unfold State.commitBuf; split
  · rfl
  · split <;> rfl

@[simp] theorem State.closeStrip_cells (s : State) (row : Nat) : (s.closeStrip row).mem.cells = s.mem.cells := by
  unfold State.closeStrip; dsimp only; split <;> simp

@[simp] theorem State.openStrip_mem (s : State) (row vl : Nat) (pc : Word) : (s.openStrip row vl pc).mem = s.mem := by
  unfold State.openStrip; split <;> simp

@[simp] theorem State.restartStrip_cells (s : State) (row : Nat) : (s.restartStrip row).mem.cells = s.mem.cells := by
  unfold State.restartStrip; split
  · rfl
  · split
    · rfl
    · exact State.cancelOps_cells _ _

@[simp] theorem State.abandon_cells (s : State) (t : Tid) : (s.abandon t).mem.cells = s.mem.cells := by
  unfold State.abandon; dsimp only
  split
  · split <;> simp
  · simp

@[simp] theorem State.enqueue_mem (s : State) (k c : Nat) : (s.enqueue k c).mem = s.mem := by
  unfold State.enqueue; dsimp only; split <;> rfl

@[simp] theorem State.fileRec_mem (s : State) (fr : FRec) : (s.fileRec fr).mem = s.mem := by
  unfold State.fileRec; split <;> simp

@[simp] theorem State.raiseRow_cells (s : State) (row : Nat) (fi : FInfo) : (s.raiseRow row fi).mem.cells = s.mem.cells := by
  unfold State.raiseRow; split
  · rfl
  · dsimp only
    repeat' split
    all_goals simp

@[simp] theorem State.raiseVp_cells (s : State) (row e : Nat) (fi : FInfo) : (s.raiseVp row e fi).mem.cells = s.mem.cells := by
  unfold State.raiseVp; split
  · rfl
  · dsimp only; split <;> simp

@[simp] theorem State.raiseHnd_cells (s : State) (h : Nat) (fi : FInfo) : (s.raiseHnd h fi).mem.cells = s.mem.cells := by
  unfold State.raiseHnd; split
  · rfl
  · dsimp only; split <;> simp

/-- Taking an exception leaves the bytes of memory. -/
@[simp] theorem State.raise_cells (s : State) (t : Tid) (fi : FInfo) : (s.raise t fi).mem.cells = s.mem.cells := by
  unfold State.raise; split <;> simp

@[simp] theorem State.fileOp_cells (s : State) (o : Op) (r : Row) (fr : FRec) : (s.fileOp o r fr).mem.cells = s.mem.cells := by
  unfold State.fileOp; dsimp only; split <;> simp

@[simp] theorem State.raiseOp_cells (s : State) (o : Op) (fi : FInfo) : (s.raiseOp o fi).mem.cells = s.mem.cells := by
  unfold State.raiseOp; split
  · rfl
  · dsimp only; split <;> simp

@[simp] theorem State.dropRec_mem (s : State) (fr : FRec) (again : Bool) : (s.dropRec fr again).mem = s.mem := by
  unfold State.dropRec; dsimp only
  split
  · split <;> simp
  · simp

@[simp] theorem State.rebind_mem (s : State) (t : Tid) : (s.rebind t).mem = s.mem := by
  unfold State.rebind; split <;> rfl

@[simp] theorem State.dropUnit_mem (s : State) (c row : Nat) : (s.dropUnit c row).mem = s.mem := rfl

/-- Ending a row leaves the bytes of memory. -/
@[simp] theorem State.endRow_cells (s : State) (row : Nat) (killed : Bool) : (s.endRow row killed).mem.cells = s.mem.cells := by
  unfold State.endRow; split
  · rfl
  · rename_i r _
    dsimp only
    split
    all_goals
      simp only [State.modCluster_mem]
      refine (cells_foldl (fun s k => ?_) _ _).trans ?_
      · simp
      · simp

@[simp] theorem State.killLaunch_cells (s : State) (l : Nat) : (s.killLaunch l).mem.cells = s.mem.cells :=
  cells_foldl (fun s k => State.endRow_cells s k true) _ _

@[simp] theorem State.endHandler_cells (s : State) (h : Nat) : (s.endHandler h).mem.cells = s.mem.cells := by
  unfold State.endHandler; split
  · rfl
  · exact cells_foldl (fun s k => by split <;> simp) _ _

@[simp] theorem State.machineCheck_cells (s : State) (c : Nat) (fr : FRec) (cause : Nat) : (s.machineCheck c fr cause).mem.cells = s.mem.cells :=
  (cells_foldl (fun s k => State.killLaunch_cells s k) _ _).trans rfl

@[simp] theorem State.stepRec_mem (s : State) (t : Tid) (k : Nat) (pc resume header : Word) (run : Option LaneRun) :
    (s.stepRec t k pc resume header run).mem = s.mem := by
  unfold State.stepRec; simp

@[simp] theorem State.stepEnd_mem (s : State) (t : Tid) (pc : Word) : (s.stepEnd t pc).mem = s.mem := by
  unfold State.stepEnd
  repeat' split
  all_goals simp

@[simp] theorem State.goTo_mem (s : State) (t : Tid) (pc : Word) : (s.goTo t pc).mem = s.mem := by
  unfold State.goTo; split <;> simp

@[simp] theorem State.stepGone_mem (s : State) (t : Tid) (k : Nat) : (s.stepGone t k).mem = s.mem := by
  unfold State.stepGone
  dsimp only
  split <;> simp

@[simp] theorem State.vpFetch_mem (s : State) (row e : Nat) (p : Word) : (s.vpFetch row e p).mem = s.mem := by
  unfold State.vpFetch
  split <;> simp

@[simp] theorem State.vpBoundary_mem (s : State) (row e : Nat) (next : Word) : (s.vpBoundary row e next).mem = s.mem := by
  unfold State.vpBoundary
  dsimp only
  repeat' split
  all_goals simp

@[simp] theorem State.advanceVp_mem (s : State) (row e : Nat) : (s.advanceVp row e).mem = s.mem := by
  unfold State.advanceVp
  dsimp only
  repeat' split
  all_goals simp

/-- Moving a thread past its instruction leaves memory. -/
@[simp] theorem State.finish_mem (s : State) (t : Tid) : (s.finish t).mem = s.mem := by
  unfold State.finish
  repeat' split
  all_goals simp

@[simp] theorem State.putX_mem (s : State) (t : Tid) (d : Reg) (v : Word) : (s.putX t d v).mem = s.mem := by
  unfold State.putX
  repeat' split
  all_goals simp

@[simp] theorem State.release_mem (s : State) (t : Tid) (d : Reg) (v : Word) : (s.release t d v).mem = s.mem := by
  unfold State.release; simp

@[simp] theorem State.modLocks_mem (s : State) (t : Tid) (f : Nat → Nat) : (s.modLocks t f).mem = s.mem := by
  unfold State.modLocks; split <;> simp

@[simp] theorem State.tlbRequest_mem (s : State) (p v gwct : Nat) (after : List Nat) : (s.tlbRequest p v gwct after).mem = s.mem := by
  unfold State.tlbRequest; split <;> simp

@[simp] theorem State.refresh_cells (s : State) (c : Nat) (ls : List Loc) : (s.refresh c ls).mem.cells = s.mem.cells := rfl

@[simp] theorem State.grantLease_cells (s : State) (c line : Nat) : (s.grantLease c line).mem.cells = s.mem.cells := rfl

/-! Operations that write, and keep the canonical form. -/

/-- Waking monitored waits leaves memory. -/
@[simp] theorem State.wakeMonitors_cells (s : State) (k : Nat) : (s.wakeMonitors k).mem.cells = s.mem.cells :=
  cells_foldl (fun s p => by
    repeat' split
    all_goals simp) _ _

/-- Items applied one after another keep it. -/
theorem memOk_applyItems (l : List WItem) {s : State} (h : s.MemOk) : (l.foldl applyItem s).MemOk :=
  memOk_foldl (fun _ i h => memOk_applyItem i h) l h

/-- A home that applies the bytes of a write keeps it. -/
theorem State.memOk_applyBytes {s : State} (t : Tid) (cluster part : Nat) (scalar : Bool) (items : List WItem) (h : s.MemOk) :
    (s.applyBytes t cluster part scalar items).1.MemOk := by
  unfold State.applyBytes
  extract_lets locs inv plain s1 s2 whole m3 s3 s4 g
  have h1 : s1.MemOk := memOk_applyItems plain h
  have h2 : s2.MemOk := by
    simp only [s2]; split
    · exact h1
    · exact State.memOk_of_cells (by rw [State.tlbRequest_mem]) h1
  have h3 : s3.MemOk := h2
  have h4 : s4.MemOk := by
    simp only [s4]; split
    · exact State.memOk_of_cells (State.refresh_cells s3 cluster locs) h3
    · exact h3
  exact State.memOk_of_cells (by rw [State.raiseGwct_mem]) h4

/-- Passing a lock on keeps it. -/
theorem State.memOk_grantNext (counted : Bool) (k n : Nat) {s : State} (h : s.MemOk) : (State.grantNext counted k n s).1.MemOk := by
  induction n generalizing s with
  | zero => exact h
  | succ n ih =>
    unfold State.grantNext
    split
    · exact h
    · dsimp only
      split
      · split
        · exact ih (State.memOk_of_cells (by rw [State.setWait_mem]) h)
        · rw [State.memOk_iff, State.release_mem]
          rw [← State.memOk_iff]
          split
          · rw [State.memOk_iff, State.modLocks_mem, ← State.memOk_iff]; exact State.memOk_applyBytes _ _ _ _ _ h
          · exact State.memOk_applyBytes _ _ _ _ _ h
      · exact ih h

/-- Granting a lock keeps it. -/
theorem State.memOk_grantLock {s : State} (k : Nat) (h : s.MemOk) : (s.grantLock k).MemOk := by
  unfold State.grantLock
  split
  · exact h
  · exact State.memOk_grantNext _ _ _ h

/-- What follows a write at its home keeps it. -/
theorem State.memOk_afterWrite {s : State} (k : Nat) (h : s.MemOk) : (s.afterWrite k).MemOk := by
  have h1 : (s.wakeMonitors k).MemOk := State.memOk_of_cells (State.wakeMonitors_cells s k) h
  have h2 := State.memOk_grantLock k h1
  unfold State.afterWrite
  exact State.memOk_of_cells (State.wakeMonitors_cells _ k) h2

/-- A home that applies one write keeps it. -/
theorem State.memOk_applyOne {s : State} (t : Tid) (cluster part : Nat) (scalar : Bool) (items : List WItem) (h : s.MemOk) :
    (s.applyOne t cluster part scalar items).1.MemOk :=
  memOk_foldl (fun _ k h => State.memOk_afterWrite k h) _ (State.memOk_applyBytes t cluster part scalar items h)

/-- A home that applies writes keeps it. -/
theorem State.memOk_applyAt {s : State} (t : Tid) (cluster part : Nat) (scalar : Bool) (items : List WItem) (h : s.MemOk) :
    (s.applyAt t cluster part scalar items).1.MemOk := by
  unfold State.applyAt
  generalize splitWrites items [] [] = l
  suffices ∀ q : State × Nat, q.1.MemOk → (l.foldl (fun (q : State × Nat) w =>
      let (s, g) := q.1.applyOne t cluster part scalar w
      (s, max q.2 g)) q).1.MemOk from this _ h
  intro q hq
  induction l generalizing q with
  | nil => exact hq
  | cons a l ih => exact ih _ (State.memOk_applyOne t cluster part scalar a hq)

/-- A store at its homes keeps it. -/
theorem State.memOk_homeStore {s : State} (t : Tid) (ls : List Loc) (bs : List Byte) (h : s.MemOk) : (s.homeStore t ls bs).1.MemOk :=
  State.memOk_applyAt _ _ _ _ _ h

/-- A travelling write applied keeps it. -/
theorem State.memOk_applyWrite {s : State} (w : PWrite) (h : s.MemOk) : (s.applyWrite w).MemOk := by
  have g := State.memOk_applyAt w.thread w.cluster w.part w.scalar w.items (State.memOk_of_cells
    (u := { s with mem := { s.mem with writes := s.mem.writes.filter (·.id != w.id) } }) rfl h)
  unfold State.applyWrite
  exact State.memOk_of_cells (by simp) g

/-- Writes of a thread applied before it reads keep it. -/
theorem State.memOk_force {s : State} (t : Tid) (keys : List Nat) (h : s.MemOk) : (s.force t keys).MemOk :=
  memOk_foldl (fun _ w h => State.memOk_applyWrite w h) _ h

/-- Writes of a row applied before it reads keep it. -/
theorem State.memOk_settle {s : State} (row : Nat) (h : s.MemOk) : (s.settle row).MemOk :=
  memOk_foldl (fun _ w h => State.memOk_applyWrite w h) _ h

/-- A walk that fills the TLBs keeps it. -/
theorem memOk_tlbFill {s u : State} {a : Acc} {va : Nat} {e : TlbEnt} (h : s.MemOk) (k : tlbFill s a va = .ok (e, u)) : u.MemOk := by
  unfold tlbFill at k
  split at k
  · simp only [Except.ok.injEq, Prod.mk.injEq] at k
    rw [← k.2]; exact h
  · split at k
    · cases k
    · simp only [Except.ok.injEq, Prod.mk.injEq] at k
      rw [← k.2]; exact State.memOk_pokeBytes _ _ h

/-- Setting D keeps it. -/
theorem memOk_setDirty {s : State} (a : Acc) (e : TlbEnt) (h : s.MemOk) : (setDirty s a e).MemOk := by
  unfold setDirty
  split
  · exact h
  · exact State.memOk_pokeBytes _ _ h

/-- Pinning a line keeps it. -/
theorem State.memOk_pinLine {s : State} (p n : Nat) (h : s.MemOk) : (s.pinLine p n).MemOk := by
  unfold State.pinLine
  split
  · exact h
  · dsimp only
    split
    · exact State.memOk_of_cells rfl h
    · exact State.memOk_of_cells rfl h

/-- Pinning the lines of an access keeps it. -/
theorem State.memOk_pin {s : State} (p n : Nat) (l : Loc) (h : s.MemOk) : (s.pin p n l).MemOk := by
  unfold State.pin
  split
  · exact memOk_foldl (fun _ k h => State.memOk_pinLine p k h) _ h
  · exact h

/-- A translation keeps it. -/
theorem memOk_xlate {s u : State} {a : Acc} {va n : Nat} {wr obj : Bool} {l : Loc} (h : s.MemOk) (k : xlate s a va n wr obj = .ok (l, u)) :
    u.MemOk := by
  unfold xlate at k
  split at k
  · simp only [Except.ok.injEq, Prod.mk.injEq] at k; rw [← k.2]; exact h
  · split at k
    · cases k
    · dsimp only at k
      have hit : ∀ e v, (match tlbFind (FMap.getD s.mem.tlbC a.cluster []) a.part va with
          | some e => Except.ok (e, s)
          | none => tlbFill s a va) = .ok (e, v) → v.MemOk := by
        intro e v hv
        split at hv
        · simp only [Except.ok.injEq, Prod.mk.injEq] at hv; rw [← hv.2]; exact h
        · exact memOk_tlbFill h hv
      split at k
      · cases k
      · rename_i e v hv
        split at k
        · cases k
        · simp only [Except.ok.injEq, Prod.mk.injEq] at k
          rw [← k.2]
          refine State.memOk_pin _ _ _ ?_
          split
          · exact memOk_setDirty _ _ (hit _ _ hv)
          · exact hit _ _ hv

/-- A translation of several blocks keeps it. -/
theorem memOk_xlateN {s u : State} {a : Acc} {va n : Nat} {wr obj : Bool} {l : List Loc} (h : s.MemOk)
    (k : xlateN s a va n wr obj = .ok (l, u)) : u.MemOk := by
  unfold xlateN at k
  dsimp only at k
  split at k
  · split at k
    · cases k
    · rename_i e
      simp only [Except.ok.injEq, Prod.mk.injEq] at k; rw [← k.2]; exact memOk_xlate h e
  · split at k
    · cases k
    · rename_i e
      split at k
      · cases k
      · rename_i e2
        simp only [Except.ok.injEq, Prod.mk.injEq] at k; rw [← k.2]; exact memOk_xlate (memOk_xlate h e) e2

/-- A read at its homes keeps it. -/
theorem State.memOk_homeLoad {s u : State} {t : Tid} {va n : Nat} {wr obj : Bool} {ls : List Loc} {bs : List Byte} (h : s.MemOk)
    (k : s.homeLoad t va n wr obj = .ok (ls, bs, u)) : u.MemOk := by
  unfold State.homeLoad at k
  dsimp only at k
  split at k
  · cases k
  · rename_i e
    split at k
    · cases k
    · simp only [Except.ok.injEq, Prod.mk.injEq] at k
      rw [← k.2.2]
      exact State.memOk_of_cells (State.refresh_cells _ _ _) (State.memOk_force _ _ (memOk_xlateN h e))

/-- An atomic keeps it. -/
theorem State.memOk_amo {s u : State} {t : Tid} {op : AmoOp} {w va v x old : Nat} (h : s.MemOk) (k : s.amo t op w va v x = .ok (old, u)) :
    u.MemOk := by
  unfold State.amo at k
  split at k
  · cases k
  · rename_i e
    simp only [Except.ok.injEq, Prod.mk.injEq] at k
    rw [← k.2]
    exact State.memOk_homeStore _ _ _ (State.memOk_homeLoad h e)

/-- A scalar load keeps it. -/
theorem State.memOk_scalarLoad {s u : State} {t : Tid} {va n : Nat} {bs : List Byte} (h : s.MemOk) (k : s.scalarLoad t va n = .ok (bs, u)) :
    u.MemOk := by
  unfold State.scalarLoad at k
  dsimp only at k
  split at k
  · cases k
  · rename_i v e
    have g := memOk_xlateN h e
    have g2 : ∀ (b : Bool) (keys : List Nat), State.MemOk (if b then v.force t keys else v) := by
      intro b keys; cases b
      · exact g
      · exact State.memOk_force _ _ g
    split at k
    · cases k
    · simp only [Except.ok.injEq, Prod.mk.injEq] at k
      rw [← k.2]
      refine memOk_foldl (fun s n h => State.memOk_of_cells (State.grantLease_cells _ _ _) h) _ ?_
      exact g2 _ _

/-- A scalar store keeps it. -/
theorem State.memOk_scalarStore {s u : State} {t : Tid} {va : Nat} {bs : List Byte} (h : s.MemOk) (k : s.scalarStore t va bs = .ok u) : u.MemOk := by
  unfold State.scalarStore at k
  dsimp only at k
  split at k
  · cases k
  · rename_i e
    simp only [Except.ok.injEq] at k
    have g := memOk_xlateN h e
    rw [← k]
    exact State.memOk_of_cells rfl g

/-- What a word comes to keeps it where its body does. -/
theorem State.memOk_conclude {s : State} (t : Tid) {r : CRes} (h : s.MemOk)
    (hr : match r with
      | .done u | .jump u _ | .stall u | .fault u _ | .ended u => u.MemOk) : (s.conclude t r).MemOk := by
  unfold State.conclude
  split
  · exact State.memOk_of_cells (by simp) hr
  · exact State.memOk_of_cells (by simp) hr
  · split
    · split
      · exact State.memOk_of_cells (by simp) hr
      · exact hr
    · exact hr
  · split
    · exact h
    · exact State.memOk_of_cells (by simp) hr
  · exact hr

/-- A control word keeps it where its body does. -/
theorem memOk_ctl {s u : State} {ahead vec : Bool} {body : Tid → Thread → State → CRes} (h : s.MemOk)
    (hb : ∀ t th (v : State), v.MemOk → match body t th v with
      | .done u | .jump u _ | .stall u | .fault u _ | .ended u => u.MemOk)
    (k : ctl ahead vec body s = .next u) : u.MemOk := by
  unfold ctl at k
  split at k
  · cases k
  · split at k
    · cases k
    · dsimp only at k
      have hp : s.popIssue.MemOk := h
      split at k
      · cases k; exact hp
      · split at k
        · cases k; exact State.memOk_of_cells (State.raise_cells _ _ _) hp
        · cases k; exact State.memOk_conclude _ hp (hb _ _ _ hp)

end Sys2Proof.Machine
end

