-- ==== Sys2Proof/Laws/Lanes.lean ====
section
/-! SUPPORT. Words of lane groups: the parity test of a word that meets no bad register word, and what reading an operand and writing a result leave
of the slices. -/

set_option Elab.async false

namespace Sys2Proof.Machine

/-- Slices without parity errors, before and after: the test finds none. -/
theorem LOp.checked_ok {op : LOp} {x : Bool} {v w : LV} (hp : v.sl.parity = []) (hop : op v = .ok w)
    (hw : w.sl.parity = []) : op.checked x v = .ok (w, []) := by
  simp only [LOp.checked, hop, LV.parity, LV.badReads, hp, bind, Except.bind, List.isEmpty_nil, if_true]
  simp [Slice.fixParity, hw]

/-- Reading a vector operand leaves the slices. -/
theorem LV.vec_sl {v u : LV} {r : Reg} {l : List Nat} {o : Opd} (h : v.vec r l = .ok (o, u)) :
    u.sl = v.sl ∧ o.imm = false ∧ o.tag = some (v.tagOf r) ∧ u.r = v.r := by
  simp only [LV.vec, bind, Except.bind] at h
  split at h
  · exact absurd h (by simp)
  · simp only [Except.ok.injEq, Prod.mk.injEq] at h
    obtain ⟨rfl, rfl⟩ := h
    exact ⟨rfl, rfl, rfl, rfl⟩

/-- Reading a source leaves the slices. -/
theorem LV.src_sl {v u : LV} {r : Src} {l : List Nat} {o : Opd} (h : v.src r l = .ok (o, u)) : u.sl = v.sl := by
  unfold LV.src at h
  split at h
  · exact (LV.vec_sl h).1
  all_goals try (simp only [Except.ok.injEq, Prod.mk.injEq] at h; obtain ⟨rfl, rfl⟩ := h; rfl)
  split at h
  · exact absurd h (by simp)
  · split at h <;> (simp only [Except.ok.injEq, Prod.mk.injEq] at h; obtain ⟨rfl, rfl⟩ := h; rfl)

/-- With nothing pending a view is settled. -/
theorem LV.settled_eq {v w : LV} (h : v.settled = .ok w) : w = v := by
  unfold LV.settled at h
  split at h
  · simpa using h.symm
  · exact absurd h (by simp)

/-- With no bad register word there is none to clear. -/
theorem Slice.unmark_parity {sl : Slice} (h : sl.parity = []) (w a t e : Nat) : (sl.unmark w a t e).parity = [] := by
  unfold Slice.unmark
  show List.foldl _ _ _ = _
  rw [h]
  generalize List.range (t / 8) = l
  induction l with
  | nil => rfl
  | cons p t ih => rw [List.foldl_cons]; exact ih

/-- Writing an element makes no register word bad. -/
theorem Slice.setElem_parity {sl : Slice} (h : sl.parity = []) (w a t e v : Nat) : (sl.setElem w a t e v).parity = [] := by
  refine Slice.unmark_parity ?_ w a t e
  unfold Slice.pokeElem
  show Slice.parity (List.foldl _ _ _) = _
  generalize (leBytes (t / 8) v).zipIdx = l
  induction l generalizing sl with
  | nil => exact h
  | cons p t ih => rw [List.foldl_cons]; exact ih h

/-- Nor does writing many. -/
theorem Slice.setElems_parity (w a t : Nat) (l : List (Nat × Nat)) {sl : Slice} (h : sl.parity = []) :
    (l.foldl (fun sl p => sl.setElem w a t p.1 p.2) sl).parity = [] := by
  induction l generalizing sl with
  | nil => exact h
  | cons p t ih => rw [List.foldl_cons]; exact ih (Slice.setElem_parity h _ _ _ _ _)

/-- Giving a tag leaves them. -/
theorem Slice.giveTag_parity (sl : Slice) (n : Nat) (T : Tag) : (sl.giveTag n T).parity = sl.parity := by
  unfold Slice.giveTag; split <;> rfl

/-- Giving tags leaves them. -/
theorem Slice.giveTags_parity (T : Tag) (l : List Nat) (sl : Slice) :
    (l.foldl (fun sl n => sl.giveTag n T) sl).parity = sl.parity := by
  induction l generalizing sl with
  | nil => rfl
  | cons p t ih => rw [List.foldl_cons, ih, Slice.giveTag_parity]

/-- Retagging leaves them. -/
theorem LV.retag_parity {v w : LV} {vd f : Nat} {T : Tag} (h : v.retag vd T f = .ok w) : w.sl.parity = v.sl.parity := by
  unfold LV.retag at h
  dsimp only at h
  split at h
  · simp only [Except.ok.injEq] at h; rw [h]
  · split at h
    · exact absurd h (by simp)
    · split at h
      · exact absurd h (by simp)
      · simp only [Except.ok.injEq] at h; subst h; exact Slice.giveTags_parity _ _ _

/-- Writing a result makes none. -/
theorem LV.put_parity {v w : LV} {vd : Reg} {T : Tag} {l : List (Nat × Nat)} (h : v.put vd T l = .ok w) (hp : v.sl.parity = []) :
    w.sl.parity = [] := by
  unfold LV.put LV.putAt at h
  split at h
  · rw [LV.settled_eq h]; exact hp
  · split at h
    · exact absurd h (by simp)
    · simp only [bind, Except.bind] at h
      split at h
      · exact absurd h (by simp)
      · rename_i u hu
        split at h
        · exact absurd h (by simp)
        · rename_i x hx
          simp only [Except.ok.injEq] at h
          subst h
          show Slice.parity (List.foldl _ _ _) = _
          exact Slice.setElems_parity _ _ _ _ (by rw [LV.settled_eq hx, LV.retag_parity hu]; exact hp)

end Sys2Proof.Machine
end

