-- ==== Sys2Proof/Laws/PerInstr.lean ====
section
/-! SUPPORT. Statements that hold of every instruction, one lemma a constructor. Family `RoundTrip`: the word the encoder gives a
well-formed instruction is one word, and the decoder reads the instruction back from it (R89 to R102). -/

set_option Elab.async false

namespace Sys2Proof.Laws

set_option linter.unusedSimpArgs false
set_option linter.unusedVariables false

/-- A number from its fields, least significant first: value and width. -/
def mkWord : List (Nat × Nat) → Nat
  | [] => 0
  | (v, n) :: t => v + 2 ^ n * mkWord t

/-- Every field fits its width. -/
def Fits : List (Nat × Nat) → Prop
  | [] => True
  | (v, n) :: t => v < 2 ^ n ∧ Fits t

/-- Where field `k` begins. -/
def fieldAt : List (Nat × Nat) → Nat → Nat
  | (_, n) :: t, k + 1 => n + fieldAt t k
  | _, _ => 0

/-- The width of field `k`. -/
def fieldLen : List (Nat × Nat) → Nat → Nat
  | (_, n) :: _, 0 => n
  | _ :: t, k + 1 => fieldLen t k
  | [], _ => 0

/-- The value of field `k`. -/
def fieldVal : List (Nat × Nat) → Nat → Nat
  | (v, _) :: _, 0 => v
  | _ :: t, k + 1 => fieldVal t k
  | [], _ => 0

/-- The bits of a field are its value. -/
theorem bits_mkWord (l : List (Nat × Nat)) (k : Nat) (h : Fits l) :
    bits (mkWord l) (fieldAt l k) (fieldLen l k) = fieldVal l k := by
  induction l generalizing k with
  | nil => cases k <;> simp [mkWord, fieldAt, fieldLen, fieldVal, bits, Nat.mod_one]
  | cons p t ih =>
    obtain ⟨v, n⟩ := p
    cases k with
    | zero => simp [mkWord, fieldAt, fieldLen, fieldVal, bits, Nat.add_mul_mod_self_left, Nat.mod_eq_of_lt h.1]
    | succ k =>
      have e : (v + 2 ^ n * mkWord t) / 2 ^ n = mkWord t := by
        rw [Nat.add_mul_div_left _ _ (by positivity), Nat.div_eq_of_lt h.1, Nat.zero_add]
      have := ih k h.2
      simp only [bits, mkWord, fieldAt, fieldLen, fieldVal] at this ⊢
      rw [pow_add, ← Nat.div_div_eq_div_mul, e, this]

/-- The bits at the place of a field. -/
theorem bits_field {l : List (Nat × Nat)} (f : Fits l) (k : Nat) {lo n v : Nat} (h1 : fieldAt l k = lo) (h2 : fieldLen l k = n)
    (h3 : fieldVal l k = v) : bits (mkWord l) lo n = v := by
  subst h1 h2 h3
  exact bits_mkWord l k f

/-- A number is below the power of the widths together. -/
theorem mkWord_lt (l : List (Nat × Nat)) (h : Fits l) : mkWord l < 2 ^ (l.map Prod.snd).sum := by
  induction l with
  | nil => simp [mkWord]
  | cons p t ih =>
    obtain ⟨v, n⟩ := p
    have h1 := h.1
    have h2 := ih h.2
    simp only [mkWord, List.map_cons, List.sum_cons, pow_add]
    calc v + 2 ^ n * mkWord t < 2 ^ n + 2 ^ n * mkWord t := by omega
      _ = 2 ^ n * (mkWord t + 1) := by ring
      _ ≤ 2 ^ n * 2 ^ (t.map Prod.snd).sum := Nat.mul_le_mul_left _ h2

theorem fin4_of {w lo : Nat} {d : Fin 4} (h : bits w lo 2 = d.val) : fin4 w lo = d := Fin.ext (by simp [fin4, h])
theorem fin8_of {w lo : Nat} {d : Fin 8} (h : bits w lo 3 = d.val) : fin8 w lo = d := Fin.ext (by simp [fin8, h])
theorem fin32_of {w lo : Nat} {d : Fin 32} (h : bits w lo 5 = d.val) : fin32 w lo = d := Fin.ext (by simp [fin32, h])
theorem bv_of {w lo n : Nat} {d : BitVec n} (h : bits w lo n = d.toNat) : BitVec.ofNat n (bits w lo n) = d := by rw [h]; simp
theorem bit_of {w lo : Nat} {d : Bool} (h : bits w lo 1 = d.toNat) : bit w lo = d := by
  simp only [bit, bits] at *; cases d <;> simp_all

/-- A well-formed instruction's word is below 2^32 and decodes to it (R89 to R102). -/
def RoundTrip.Statement (i : Instr) : Prop := i.wellFormed → ∀ w, encode i = some w → w < 2 ^ 32 ∧ decodeWord w = some i

/-- The round trip from the fields of a word. -/
theorem roundTrip_of {i : Instr} (l : List (Nat × Nat)) (w : Nat) (he : encode i = some w) (hw : w = mkWord l) (hf : Fits l)
    (hn : (l.map Prod.snd).sum = 32) (hd : i.wellFormed → decodeWord (mkWord l) = some i) : RoundTrip.Statement i := by
  intro hl v hv
  rw [he] at hv
  cases hv
  subst hw
  exact ⟨hn ▸ mkWord_lt l hf, hd hl⟩

/-- An event has no word. -/
theorem roundTrip_event {i : Instr} (he : encode i = none) : RoundTrip.Statement i := by
  intro _ v hv
  rw [he] at hv
  cases hv

theorem AmoOp_code (d : AmoOp) : AmoOp.ofCode d.code = some d := by cases d <;> rfl
theorem AmoOp_lt5 (d : AmoOp) : d.code < 2 ^ 5 := by cases d <;> decide
theorem AmoSel_lt5 (d : AmoSel) : d.code < 2 ^ 5 := by obtain ⟨o, b⟩ := d; cases o <;> cases b <;> decide
theorem Cls_code (d : Cls) : Cls.ofCode d.code = some d := by cases d <;> rfl
theorem Cls_lt2 (d : Cls) : d.code < 2 ^ 2 := by cases d <;> decide
theorem FlagNo_code (d : FlagNo) : FlagNo.ofCode d.code = some d := by simp [FlagNo.ofCode, FlagNo.code, d.isLt]
theorem FlagNo_lt5 (d : FlagNo) : d.code < 2 ^ 5 := by have := d.isLt; simp only [FlagNo.code]; omega
theorem Fmt_code (d : Fmt) : Fmt.ofCode d.code = some d := by cases d <;> rfl
theorem Fmt_lt5 (d : Fmt) : d.code < 2 ^ 5 := by cases d <;> decide
theorem Order_code (d : Order) : Order.ofCode d.code = some d := by cases d <;> rfl
theorem Order_lt2 (d : Order) : d.code < 2 ^ 2 := by cases d <;> decide
theorem Order_lt3 (d : Order) : d.code < 2 ^ 3 := by cases d <;> decide
theorem PfLvl_code (d : PfLvl) : PfLvl.ofCode d.code = some d := by cases d <;> rfl
theorem PfLvl_lt2 (d : PfLvl) : d.code < 2 ^ 2 := by cases d <;> decide
theorem PubCls_code (d : PubCls) : PubCls.ofCode d.code = some d := by cases d <;> rfl
theorem PubCls_lt2 (d : PubCls) : d.code < 2 ^ 2 := by cases d <;> decide
theorem Rm_code (d : Rm) : Rm.ofCode d.code = some d := by cases d <;> rfl
theorem Rm_lt5 (d : Rm) : d.code < 2 ^ 5 := by cases d <;> decide
theorem Scope_code (d : Scope) : Scope.ofCode d.code = some d := by cases d <;> rfl
theorem Scope_lt3 (d : Scope) : d.code < 2 ^ 3 := by cases d <;> decide
theorem Tag_code (d : Tag) : Tag.ofCode d.code = some d := by cases d <;> rfl
theorem Tag_lt4 (d : Tag) : d.code < 2 ^ 4 := by cases d <;> decide
theorem AmoSel_code (d : AmoSel) (h : (d.op != .fadd || d.word) = true) : AmoSel.ofCode d.code = some d := by
  obtain ⟨o, b⟩ := d
  cases o <;> cases b <;> simp_all <;> rfl
theorem Bool_lt1 (d : Bool) : d.toNat < 2 ^ 1 := by cases d <;> decide
theorem Src_kind_lt (s : Src) : s.kind < 2 ^ 2 := by cases s <;> simp [Src.kind]
theorem Src_field_lt (s : Src) : s.field < 2 ^ 5 := by
  cases s with
  | vec r => exact r.isLt
  | scal r => exact r.isLt
  | imm i => exact i.isLt
  | bank n => have := n.isLt; simp only [Src.field]; omega
  | stream n => have := n.isLt; simp only [Src.field]; omega
theorem Src_code (s : Src) : Src.ofBits s.kind s.field = some s := by
  cases s with
  | vec r => simp [Src.ofBits, Src.kind, Src.field]
  | scal r => simp [Src.ofBits, Src.kind, Src.field]
  | imm i => simp [Src.ofBits, Src.kind, Src.field]
  | bank n => simp [Src.ofBits, Src.kind, Src.field, n.isLt]
  | stream n =>
    have := n.isLt
    have h : n.val + 8 < 16 := by omega
    simp [Src.ofBits, Src.kind, Src.field, h]

theorem decodeWord_01 {w : Nat} (h : bits w 26 6 = 1) : decodeWord w = decodeOp01 w := by simp only [decodeWord, h]
theorem decodeWord_02 {w : Nat} (h : bits w 26 6 = 2) : decodeWord w = decodeOp02 w := by simp only [decodeWord, h]
theorem decodeWord_03 {w : Nat} (h : bits w 26 6 = 3) : decodeWord w = decodeOp03 w := by simp only [decodeWord, h]
theorem decodeWord_04 {w : Nat} (h : bits w 26 6 = 4) : decodeWord w = decodeOp04 w := by simp only [decodeWord, h]
theorem decodeWord_05 {w : Nat} (h : bits w 26 6 = 5) : decodeWord w = decodeOp05 w := by simp only [decodeWord, h]
theorem decodeWord_06 {w : Nat} (h : bits w 26 6 = 6) : decodeWord w = decodeOp06 w := by simp only [decodeWord, h]
theorem decodeWord_07 {w : Nat} (h : bits w 26 6 = 7) : decodeWord w = decodeOp07 w := by simp only [decodeWord, h]
theorem decodeWord_08 {w : Nat} (h : bits w 26 6 = 8) : decodeWord w = decodeOp08 w := by simp only [decodeWord, h]
theorem decodeWord_09 {w : Nat} (h : bits w 26 6 = 9) : decodeWord w = decodeOp09 w := by simp only [decodeWord, h]
theorem decodeWord_0A {w : Nat} (h : bits w 26 6 = 10) : decodeWord w = decodeOp0A w := by simp only [decodeWord, h]
theorem decodeWord_0B {w : Nat} (h : bits w 26 6 = 11) : decodeWord w = decodeOp0B w := by simp only [decodeWord, h]
theorem decodeWord_0C {w : Nat} (h : bits w 26 6 = 12) : decodeWord w = decodeOp0C w := by simp only [decodeWord, h]
theorem decodeWord_0D {w : Nat} (h : bits w 26 6 = 13) : decodeWord w = decodeOp0D w := by simp only [decodeWord, h]
theorem decodeWord_0E {w : Nat} (h : bits w 26 6 = 14) : decodeWord w = decodeOp0E w := by simp only [decodeWord, h]
theorem decodeWord_0F {w : Nat} (h : bits w 26 6 = 15) : decodeWord w = decodeOp0F w := by simp only [decodeWord, h]
theorem decodeWord_10 {w : Nat} (h : bits w 26 6 = 16) : decodeWord w = decodeOp10 w := by simp only [decodeWord, h]
theorem decodeWord_11 {w : Nat} (h : bits w 26 6 = 17) : decodeWord w = decodeOp11 w := by simp only [decodeWord, h]
theorem decodeWord_12 {w : Nat} (h : bits w 26 6 = 18) : decodeWord w = decodeOp12 w := by simp only [decodeWord, h]
theorem decodeWord_13 {w : Nat} (h : bits w 26 6 = 19) : decodeWord w = decodeOp13 w := by simp only [decodeWord, h]
theorem decodeWord_14 {w : Nat} (h : bits w 26 6 = 20) : decodeWord w = decodeOp14 w := by simp only [decodeWord, h]
theorem decodeWord_15 {w : Nat} (h : bits w 26 6 = 21) : decodeWord w = decodeOp15 w := by simp only [decodeWord, h]
theorem decodeWord_16 {w : Nat} (h : bits w 26 6 = 22) : decodeWord w = decodeOp16 w := by simp only [decodeWord, h]
theorem decodeWord_17 {w : Nat} (h : bits w 26 6 = 23) : decodeWord w = decodeOp17 w := by simp only [decodeWord, h]
theorem decodeWord_18 {w : Nat} (h : bits w 26 6 = 24) : decodeWord w = decodeOp18 w := by simp only [decodeWord, h]
theorem decodeWord_19 {w : Nat} (h : bits w 26 6 = 25) : decodeWord w = decodeOp19 w := by simp only [decodeWord, h]
theorem decodeWord_20 {w : Nat} (h : bits w 26 6 = 32) : decodeWord w = decodeOp20 w := by simp only [decodeWord, h]
theorem decodeWord_21 {w : Nat} (h : bits w 26 6 = 33) : decodeWord w = decodeOp21 w := by simp only [decodeWord, h]
theorem decodeWord_22 {w : Nat} (h : bits w 26 6 = 34) : decodeWord w = decodeOp22 w := by simp only [decodeWord, h]
theorem decodeWord_23 {w : Nat} (h : bits w 26 6 = 35) : decodeWord w = decodeOp23 w := by simp only [decodeWord, h]
theorem decodeWord_24 {w : Nat} (h : bits w 26 6 = 36) : decodeWord w = decodeOp24 w := by simp only [decodeWord, h]
theorem decodeWord_25 {w : Nat} (h : bits w 26 6 = 37) : decodeWord w = decodeOp25 w := by simp only [decodeWord, h]
theorem decodeWord_26 {w : Nat} (h : bits w 26 6 = 38) : decodeWord w = decodeOp26 w := by simp only [decodeWord, h]
theorem decodeWord_2C {w : Nat} (h : bits w 26 6 = 44) : decodeWord w = decodeOp2C w := by simp only [decodeWord, h]
theorem decodeWord_32 {w : Nat} (h : bits w 26 6 = 50) : decodeWord w = decodeOp32 w := by simp only [decodeWord, h]
theorem decodeWord_33 {w : Nat} (h : bits w 26 6 = 51) : decodeWord w = decodeOp33 w := by simp only [decodeWord, h]

theorem RoundTrip.add (d : Reg) (a : Reg) (b : Reg) : RoundTrip.Statement (.add d a b) := by
  have f : Fits [(0, 11), (b.val, 5), (a.val, 5), (d.val, 5), (1, 6)] := ⟨by decide, b.isLt, a.isLt, d.isLt, by decide, trivial⟩
  refine roundTrip_of [(0, 11), (b.val, 5), (a.val, 5), (d.val, 5), (1, 6)] _ rfl (by simp only [pack, mkWord]; omega) f rfl fun hl => ?_
  have h0 : bits _ 0 11 = 0 := bits_field f 0 rfl rfl rfl
  have h1 : bits _ 11 5 = b.val := bits_field f 1 rfl rfl rfl
  have h2 : bits _ 16 5 = a.val := bits_field f 2 rfl rfl rfl
  have h3 : bits _ 21 5 = d.val := bits_field f 3 rfl rfl rfl
  have h4 : bits _ 26 6 = 1 := bits_field f 4 rfl rfl rfl
  generalize mkWord _ = w at *
  rw [decodeWord_01 h4]
  simp only [decodeOp01, h0]
  simp only [fin32_of h1, fin32_of h2, fin32_of h3]
theorem RoundTrip.sub (d : Reg) (a : Reg) (b : Reg) : RoundTrip.Statement (.sub d a b) := by
  have f : Fits [(1, 11), (b.val, 5), (a.val, 5), (d.val, 5), (1, 6)] := ⟨by decide, b.isLt, a.isLt, d.isLt, by decide, trivial⟩
  refine roundTrip_of [(1, 11), (b.val, 5), (a.val, 5), (d.val, 5), (1, 6)] _ rfl (by simp only [pack, mkWord]; omega) f rfl fun hl => ?_
  have h0 : bits _ 0 11 = 1 := bits_field f 0 rfl rfl rfl
  have h1 : bits _ 11 5 = b.val := bits_field f 1 rfl rfl rfl
  have h2 : bits _ 16 5 = a.val := bits_field f 2 rfl rfl rfl
  have h3 : bits _ 21 5 = d.val := bits_field f 3 rfl rfl rfl
  have h4 : bits _ 26 6 = 1 := bits_field f 4 rfl rfl rfl
  generalize mkWord _ = w at *
  rw [decodeWord_01 h4]
  simp only [decodeOp01, h0]
  simp only [fin32_of h1, fin32_of h2, fin32_of h3]
theorem RoundTrip.and (d : Reg) (a : Reg) (b : Reg) : RoundTrip.Statement (.and d a b) := by
  have f : Fits [(2, 11), (b.val, 5), (a.val, 5), (d.val, 5), (1, 6)] := ⟨by decide, b.isLt, a.isLt, d.isLt, by decide, trivial⟩
  refine roundTrip_of [(2, 11), (b.val, 5), (a.val, 5), (d.val, 5), (1, 6)] _ rfl (by simp only [pack, mkWord]; omega) f rfl fun hl => ?_
  have h0 : bits _ 0 11 = 2 := bits_field f 0 rfl rfl rfl
  have h1 : bits _ 11 5 = b.val := bits_field f 1 rfl rfl rfl
  have h2 : bits _ 16 5 = a.val := bits_field f 2 rfl rfl rfl
  have h3 : bits _ 21 5 = d.val := bits_field f 3 rfl rfl rfl
  have h4 : bits _ 26 6 = 1 := bits_field f 4 rfl rfl rfl
  generalize mkWord _ = w at *
  rw [decodeWord_01 h4]
  simp only [decodeOp01, h0]
  simp only [fin32_of h1, fin32_of h2, fin32_of h3]
theorem RoundTrip.or (d : Reg) (a : Reg) (b : Reg) : RoundTrip.Statement (.or d a b) := by
  have f : Fits [(3, 11), (b.val, 5), (a.val, 5), (d.val, 5), (1, 6)] := ⟨by decide, b.isLt, a.isLt, d.isLt, by decide, trivial⟩
  refine roundTrip_of [(3, 11), (b.val, 5), (a.val, 5), (d.val, 5), (1, 6)] _ rfl (by simp only [pack, mkWord]; omega) f rfl fun hl => ?_
  have h0 : bits _ 0 11 = 3 := bits_field f 0 rfl rfl rfl
  have h1 : bits _ 11 5 = b.val := bits_field f 1 rfl rfl rfl
  have h2 : bits _ 16 5 = a.val := bits_field f 2 rfl rfl rfl
  have h3 : bits _ 21 5 = d.val := bits_field f 3 rfl rfl rfl
  have h4 : bits _ 26 6 = 1 := bits_field f 4 rfl rfl rfl
  generalize mkWord _ = w at *
  rw [decodeWord_01 h4]
  simp only [decodeOp01, h0]
  simp only [fin32_of h1, fin32_of h2, fin32_of h3]
theorem RoundTrip.xor (d : Reg) (a : Reg) (b : Reg) : RoundTrip.Statement (.xor d a b) := by
  have f : Fits [(4, 11), (b.val, 5), (a.val, 5), (d.val, 5), (1, 6)] := ⟨by decide, b.isLt, a.isLt, d.isLt, by decide, trivial⟩
  refine roundTrip_of [(4, 11), (b.val, 5), (a.val, 5), (d.val, 5), (1, 6)] _ rfl (by simp only [pack, mkWord]; omega) f rfl fun hl => ?_
  have h0 : bits _ 0 11 = 4 := bits_field f 0 rfl rfl rfl
  have h1 : bits _ 11 5 = b.val := bits_field f 1 rfl rfl rfl
  have h2 : bits _ 16 5 = a.val := bits_field f 2 rfl rfl rfl
  have h3 : bits _ 21 5 = d.val := bits_field f 3 rfl rfl rfl
  have h4 : bits _ 26 6 = 1 := bits_field f 4 rfl rfl rfl
  generalize mkWord _ = w at *
  rw [decodeWord_01 h4]
  simp only [decodeOp01, h0]
  simp only [fin32_of h1, fin32_of h2, fin32_of h3]
theorem RoundTrip.sll (d : Reg) (a : Reg) (b : Reg) : RoundTrip.Statement (.sll d a b) := by
  have f : Fits [(5, 11), (b.val, 5), (a.val, 5), (d.val, 5), (1, 6)] := ⟨by decide, b.isLt, a.isLt, d.isLt, by decide, trivial⟩
  refine roundTrip_of [(5, 11), (b.val, 5), (a.val, 5), (d.val, 5), (1, 6)] _ rfl (by simp only [pack, mkWord]; omega) f rfl fun hl => ?_
  have h0 : bits _ 0 11 = 5 := bits_field f 0 rfl rfl rfl
  have h1 : bits _ 11 5 = b.val := bits_field f 1 rfl rfl rfl
  have h2 : bits _ 16 5 = a.val := bits_field f 2 rfl rfl rfl
  have h3 : bits _ 21 5 = d.val := bits_field f 3 rfl rfl rfl
  have h4 : bits _ 26 6 = 1 := bits_field f 4 rfl rfl rfl
  generalize mkWord _ = w at *
  rw [decodeWord_01 h4]
  simp only [decodeOp01, h0]
  simp only [fin32_of h1, fin32_of h2, fin32_of h3]
theorem RoundTrip.srl (d : Reg) (a : Reg) (b : Reg) : RoundTrip.Statement (.srl d a b) := by
  have f : Fits [(6, 11), (b.val, 5), (a.val, 5), (d.val, 5), (1, 6)] := ⟨by decide, b.isLt, a.isLt, d.isLt, by decide, trivial⟩
  refine roundTrip_of [(6, 11), (b.val, 5), (a.val, 5), (d.val, 5), (1, 6)] _ rfl (by simp only [pack, mkWord]; omega) f rfl fun hl => ?_
  have h0 : bits _ 0 11 = 6 := bits_field f 0 rfl rfl rfl
  have h1 : bits _ 11 5 = b.val := bits_field f 1 rfl rfl rfl
  have h2 : bits _ 16 5 = a.val := bits_field f 2 rfl rfl rfl
  have h3 : bits _ 21 5 = d.val := bits_field f 3 rfl rfl rfl
  have h4 : bits _ 26 6 = 1 := bits_field f 4 rfl rfl rfl
  generalize mkWord _ = w at *
  rw [decodeWord_01 h4]
  simp only [decodeOp01, h0]
  simp only [fin32_of h1, fin32_of h2, fin32_of h3]
theorem RoundTrip.sra (d : Reg) (a : Reg) (b : Reg) : RoundTrip.Statement (.sra d a b) := by
  have f : Fits [(7, 11), (b.val, 5), (a.val, 5), (d.val, 5), (1, 6)] := ⟨by decide, b.isLt, a.isLt, d.isLt, by decide, trivial⟩
  refine roundTrip_of [(7, 11), (b.val, 5), (a.val, 5), (d.val, 5), (1, 6)] _ rfl (by simp only [pack, mkWord]; omega) f rfl fun hl => ?_
  have h0 : bits _ 0 11 = 7 := bits_field f 0 rfl rfl rfl
  have h1 : bits _ 11 5 = b.val := bits_field f 1 rfl rfl rfl
  have h2 : bits _ 16 5 = a.val := bits_field f 2 rfl rfl rfl
  have h3 : bits _ 21 5 = d.val := bits_field f 3 rfl rfl rfl
  have h4 : bits _ 26 6 = 1 := bits_field f 4 rfl rfl rfl
  generalize mkWord _ = w at *
  rw [decodeWord_01 h4]
  simp only [decodeOp01, h0]
  simp only [fin32_of h1, fin32_of h2, fin32_of h3]
theorem RoundTrip.mul (d : Reg) (a : Reg) (b : Reg) : RoundTrip.Statement (.mul d a b) := by
  have f : Fits [(8, 11), (b.val, 5), (a.val, 5), (d.val, 5), (1, 6)] := ⟨by decide, b.isLt, a.isLt, d.isLt, by decide, trivial⟩
  refine roundTrip_of [(8, 11), (b.val, 5), (a.val, 5), (d.val, 5), (1, 6)] _ rfl (by simp only [pack, mkWord]; omega) f rfl fun hl => ?_
  have h0 : bits _ 0 11 = 8 := bits_field f 0 rfl rfl rfl
  have h1 : bits _ 11 5 = b.val := bits_field f 1 rfl rfl rfl
  have h2 : bits _ 16 5 = a.val := bits_field f 2 rfl rfl rfl
  have h3 : bits _ 21 5 = d.val := bits_field f 3 rfl rfl rfl
  have h4 : bits _ 26 6 = 1 := bits_field f 4 rfl rfl rfl
  generalize mkWord _ = w at *
  rw [decodeWord_01 h4]
  simp only [decodeOp01, h0]
  simp only [fin32_of h1, fin32_of h2, fin32_of h3]
theorem RoundTrip.mulhS (d : Reg) (a : Reg) (b : Reg) : RoundTrip.Statement (.mulhS d a b) := by
  have f : Fits [(9, 11), (b.val, 5), (a.val, 5), (d.val, 5), (1, 6)] := ⟨by decide, b.isLt, a.isLt, d.isLt, by decide, trivial⟩
  refine roundTrip_of [(9, 11), (b.val, 5), (a.val, 5), (d.val, 5), (1, 6)] _ rfl (by simp only [pack, mkWord]; omega) f rfl fun hl => ?_
  have h0 : bits _ 0 11 = 9 := bits_field f 0 rfl rfl rfl
  have h1 : bits _ 11 5 = b.val := bits_field f 1 rfl rfl rfl
  have h2 : bits _ 16 5 = a.val := bits_field f 2 rfl rfl rfl
  have h3 : bits _ 21 5 = d.val := bits_field f 3 rfl rfl rfl
  have h4 : bits _ 26 6 = 1 := bits_field f 4 rfl rfl rfl
  generalize mkWord _ = w at *
  rw [decodeWord_01 h4]
  simp only [decodeOp01, h0]
  simp only [fin32_of h1, fin32_of h2, fin32_of h3]
theorem RoundTrip.mulhN (d : Reg) (a : Reg) (b : Reg) : RoundTrip.Statement (.mulhN d a b) := by
  have f : Fits [(10, 11), (b.val, 5), (a.val, 5), (d.val, 5), (1, 6)] := ⟨by decide, b.isLt, a.isLt, d.isLt, by decide, trivial⟩
  refine roundTrip_of [(10, 11), (b.val, 5), (a.val, 5), (d.val, 5), (1, 6)] _ rfl (by simp only [pack, mkWord]; omega) f rfl fun hl => ?_
  have h0 : bits _ 0 11 = 10 := bits_field f 0 rfl rfl rfl
  have h1 : bits _ 11 5 = b.val := bits_field f 1 rfl rfl rfl
  have h2 : bits _ 16 5 = a.val := bits_field f 2 rfl rfl rfl
  have h3 : bits _ 21 5 = d.val := bits_field f 3 rfl rfl rfl
  have h4 : bits _ 26 6 = 1 := bits_field f 4 rfl rfl rfl
  generalize mkWord _ = w at *
  rw [decodeWord_01 h4]
  simp only [decodeOp01, h0]
  simp only [fin32_of h1, fin32_of h2, fin32_of h3]
theorem RoundTrip.divS (d : Reg) (a : Reg) (b : Reg) : RoundTrip.Statement (.divS d a b) := by
  have f : Fits [(11, 11), (b.val, 5), (a.val, 5), (d.val, 5), (1, 6)] := ⟨by decide, b.isLt, a.isLt, d.isLt, by decide, trivial⟩
  refine roundTrip_of [(11, 11), (b.val, 5), (a.val, 5), (d.val, 5), (1, 6)] _ rfl (by simp only [pack, mkWord]; omega) f rfl fun hl => ?_
  have h0 : bits _ 0 11 = 11 := bits_field f 0 rfl rfl rfl
  have h1 : bits _ 11 5 = b.val := bits_field f 1 rfl rfl rfl
  have h2 : bits _ 16 5 = a.val := bits_field f 2 rfl rfl rfl
  have h3 : bits _ 21 5 = d.val := bits_field f 3 rfl rfl rfl
  have h4 : bits _ 26 6 = 1 := bits_field f 4 rfl rfl rfl
  generalize mkWord _ = w at *
  rw [decodeWord_01 h4]
  simp only [decodeOp01, h0]
  simp only [fin32_of h1, fin32_of h2, fin32_of h3]
theorem RoundTrip.divN (d : Reg) (a : Reg) (b : Reg) : RoundTrip.Statement (.divN d a b) := by
  have f : Fits [(12, 11), (b.val, 5), (a.val, 5), (d.val, 5), (1, 6)] := ⟨by decide, b.isLt, a.isLt, d.isLt, by decide, trivial⟩
  refine roundTrip_of [(12, 11), (b.val, 5), (a.val, 5), (d.val, 5), (1, 6)] _ rfl (by simp only [pack, mkWord]; omega) f rfl fun hl => ?_
  have h0 : bits _ 0 11 = 12 := bits_field f 0 rfl rfl rfl
  have h1 : bits _ 11 5 = b.val := bits_field f 1 rfl rfl rfl
  have h2 : bits _ 16 5 = a.val := bits_field f 2 rfl rfl rfl
  have h3 : bits _ 21 5 = d.val := bits_field f 3 rfl rfl rfl
  have h4 : bits _ 26 6 = 1 := bits_field f 4 rfl rfl rfl
  generalize mkWord _ = w at *
  rw [decodeWord_01 h4]
  simp only [decodeOp01, h0]
  simp only [fin32_of h1, fin32_of h2, fin32_of h3]
theorem RoundTrip.remS (d : Reg) (a : Reg) (b : Reg) : RoundTrip.Statement (.remS d a b) := by
  have f : Fits [(13, 11), (b.val, 5), (a.val, 5), (d.val, 5), (1, 6)] := ⟨by decide, b.isLt, a.isLt, d.isLt, by decide, trivial⟩
  refine roundTrip_of [(13, 11), (b.val, 5), (a.val, 5), (d.val, 5), (1, 6)] _ rfl (by simp only [pack, mkWord]; omega) f rfl fun hl => ?_
  have h0 : bits _ 0 11 = 13 := bits_field f 0 rfl rfl rfl
  have h1 : bits _ 11 5 = b.val := bits_field f 1 rfl rfl rfl
  have h2 : bits _ 16 5 = a.val := bits_field f 2 rfl rfl rfl
  have h3 : bits _ 21 5 = d.val := bits_field f 3 rfl rfl rfl
  have h4 : bits _ 26 6 = 1 := bits_field f 4 rfl rfl rfl
  generalize mkWord _ = w at *
  rw [decodeWord_01 h4]
  simp only [decodeOp01, h0]
  simp only [fin32_of h1, fin32_of h2, fin32_of h3]
theorem RoundTrip.remN (d : Reg) (a : Reg) (b : Reg) : RoundTrip.Statement (.remN d a b) := by
  have f : Fits [(14, 11), (b.val, 5), (a.val, 5), (d.val, 5), (1, 6)] := ⟨by decide, b.isLt, a.isLt, d.isLt, by decide, trivial⟩
  refine roundTrip_of [(14, 11), (b.val, 5), (a.val, 5), (d.val, 5), (1, 6)] _ rfl (by simp only [pack, mkWord]; omega) f rfl fun hl => ?_
  have h0 : bits _ 0 11 = 14 := bits_field f 0 rfl rfl rfl
  have h1 : bits _ 11 5 = b.val := bits_field f 1 rfl rfl rfl
  have h2 : bits _ 16 5 = a.val := bits_field f 2 rfl rfl rfl
  have h3 : bits _ 21 5 = d.val := bits_field f 3 rfl rfl rfl
  have h4 : bits _ 26 6 = 1 := bits_field f 4 rfl rfl rfl
  generalize mkWord _ = w at *
  rw [decodeWord_01 h4]
  simp only [decodeOp01, h0]
  simp only [fin32_of h1, fin32_of h2, fin32_of h3]
theorem RoundTrip.sltS (d : Reg) (a : Reg) (b : Reg) : RoundTrip.Statement (.sltS d a b) := by
  have f : Fits [(15, 11), (b.val, 5), (a.val, 5), (d.val, 5), (1, 6)] := ⟨by decide, b.isLt, a.isLt, d.isLt, by decide, trivial⟩
  refine roundTrip_of [(15, 11), (b.val, 5), (a.val, 5), (d.val, 5), (1, 6)] _ rfl (by simp only [pack, mkWord]; omega) f rfl fun hl => ?_
  have h0 : bits _ 0 11 = 15 := bits_field f 0 rfl rfl rfl
  have h1 : bits _ 11 5 = b.val := bits_field f 1 rfl rfl rfl
  have h2 : bits _ 16 5 = a.val := bits_field f 2 rfl rfl rfl
  have h3 : bits _ 21 5 = d.val := bits_field f 3 rfl rfl rfl
  have h4 : bits _ 26 6 = 1 := bits_field f 4 rfl rfl rfl
  generalize mkWord _ = w at *
  rw [decodeWord_01 h4]
  simp only [decodeOp01, h0]
  simp only [fin32_of h1, fin32_of h2, fin32_of h3]
theorem RoundTrip.sltN (d : Reg) (a : Reg) (b : Reg) : RoundTrip.Statement (.sltN d a b) := by
  have f : Fits [(16, 11), (b.val, 5), (a.val, 5), (d.val, 5), (1, 6)] := ⟨by decide, b.isLt, a.isLt, d.isLt, by decide, trivial⟩
  refine roundTrip_of [(16, 11), (b.val, 5), (a.val, 5), (d.val, 5), (1, 6)] _ rfl (by simp only [pack, mkWord]; omega) f rfl fun hl => ?_
  have h0 : bits _ 0 11 = 16 := bits_field f 0 rfl rfl rfl
  have h1 : bits _ 11 5 = b.val := bits_field f 1 rfl rfl rfl
  have h2 : bits _ 16 5 = a.val := bits_field f 2 rfl rfl rfl
  have h3 : bits _ 21 5 = d.val := bits_field f 3 rfl rfl rfl
  have h4 : bits _ 26 6 = 1 := bits_field f 4 rfl rfl rfl
  generalize mkWord _ = w at *
  rw [decodeWord_01 h4]
  simp only [decodeOp01, h0]
  simp only [fin32_of h1, fin32_of h2, fin32_of h3]
theorem RoundTrip.minS (d : Reg) (a : Reg) (b : Reg) : RoundTrip.Statement (.minS d a b) := by
  have f : Fits [(17, 11), (b.val, 5), (a.val, 5), (d.val, 5), (1, 6)] := ⟨by decide, b.isLt, a.isLt, d.isLt, by decide, trivial⟩
  refine roundTrip_of [(17, 11), (b.val, 5), (a.val, 5), (d.val, 5), (1, 6)] _ rfl (by simp only [pack, mkWord]; omega) f rfl fun hl => ?_
  have h0 : bits _ 0 11 = 17 := bits_field f 0 rfl rfl rfl
  have h1 : bits _ 11 5 = b.val := bits_field f 1 rfl rfl rfl
  have h2 : bits _ 16 5 = a.val := bits_field f 2 rfl rfl rfl
  have h3 : bits _ 21 5 = d.val := bits_field f 3 rfl rfl rfl
  have h4 : bits _ 26 6 = 1 := bits_field f 4 rfl rfl rfl
  generalize mkWord _ = w at *
  rw [decodeWord_01 h4]
  simp only [decodeOp01, h0]
  simp only [fin32_of h1, fin32_of h2, fin32_of h3]
theorem RoundTrip.minN (d : Reg) (a : Reg) (b : Reg) : RoundTrip.Statement (.minN d a b) := by
  have f : Fits [(18, 11), (b.val, 5), (a.val, 5), (d.val, 5), (1, 6)] := ⟨by decide, b.isLt, a.isLt, d.isLt, by decide, trivial⟩
  refine roundTrip_of [(18, 11), (b.val, 5), (a.val, 5), (d.val, 5), (1, 6)] _ rfl (by simp only [pack, mkWord]; omega) f rfl fun hl => ?_
  have h0 : bits _ 0 11 = 18 := bits_field f 0 rfl rfl rfl
  have h1 : bits _ 11 5 = b.val := bits_field f 1 rfl rfl rfl
  have h2 : bits _ 16 5 = a.val := bits_field f 2 rfl rfl rfl
  have h3 : bits _ 21 5 = d.val := bits_field f 3 rfl rfl rfl
  have h4 : bits _ 26 6 = 1 := bits_field f 4 rfl rfl rfl
  generalize mkWord _ = w at *
  rw [decodeWord_01 h4]
  simp only [decodeOp01, h0]
  simp only [fin32_of h1, fin32_of h2, fin32_of h3]
theorem RoundTrip.maxS (d : Reg) (a : Reg) (b : Reg) : RoundTrip.Statement (.maxS d a b) := by
  have f : Fits [(19, 11), (b.val, 5), (a.val, 5), (d.val, 5), (1, 6)] := ⟨by decide, b.isLt, a.isLt, d.isLt, by decide, trivial⟩
  refine roundTrip_of [(19, 11), (b.val, 5), (a.val, 5), (d.val, 5), (1, 6)] _ rfl (by simp only [pack, mkWord]; omega) f rfl fun hl => ?_
  have h0 : bits _ 0 11 = 19 := bits_field f 0 rfl rfl rfl
  have h1 : bits _ 11 5 = b.val := bits_field f 1 rfl rfl rfl
  have h2 : bits _ 16 5 = a.val := bits_field f 2 rfl rfl rfl
  have h3 : bits _ 21 5 = d.val := bits_field f 3 rfl rfl rfl
  have h4 : bits _ 26 6 = 1 := bits_field f 4 rfl rfl rfl
  generalize mkWord _ = w at *
  rw [decodeWord_01 h4]
  simp only [decodeOp01, h0]
  simp only [fin32_of h1, fin32_of h2, fin32_of h3]
theorem RoundTrip.maxN (d : Reg) (a : Reg) (b : Reg) : RoundTrip.Statement (.maxN d a b) := by
  have f : Fits [(20, 11), (b.val, 5), (a.val, 5), (d.val, 5), (1, 6)] := ⟨by decide, b.isLt, a.isLt, d.isLt, by decide, trivial⟩
  refine roundTrip_of [(20, 11), (b.val, 5), (a.val, 5), (d.val, 5), (1, 6)] _ rfl (by simp only [pack, mkWord]; omega) f rfl fun hl => ?_
  have h0 : bits _ 0 11 = 20 := bits_field f 0 rfl rfl rfl
  have h1 : bits _ 11 5 = b.val := bits_field f 1 rfl rfl rfl
  have h2 : bits _ 16 5 = a.val := bits_field f 2 rfl rfl rfl
  have h3 : bits _ 21 5 = d.val := bits_field f 3 rfl rfl rfl
  have h4 : bits _ 26 6 = 1 := bits_field f 4 rfl rfl rfl
  generalize mkWord _ = w at *
  rw [decodeWord_01 h4]
  simp only [decodeOp01, h0]
  simp only [fin32_of h1, fin32_of h2, fin32_of h3]
theorem RoundTrip.clz (d : Reg) (a : Reg) : RoundTrip.Statement (.clz d a) := by
  have f : Fits [(21, 11), (0, 5), (a.val, 5), (d.val, 5), (1, 6)] := ⟨by decide, by decide, a.isLt, d.isLt, by decide, trivial⟩
  refine roundTrip_of [(21, 11), (0, 5), (a.val, 5), (d.val, 5), (1, 6)] _ rfl (by simp only [pack, mkWord]; omega) f rfl fun hl => ?_
  have h0 : bits _ 0 11 = 21 := bits_field f 0 rfl rfl rfl
  have h1 : bits _ 11 5 = 0 := bits_field f 1 rfl rfl rfl
  have h2 : bits _ 16 5 = a.val := bits_field f 2 rfl rfl rfl
  have h3 : bits _ 21 5 = d.val := bits_field f 3 rfl rfl rfl
  have h4 : bits _ 26 6 = 1 := bits_field f 4 rfl rfl rfl
  generalize mkWord _ = w at *
  rw [decodeWord_01 h4]
  simp only [decodeOp01, h0, h1, and_self, if_true]
  simp only [fin32_of h2, fin32_of h3]
theorem RoundTrip.ctz (d : Reg) (a : Reg) : RoundTrip.Statement (.ctz d a) := by
  have f : Fits [(22, 11), (0, 5), (a.val, 5), (d.val, 5), (1, 6)] := ⟨by decide, by decide, a.isLt, d.isLt, by decide, trivial⟩
  refine roundTrip_of [(22, 11), (0, 5), (a.val, 5), (d.val, 5), (1, 6)] _ rfl (by simp only [pack, mkWord]; omega) f rfl fun hl => ?_
  have h0 : bits _ 0 11 = 22 := bits_field f 0 rfl rfl rfl
  have h1 : bits _ 11 5 = 0 := bits_field f 1 rfl rfl rfl
  have h2 : bits _ 16 5 = a.val := bits_field f 2 rfl rfl rfl
  have h3 : bits _ 21 5 = d.val := bits_field f 3 rfl rfl rfl
  have h4 : bits _ 26 6 = 1 := bits_field f 4 rfl rfl rfl
  generalize mkWord _ = w at *
  rw [decodeWord_01 h4]
  simp only [decodeOp01, h0, h1, and_self, if_true]
  simp only [fin32_of h2, fin32_of h3]
theorem RoundTrip.pop (d : Reg) (a : Reg) : RoundTrip.Statement (.pop d a) := by
  have f : Fits [(23, 11), (0, 5), (a.val, 5), (d.val, 5), (1, 6)] := ⟨by decide, by decide, a.isLt, d.isLt, by decide, trivial⟩
  refine roundTrip_of [(23, 11), (0, 5), (a.val, 5), (d.val, 5), (1, 6)] _ rfl (by simp only [pack, mkWord]; omega) f rfl fun hl => ?_
  have h0 : bits _ 0 11 = 23 := bits_field f 0 rfl rfl rfl
  have h1 : bits _ 11 5 = 0 := bits_field f 1 rfl rfl rfl
  have h2 : bits _ 16 5 = a.val := bits_field f 2 rfl rfl rfl
  have h3 : bits _ 21 5 = d.val := bits_field f 3 rfl rfl rfl
  have h4 : bits _ 26 6 = 1 := bits_field f 4 rfl rfl rfl
  generalize mkWord _ = w at *
  rw [decodeWord_01 h4]
  simp only [decodeOp01, h0, h1, and_self, if_true]
  simp only [fin32_of h2, fin32_of h3]
theorem RoundTrip.bswap (d : Reg) (a : Reg) : RoundTrip.Statement (.bswap d a) := by
  have f : Fits [(24, 11), (0, 5), (a.val, 5), (d.val, 5), (1, 6)] := ⟨by decide, by decide, a.isLt, d.isLt, by decide, trivial⟩
  refine roundTrip_of [(24, 11), (0, 5), (a.val, 5), (d.val, 5), (1, 6)] _ rfl (by simp only [pack, mkWord]; omega) f rfl fun hl => ?_
  have h0 : bits _ 0 11 = 24 := bits_field f 0 rfl rfl rfl
  have h1 : bits _ 11 5 = 0 := bits_field f 1 rfl rfl rfl
  have h2 : bits _ 16 5 = a.val := bits_field f 2 rfl rfl rfl
  have h3 : bits _ 21 5 = d.val := bits_field f 3 rfl rfl rfl
  have h4 : bits _ 26 6 = 1 := bits_field f 4 rfl rfl rfl
  generalize mkWord _ = w at *
  rw [decodeWord_01 h4]
  simp only [decodeOp01, h0, h1, and_self, if_true]
  simp only [fin32_of h2, fin32_of h3]
theorem RoundTrip.addi (d : Reg) (a : Reg) (imm : BitVec 16) : RoundTrip.Statement (.addi d a imm) := by
  have f : Fits [(imm.toNat, 16), (a.val, 5), (d.val, 5), (2, 6)] := ⟨imm.isLt, a.isLt, d.isLt, by decide, trivial⟩
  refine roundTrip_of [(imm.toNat, 16), (a.val, 5), (d.val, 5), (2, 6)] _ rfl (by simp only [pack, mkWord]; omega) f rfl fun hl => ?_
  have h0 : bits _ 0 16 = imm.toNat := bits_field f 0 rfl rfl rfl
  have h1 : bits _ 16 5 = a.val := bits_field f 1 rfl rfl rfl
  have h2 : bits _ 21 5 = d.val := bits_field f 2 rfl rfl rfl
  have h3 : bits _ 26 6 = 2 := bits_field f 3 rfl rfl rfl
  generalize mkWord _ = w at *
  rw [decodeWord_02 h3]
  simp only [decodeOp02]
  simp only [bv_of h0, fin32_of h1, fin32_of h2]
theorem RoundTrip.andi (d : Reg) (a : Reg) (imm : BitVec 16) : RoundTrip.Statement (.andi d a imm) := by
  have f : Fits [(imm.toNat, 16), (a.val, 5), (d.val, 5), (3, 6)] := ⟨imm.isLt, a.isLt, d.isLt, by decide, trivial⟩
  refine roundTrip_of [(imm.toNat, 16), (a.val, 5), (d.val, 5), (3, 6)] _ rfl (by simp only [pack, mkWord]; omega) f rfl fun hl => ?_
  have h0 : bits _ 0 16 = imm.toNat := bits_field f 0 rfl rfl rfl
  have h1 : bits _ 16 5 = a.val := bits_field f 1 rfl rfl rfl
  have h2 : bits _ 21 5 = d.val := bits_field f 2 rfl rfl rfl
  have h3 : bits _ 26 6 = 3 := bits_field f 3 rfl rfl rfl
  generalize mkWord _ = w at *
  rw [decodeWord_03 h3]
  simp only [decodeOp03]
  simp only [bv_of h0, fin32_of h1, fin32_of h2]
theorem RoundTrip.ori (d : Reg) (a : Reg) (imm : BitVec 16) : RoundTrip.Statement (.ori d a imm) := by
  have f : Fits [(imm.toNat, 16), (a.val, 5), (d.val, 5), (4, 6)] := ⟨imm.isLt, a.isLt, d.isLt, by decide, trivial⟩
  refine roundTrip_of [(imm.toNat, 16), (a.val, 5), (d.val, 5), (4, 6)] _ rfl (by simp only [pack, mkWord]; omega) f rfl fun hl => ?_
  have h0 : bits _ 0 16 = imm.toNat := bits_field f 0 rfl rfl rfl
  have h1 : bits _ 16 5 = a.val := bits_field f 1 rfl rfl rfl
  have h2 : bits _ 21 5 = d.val := bits_field f 2 rfl rfl rfl
  have h3 : bits _ 26 6 = 4 := bits_field f 3 rfl rfl rfl
  generalize mkWord _ = w at *
  rw [decodeWord_04 h3]
  simp only [decodeOp04]
  simp only [bv_of h0, fin32_of h1, fin32_of h2]
theorem RoundTrip.xori (d : Reg) (a : Reg) (imm : BitVec 16) : RoundTrip.Statement (.xori d a imm) := by
  have f : Fits [(imm.toNat, 16), (a.val, 5), (d.val, 5), (5, 6)] := ⟨imm.isLt, a.isLt, d.isLt, by decide, trivial⟩
  refine roundTrip_of [(imm.toNat, 16), (a.val, 5), (d.val, 5), (5, 6)] _ rfl (by simp only [pack, mkWord]; omega) f rfl fun hl => ?_
  have h0 : bits _ 0 16 = imm.toNat := bits_field f 0 rfl rfl rfl
  have h1 : bits _ 16 5 = a.val := bits_field f 1 rfl rfl rfl
  have h2 : bits _ 21 5 = d.val := bits_field f 2 rfl rfl rfl
  have h3 : bits _ 26 6 = 5 := bits_field f 3 rfl rfl rfl
  generalize mkWord _ = w at *
  rw [decodeWord_05 h3]
  simp only [decodeOp05]
  simp only [bv_of h0, fin32_of h1, fin32_of h2]
theorem RoundTrip.sltiS (d : Reg) (a : Reg) (imm : BitVec 16) : RoundTrip.Statement (.sltiS d a imm) := by
  have f : Fits [(imm.toNat, 16), (a.val, 5), (d.val, 5), (6, 6)] := ⟨imm.isLt, a.isLt, d.isLt, by decide, trivial⟩
  refine roundTrip_of [(imm.toNat, 16), (a.val, 5), (d.val, 5), (6, 6)] _ rfl (by simp only [pack, mkWord]; omega) f rfl fun hl => ?_
  have h0 : bits _ 0 16 = imm.toNat := bits_field f 0 rfl rfl rfl
  have h1 : bits _ 16 5 = a.val := bits_field f 1 rfl rfl rfl
  have h2 : bits _ 21 5 = d.val := bits_field f 2 rfl rfl rfl
  have h3 : bits _ 26 6 = 6 := bits_field f 3 rfl rfl rfl
  generalize mkWord _ = w at *
  rw [decodeWord_06 h3]
  simp only [decodeOp06]
  simp only [bv_of h0, fin32_of h1, fin32_of h2]
theorem RoundTrip.slli (d : Reg) (a : Reg) (n : BitVec 6) : RoundTrip.Statement (.slli d a n) := by
  have f : Fits [(n.toNat, 6), (0, 2), (0, 8), (a.val, 5), (d.val, 5), (7, 6)] := ⟨n.isLt, by decide, by decide, a.isLt, d.isLt, by decide, trivial⟩
  refine roundTrip_of [(n.toNat, 6), (0, 2), (0, 8), (a.val, 5), (d.val, 5), (7, 6)] _ rfl (by simp only [pack, mkWord]; omega) f rfl fun hl => ?_
  have h0 : bits _ 0 6 = n.toNat := bits_field f 0 rfl rfl rfl
  have h1 : bits _ 6 2 = 0 := bits_field f 1 rfl rfl rfl
  have h2 : bits _ 8 8 = 0 := bits_field f 2 rfl rfl rfl
  have h3 : bits _ 16 5 = a.val := bits_field f 3 rfl rfl rfl
  have h4 : bits _ 21 5 = d.val := bits_field f 4 rfl rfl rfl
  have h5 : bits _ 26 6 = 7 := bits_field f 5 rfl rfl rfl
  generalize mkWord _ = w at *
  rw [decodeWord_07 h5]
  simp only [decodeOp07, h1, h2, and_self, if_true]
  simp only [bv_of h0, fin32_of h3, fin32_of h4]
theorem RoundTrip.srli (d : Reg) (a : Reg) (n : BitVec 6) : RoundTrip.Statement (.srli d a n) := by
  have f : Fits [(n.toNat, 6), (1, 2), (0, 8), (a.val, 5), (d.val, 5), (7, 6)] := ⟨n.isLt, by decide, by decide, a.isLt, d.isLt, by decide, trivial⟩
  refine roundTrip_of [(n.toNat, 6), (1, 2), (0, 8), (a.val, 5), (d.val, 5), (7, 6)] _ rfl (by simp only [pack, mkWord]; omega) f rfl fun hl => ?_
  have h0 : bits _ 0 6 = n.toNat := bits_field f 0 rfl rfl rfl
  have h1 : bits _ 6 2 = 1 := bits_field f 1 rfl rfl rfl
  have h2 : bits _ 8 8 = 0 := bits_field f 2 rfl rfl rfl
  have h3 : bits _ 16 5 = a.val := bits_field f 3 rfl rfl rfl
  have h4 : bits _ 21 5 = d.val := bits_field f 4 rfl rfl rfl
  have h5 : bits _ 26 6 = 7 := bits_field f 5 rfl rfl rfl
  generalize mkWord _ = w at *
  rw [decodeWord_07 h5]
  simp only [decodeOp07, h1, h2, and_self, if_true]
  simp only [bv_of h0, fin32_of h3, fin32_of h4]
theorem RoundTrip.srai (d : Reg) (a : Reg) (n : BitVec 6) : RoundTrip.Statement (.srai d a n) := by
  have f : Fits [(n.toNat, 6), (2, 2), (0, 8), (a.val, 5), (d.val, 5), (7, 6)] := ⟨n.isLt, by decide, by decide, a.isLt, d.isLt, by decide, trivial⟩
  refine roundTrip_of [(n.toNat, 6), (2, 2), (0, 8), (a.val, 5), (d.val, 5), (7, 6)] _ rfl (by simp only [pack, mkWord]; omega) f rfl fun hl => ?_
  have h0 : bits _ 0 6 = n.toNat := bits_field f 0 rfl rfl rfl
  have h1 : bits _ 6 2 = 2 := bits_field f 1 rfl rfl rfl
  have h2 : bits _ 8 8 = 0 := bits_field f 2 rfl rfl rfl
  have h3 : bits _ 16 5 = a.val := bits_field f 3 rfl rfl rfl
  have h4 : bits _ 21 5 = d.val := bits_field f 4 rfl rfl rfl
  have h5 : bits _ 26 6 = 7 := bits_field f 5 rfl rfl rfl
  generalize mkWord _ = w at *
  rw [decodeWord_07 h5]
  simp only [decodeOp07, h1, h2, and_self, if_true]
  simp only [bv_of h0, fin32_of h3, fin32_of h4]
theorem RoundTrip.lui (d : Reg) (disp : BitVec 21) : RoundTrip.Statement (.lui d disp) := by
  have f : Fits [(disp.toNat, 21), (d.val, 5), (8, 6)] := ⟨disp.isLt, d.isLt, by decide, trivial⟩
  refine roundTrip_of [(disp.toNat, 21), (d.val, 5), (8, 6)] _ rfl (by simp only [pack, mkWord]; omega) f rfl fun hl => ?_
  have h0 : bits _ 0 21 = disp.toNat := bits_field f 0 rfl rfl rfl
  have h1 : bits _ 21 5 = d.val := bits_field f 1 rfl rfl rfl
  have h2 : bits _ 26 6 = 8 := bits_field f 2 rfl rfl rfl
  generalize mkWord _ = w at *
  rw [decodeWord_08 h2]
  simp only [decodeOp08]
  simp only [bv_of h0, fin32_of h1]
theorem RoundTrip.addpc (d : Reg) (disp : BitVec 21) : RoundTrip.Statement (.addpc d disp) := by
  have f : Fits [(disp.toNat, 21), (d.val, 5), (9, 6)] := ⟨disp.isLt, d.isLt, by decide, trivial⟩
  refine roundTrip_of [(disp.toNat, 21), (d.val, 5), (9, 6)] _ rfl (by simp only [pack, mkWord]; omega) f rfl fun hl => ?_
  have h0 : bits _ 0 21 = disp.toNat := bits_field f 0 rfl rfl rfl
  have h1 : bits _ 21 5 = d.val := bits_field f 1 rfl rfl rfl
  have h2 : bits _ 26 6 = 9 := bits_field f 2 rfl rfl rfl
  generalize mkWord _ = w at *
  rw [decodeWord_09 h2]
  simp only [decodeOp09]
  simp only [bv_of h0, fin32_of h1]
theorem RoundTrip.beq (a : Reg) (b : Reg) (disp : BitVec 13) : RoundTrip.Statement (.beq a b disp) := by
  have f : Fits [(disp.toNat, 13), (0, 3), (b.val, 5), (a.val, 5), (10, 6)] := ⟨disp.isLt, by decide, b.isLt, a.isLt, by decide, trivial⟩
  refine roundTrip_of [(disp.toNat, 13), (0, 3), (b.val, 5), (a.val, 5), (10, 6)] _ rfl (by simp only [pack, mkWord]; omega) f rfl fun hl => ?_
  have h0 : bits _ 0 13 = disp.toNat := bits_field f 0 rfl rfl rfl
  have h1 : bits _ 13 3 = 0 := bits_field f 1 rfl rfl rfl
  have h2 : bits _ 16 5 = b.val := bits_field f 2 rfl rfl rfl
  have h3 : bits _ 21 5 = a.val := bits_field f 3 rfl rfl rfl
  have h4 : bits _ 26 6 = 10 := bits_field f 4 rfl rfl rfl
  generalize mkWord _ = w at *
  rw [decodeWord_0A h4]
  simp only [decodeOp0A, h1]
  simp only [bv_of h0, fin32_of h2, fin32_of h3]
theorem RoundTrip.bne (a : Reg) (b : Reg) (disp : BitVec 13) : RoundTrip.Statement (.bne a b disp) := by
  have f : Fits [(disp.toNat, 13), (1, 3), (b.val, 5), (a.val, 5), (10, 6)] := ⟨disp.isLt, by decide, b.isLt, a.isLt, by decide, trivial⟩
  refine roundTrip_of [(disp.toNat, 13), (1, 3), (b.val, 5), (a.val, 5), (10, 6)] _ rfl (by simp only [pack, mkWord]; omega) f rfl fun hl => ?_
  have h0 : bits _ 0 13 = disp.toNat := bits_field f 0 rfl rfl rfl
  have h1 : bits _ 13 3 = 1 := bits_field f 1 rfl rfl rfl
  have h2 : bits _ 16 5 = b.val := bits_field f 2 rfl rfl rfl
  have h3 : bits _ 21 5 = a.val := bits_field f 3 rfl rfl rfl
  have h4 : bits _ 26 6 = 10 := bits_field f 4 rfl rfl rfl
  generalize mkWord _ = w at *
  rw [decodeWord_0A h4]
  simp only [decodeOp0A, h1]
  simp only [bv_of h0, fin32_of h2, fin32_of h3]
theorem RoundTrip.bltS (a : Reg) (b : Reg) (disp : BitVec 13) : RoundTrip.Statement (.bltS a b disp) := by
  have f : Fits [(disp.toNat, 13), (2, 3), (b.val, 5), (a.val, 5), (10, 6)] := ⟨disp.isLt, by decide, b.isLt, a.isLt, by decide, trivial⟩
  refine roundTrip_of [(disp.toNat, 13), (2, 3), (b.val, 5), (a.val, 5), (10, 6)] _ rfl (by simp only [pack, mkWord]; omega) f rfl fun hl => ?_
  have h0 : bits _ 0 13 = disp.toNat := bits_field f 0 rfl rfl rfl
  have h1 : bits _ 13 3 = 2 := bits_field f 1 rfl rfl rfl
  have h2 : bits _ 16 5 = b.val := bits_field f 2 rfl rfl rfl
  have h3 : bits _ 21 5 = a.val := bits_field f 3 rfl rfl rfl
  have h4 : bits _ 26 6 = 10 := bits_field f 4 rfl rfl rfl
  generalize mkWord _ = w at *
  rw [decodeWord_0A h4]
  simp only [decodeOp0A, h1]
  simp only [bv_of h0, fin32_of h2, fin32_of h3]
theorem RoundTrip.bgeS (a : Reg) (b : Reg) (disp : BitVec 13) : RoundTrip.Statement (.bgeS a b disp) := by
  have f : Fits [(disp.toNat, 13), (3, 3), (b.val, 5), (a.val, 5), (10, 6)] := ⟨disp.isLt, by decide, b.isLt, a.isLt, by decide, trivial⟩
  refine roundTrip_of [(disp.toNat, 13), (3, 3), (b.val, 5), (a.val, 5), (10, 6)] _ rfl (by simp only [pack, mkWord]; omega) f rfl fun hl => ?_
  have h0 : bits _ 0 13 = disp.toNat := bits_field f 0 rfl rfl rfl
  have h1 : bits _ 13 3 = 3 := bits_field f 1 rfl rfl rfl
  have h2 : bits _ 16 5 = b.val := bits_field f 2 rfl rfl rfl
  have h3 : bits _ 21 5 = a.val := bits_field f 3 rfl rfl rfl
  have h4 : bits _ 26 6 = 10 := bits_field f 4 rfl rfl rfl
  generalize mkWord _ = w at *
  rw [decodeWord_0A h4]
  simp only [decodeOp0A, h1]
  simp only [bv_of h0, fin32_of h2, fin32_of h3]
theorem RoundTrip.bltN (a : Reg) (b : Reg) (disp : BitVec 13) : RoundTrip.Statement (.bltN a b disp) := by
  have f : Fits [(disp.toNat, 13), (4, 3), (b.val, 5), (a.val, 5), (10, 6)] := ⟨disp.isLt, by decide, b.isLt, a.isLt, by decide, trivial⟩
  refine roundTrip_of [(disp.toNat, 13), (4, 3), (b.val, 5), (a.val, 5), (10, 6)] _ rfl (by simp only [pack, mkWord]; omega) f rfl fun hl => ?_
  have h0 : bits _ 0 13 = disp.toNat := bits_field f 0 rfl rfl rfl
  have h1 : bits _ 13 3 = 4 := bits_field f 1 rfl rfl rfl
  have h2 : bits _ 16 5 = b.val := bits_field f 2 rfl rfl rfl
  have h3 : bits _ 21 5 = a.val := bits_field f 3 rfl rfl rfl
  have h4 : bits _ 26 6 = 10 := bits_field f 4 rfl rfl rfl
  generalize mkWord _ = w at *
  rw [decodeWord_0A h4]
  simp only [decodeOp0A, h1]
  simp only [bv_of h0, fin32_of h2, fin32_of h3]
theorem RoundTrip.bgeN (a : Reg) (b : Reg) (disp : BitVec 13) : RoundTrip.Statement (.bgeN a b disp) := by
  have f : Fits [(disp.toNat, 13), (5, 3), (b.val, 5), (a.val, 5), (10, 6)] := ⟨disp.isLt, by decide, b.isLt, a.isLt, by decide, trivial⟩
  refine roundTrip_of [(disp.toNat, 13), (5, 3), (b.val, 5), (a.val, 5), (10, 6)] _ rfl (by simp only [pack, mkWord]; omega) f rfl fun hl => ?_
  have h0 : bits _ 0 13 = disp.toNat := bits_field f 0 rfl rfl rfl
  have h1 : bits _ 13 3 = 5 := bits_field f 1 rfl rfl rfl
  have h2 : bits _ 16 5 = b.val := bits_field f 2 rfl rfl rfl
  have h3 : bits _ 21 5 = a.val := bits_field f 3 rfl rfl rfl
  have h4 : bits _ 26 6 = 10 := bits_field f 4 rfl rfl rfl
  generalize mkWord _ = w at *
  rw [decodeWord_0A h4]
  simp only [decodeOp0A, h1]
  simp only [bv_of h0, fin32_of h2, fin32_of h3]
theorem RoundTrip.jal (d : Reg) (disp : BitVec 21) : RoundTrip.Statement (.jal d disp) := by
  have f : Fits [(disp.toNat, 21), (d.val, 5), (11, 6)] := ⟨disp.isLt, d.isLt, by decide, trivial⟩
  refine roundTrip_of [(disp.toNat, 21), (d.val, 5), (11, 6)] _ rfl (by simp only [pack, mkWord]; omega) f rfl fun hl => ?_
  have h0 : bits _ 0 21 = disp.toNat := bits_field f 0 rfl rfl rfl
  have h1 : bits _ 21 5 = d.val := bits_field f 1 rfl rfl rfl
  have h2 : bits _ 26 6 = 11 := bits_field f 2 rfl rfl rfl
  generalize mkWord _ = w at *
  rw [decodeWord_0B h2]
  simp only [decodeOp0B]
  simp only [bv_of h0, fin32_of h1]
theorem RoundTrip.jalr (d : Reg) (a : Reg) (imm : BitVec 16) : RoundTrip.Statement (.jalr d a imm) := by
  have f : Fits [(imm.toNat, 16), (a.val, 5), (d.val, 5), (12, 6)] := ⟨imm.isLt, a.isLt, d.isLt, by decide, trivial⟩
  refine roundTrip_of [(imm.toNat, 16), (a.val, 5), (d.val, 5), (12, 6)] _ rfl (by simp only [pack, mkWord]; omega) f rfl fun hl => ?_
  have h0 : bits _ 0 16 = imm.toNat := bits_field f 0 rfl rfl rfl
  have h1 : bits _ 16 5 = a.val := bits_field f 1 rfl rfl rfl
  have h2 : bits _ 21 5 = d.val := bits_field f 2 rfl rfl rfl
  have h3 : bits _ 26 6 = 12 := bits_field f 3 rfl rfl rfl
  generalize mkWord _ = w at *
  rw [decodeWord_0C h3]
  simp only [decodeOp0C]
  simp only [bv_of h0, fin32_of h1, fin32_of h2]
theorem RoundTrip.csrr (d : Reg) (csr : BitVec 14) : RoundTrip.Statement (.csrr d csr) := by
  have f : Fits [(csr.toNat, 14), (0, 2), (0, 5), (d.val, 5), (13, 6)] := ⟨csr.isLt, by decide, by decide, d.isLt, by decide, trivial⟩
  refine roundTrip_of [(csr.toNat, 14), (0, 2), (0, 5), (d.val, 5), (13, 6)] _ rfl (by simp only [pack, mkWord]; omega) f rfl fun hl => ?_
  have h0 : bits _ 0 14 = csr.toNat := bits_field f 0 rfl rfl rfl
  have h1 : bits _ 14 2 = 0 := bits_field f 1 rfl rfl rfl
  have h2 : bits _ 16 5 = 0 := bits_field f 2 rfl rfl rfl
  have h3 : bits _ 21 5 = d.val := bits_field f 3 rfl rfl rfl
  have h4 : bits _ 26 6 = 13 := bits_field f 4 rfl rfl rfl
  generalize mkWord _ = w at *
  rw [decodeWord_0D h4]
  simp only [decodeOp0D, h1, h2, and_self, if_true]
  simp only [bv_of h0, fin32_of h3]
theorem RoundTrip.csrw (csr : BitVec 14) (a : Reg) : RoundTrip.Statement (.csrw csr a) := by
  have f : Fits [(csr.toNat, 14), (1, 2), (a.val, 5), (0, 5), (13, 6)] := ⟨csr.isLt, by decide, a.isLt, by decide, by decide, trivial⟩
  refine roundTrip_of [(csr.toNat, 14), (1, 2), (a.val, 5), (0, 5), (13, 6)] _ rfl (by simp only [pack, mkWord]; omega) f rfl fun hl => ?_
  have h0 : bits _ 0 14 = csr.toNat := bits_field f 0 rfl rfl rfl
  have h1 : bits _ 14 2 = 1 := bits_field f 1 rfl rfl rfl
  have h2 : bits _ 16 5 = a.val := bits_field f 2 rfl rfl rfl
  have h3 : bits _ 21 5 = 0 := bits_field f 3 rfl rfl rfl
  have h4 : bits _ 26 6 = 13 := bits_field f 4 rfl rfl rfl
  generalize mkWord _ = w at *
  rw [decodeWord_0D h4]
  simp only [decodeOp0D, h1, h3, and_self, if_true]
  simp only [bv_of h0, fin32_of h2]
theorem RoundTrip.csrs (csr : BitVec 14) (a : Reg) : RoundTrip.Statement (.csrs csr a) := by
  have f : Fits [(csr.toNat, 14), (2, 2), (a.val, 5), (0, 5), (13, 6)] := ⟨csr.isLt, by decide, a.isLt, by decide, by decide, trivial⟩
  refine roundTrip_of [(csr.toNat, 14), (2, 2), (a.val, 5), (0, 5), (13, 6)] _ rfl (by simp only [pack, mkWord]; omega) f rfl fun hl => ?_
  have h0 : bits _ 0 14 = csr.toNat := bits_field f 0 rfl rfl rfl
  have h1 : bits _ 14 2 = 2 := bits_field f 1 rfl rfl rfl
  have h2 : bits _ 16 5 = a.val := bits_field f 2 rfl rfl rfl
  have h3 : bits _ 21 5 = 0 := bits_field f 3 rfl rfl rfl
  have h4 : bits _ 26 6 = 13 := bits_field f 4 rfl rfl rfl
  generalize mkWord _ = w at *
  rw [decodeWord_0D h4]
  simp only [decodeOp0D, h1, h3, and_self, if_true]
  simp only [bv_of h0, fin32_of h2]
theorem RoundTrip.csrc (csr : BitVec 14) (a : Reg) : RoundTrip.Statement (.csrc csr a) := by
  have f : Fits [(csr.toNat, 14), (3, 2), (a.val, 5), (0, 5), (13, 6)] := ⟨csr.isLt, by decide, a.isLt, by decide, by decide, trivial⟩
  refine roundTrip_of [(csr.toNat, 14), (3, 2), (a.val, 5), (0, 5), (13, 6)] _ rfl (by simp only [pack, mkWord]; omega) f rfl fun hl => ?_
  have h0 : bits _ 0 14 = csr.toNat := bits_field f 0 rfl rfl rfl
  have h1 : bits _ 14 2 = 3 := bits_field f 1 rfl rfl rfl
  have h2 : bits _ 16 5 = a.val := bits_field f 2 rfl rfl rfl
  have h3 : bits _ 21 5 = 0 := bits_field f 3 rfl rfl rfl
  have h4 : bits _ 26 6 = 13 := bits_field f 4 rfl rfl rfl
  generalize mkWord _ = w at *
  rw [decodeWord_0D h4]
  simp only [decodeOp0D, h1, h3, and_self, if_true]
  simp only [bv_of h0, fin32_of h2]
theorem RoundTrip.ldBs (d : Reg) (a : Reg) (disp : BitVec 13) : RoundTrip.Statement (.ldBs d a disp) := by
  have f : Fits [(disp.toNat, 13), (0, 3), (a.val, 5), (d.val, 5), (15, 6)] := ⟨disp.isLt, by decide, a.isLt, d.isLt, by decide, trivial⟩
  refine roundTrip_of [(disp.toNat, 13), (0, 3), (a.val, 5), (d.val, 5), (15, 6)] _ rfl (by simp only [pack, mkWord]; omega) f rfl fun hl => ?_
  have h0 : bits _ 0 13 = disp.toNat := bits_field f 0 rfl rfl rfl
  have h1 : bits _ 13 3 = 0 := bits_field f 1 rfl rfl rfl
  have h2 : bits _ 16 5 = a.val := bits_field f 2 rfl rfl rfl
  have h3 : bits _ 21 5 = d.val := bits_field f 3 rfl rfl rfl
  have h4 : bits _ 26 6 = 15 := bits_field f 4 rfl rfl rfl
  generalize mkWord _ = w at *
  rw [decodeWord_0F h4]
  simp only [decodeOp0F, h1]
  simp only [bv_of h0, fin32_of h2, fin32_of h3]
theorem RoundTrip.ldBn (d : Reg) (a : Reg) (disp : BitVec 13) : RoundTrip.Statement (.ldBn d a disp) := by
  have f : Fits [(disp.toNat, 13), (1, 3), (a.val, 5), (d.val, 5), (15, 6)] := ⟨disp.isLt, by decide, a.isLt, d.isLt, by decide, trivial⟩
  refine roundTrip_of [(disp.toNat, 13), (1, 3), (a.val, 5), (d.val, 5), (15, 6)] _ rfl (by simp only [pack, mkWord]; omega) f rfl fun hl => ?_
  have h0 : bits _ 0 13 = disp.toNat := bits_field f 0 rfl rfl rfl
  have h1 : bits _ 13 3 = 1 := bits_field f 1 rfl rfl rfl
  have h2 : bits _ 16 5 = a.val := bits_field f 2 rfl rfl rfl
  have h3 : bits _ 21 5 = d.val := bits_field f 3 rfl rfl rfl
  have h4 : bits _ 26 6 = 15 := bits_field f 4 rfl rfl rfl
  generalize mkWord _ = w at *
  rw [decodeWord_0F h4]
  simp only [decodeOp0F, h1]
  simp only [bv_of h0, fin32_of h2, fin32_of h3]
theorem RoundTrip.ldHs (d : Reg) (a : Reg) (disp : BitVec 13) : RoundTrip.Statement (.ldHs d a disp) := by
  have f : Fits [(disp.toNat, 13), (2, 3), (a.val, 5), (d.val, 5), (15, 6)] := ⟨disp.isLt, by decide, a.isLt, d.isLt, by decide, trivial⟩
  refine roundTrip_of [(disp.toNat, 13), (2, 3), (a.val, 5), (d.val, 5), (15, 6)] _ rfl (by simp only [pack, mkWord]; omega) f rfl fun hl => ?_
  have h0 : bits _ 0 13 = disp.toNat := bits_field f 0 rfl rfl rfl
  have h1 : bits _ 13 3 = 2 := bits_field f 1 rfl rfl rfl
  have h2 : bits _ 16 5 = a.val := bits_field f 2 rfl rfl rfl
  have h3 : bits _ 21 5 = d.val := bits_field f 3 rfl rfl rfl
  have h4 : bits _ 26 6 = 15 := bits_field f 4 rfl rfl rfl
  generalize mkWord _ = w at *
  rw [decodeWord_0F h4]
  simp only [decodeOp0F, h1]
  simp only [bv_of h0, fin32_of h2, fin32_of h3]
theorem RoundTrip.ldHn (d : Reg) (a : Reg) (disp : BitVec 13) : RoundTrip.Statement (.ldHn d a disp) := by
  have f : Fits [(disp.toNat, 13), (3, 3), (a.val, 5), (d.val, 5), (15, 6)] := ⟨disp.isLt, by decide, a.isLt, d.isLt, by decide, trivial⟩
  refine roundTrip_of [(disp.toNat, 13), (3, 3), (a.val, 5), (d.val, 5), (15, 6)] _ rfl (by simp only [pack, mkWord]; omega) f rfl fun hl => ?_
  have h0 : bits _ 0 13 = disp.toNat := bits_field f 0 rfl rfl rfl
  have h1 : bits _ 13 3 = 3 := bits_field f 1 rfl rfl rfl
  have h2 : bits _ 16 5 = a.val := bits_field f 2 rfl rfl rfl
  have h3 : bits _ 21 5 = d.val := bits_field f 3 rfl rfl rfl
  have h4 : bits _ 26 6 = 15 := bits_field f 4 rfl rfl rfl
  generalize mkWord _ = w at *
  rw [decodeWord_0F h4]
  simp only [decodeOp0F, h1]
  simp only [bv_of h0, fin32_of h2, fin32_of h3]
theorem RoundTrip.ldWs (d : Reg) (a : Reg) (disp : BitVec 13) : RoundTrip.Statement (.ldWs d a disp) := by
  have f : Fits [(disp.toNat, 13), (4, 3), (a.val, 5), (d.val, 5), (15, 6)] := ⟨disp.isLt, by decide, a.isLt, d.isLt, by decide, trivial⟩
  refine roundTrip_of [(disp.toNat, 13), (4, 3), (a.val, 5), (d.val, 5), (15, 6)] _ rfl (by simp only [pack, mkWord]; omega) f rfl fun hl => ?_
  have h0 : bits _ 0 13 = disp.toNat := bits_field f 0 rfl rfl rfl
  have h1 : bits _ 13 3 = 4 := bits_field f 1 rfl rfl rfl
  have h2 : bits _ 16 5 = a.val := bits_field f 2 rfl rfl rfl
  have h3 : bits _ 21 5 = d.val := bits_field f 3 rfl rfl rfl
  have h4 : bits _ 26 6 = 15 := bits_field f 4 rfl rfl rfl
  generalize mkWord _ = w at *
  rw [decodeWord_0F h4]
  simp only [decodeOp0F, h1]
  simp only [bv_of h0, fin32_of h2, fin32_of h3]
theorem RoundTrip.ldWn (d : Reg) (a : Reg) (disp : BitVec 13) : RoundTrip.Statement (.ldWn d a disp) := by
  have f : Fits [(disp.toNat, 13), (5, 3), (a.val, 5), (d.val, 5), (15, 6)] := ⟨disp.isLt, by decide, a.isLt, d.isLt, by decide, trivial⟩
  refine roundTrip_of [(disp.toNat, 13), (5, 3), (a.val, 5), (d.val, 5), (15, 6)] _ rfl (by simp only [pack, mkWord]; omega) f rfl fun hl => ?_
  have h0 : bits _ 0 13 = disp.toNat := bits_field f 0 rfl rfl rfl
  have h1 : bits _ 13 3 = 5 := bits_field f 1 rfl rfl rfl
  have h2 : bits _ 16 5 = a.val := bits_field f 2 rfl rfl rfl
  have h3 : bits _ 21 5 = d.val := bits_field f 3 rfl rfl rfl
  have h4 : bits _ 26 6 = 15 := bits_field f 4 rfl rfl rfl
  generalize mkWord _ = w at *
  rw [decodeWord_0F h4]
  simp only [decodeOp0F, h1]
  simp only [bv_of h0, fin32_of h2, fin32_of h3]
theorem RoundTrip.ldD (d : Reg) (a : Reg) (disp : BitVec 13) : RoundTrip.Statement (.ldD d a disp) := by
  have f : Fits [(disp.toNat, 13), (6, 3), (a.val, 5), (d.val, 5), (15, 6)] := ⟨disp.isLt, by decide, a.isLt, d.isLt, by decide, trivial⟩
  refine roundTrip_of [(disp.toNat, 13), (6, 3), (a.val, 5), (d.val, 5), (15, 6)] _ rfl (by simp only [pack, mkWord]; omega) f rfl fun hl => ?_
  have h0 : bits _ 0 13 = disp.toNat := bits_field f 0 rfl rfl rfl
  have h1 : bits _ 13 3 = 6 := bits_field f 1 rfl rfl rfl
  have h2 : bits _ 16 5 = a.val := bits_field f 2 rfl rfl rfl
  have h3 : bits _ 21 5 = d.val := bits_field f 3 rfl rfl rfl
  have h4 : bits _ 26 6 = 15 := bits_field f 4 rfl rfl rfl
  generalize mkWord _ = w at *
  rw [decodeWord_0F h4]
  simp only [decodeOp0F, h1]
  simp only [bv_of h0, fin32_of h2, fin32_of h3]
theorem RoundTrip.stB (d : Reg) (a : Reg) (disp : BitVec 13) : RoundTrip.Statement (.stB d a disp) := by
  have f : Fits [(disp.toNat, 13), (0, 3), (a.val, 5), (d.val, 5), (16, 6)] := ⟨disp.isLt, by decide, a.isLt, d.isLt, by decide, trivial⟩
  refine roundTrip_of [(disp.toNat, 13), (0, 3), (a.val, 5), (d.val, 5), (16, 6)] _ rfl (by simp only [pack, mkWord]; omega) f rfl fun hl => ?_
  have h0 : bits _ 0 13 = disp.toNat := bits_field f 0 rfl rfl rfl
  have h1 : bits _ 13 3 = 0 := bits_field f 1 rfl rfl rfl
  have h2 : bits _ 16 5 = a.val := bits_field f 2 rfl rfl rfl
  have h3 : bits _ 21 5 = d.val := bits_field f 3 rfl rfl rfl
  have h4 : bits _ 26 6 = 16 := bits_field f 4 rfl rfl rfl
  generalize mkWord _ = w at *
  rw [decodeWord_10 h4]
  simp only [decodeOp10, h1]
  simp only [bv_of h0, fin32_of h2, fin32_of h3]
theorem RoundTrip.stH (d : Reg) (a : Reg) (disp : BitVec 13) : RoundTrip.Statement (.stH d a disp) := by
  have f : Fits [(disp.toNat, 13), (1, 3), (a.val, 5), (d.val, 5), (16, 6)] := ⟨disp.isLt, by decide, a.isLt, d.isLt, by decide, trivial⟩
  refine roundTrip_of [(disp.toNat, 13), (1, 3), (a.val, 5), (d.val, 5), (16, 6)] _ rfl (by simp only [pack, mkWord]; omega) f rfl fun hl => ?_
  have h0 : bits _ 0 13 = disp.toNat := bits_field f 0 rfl rfl rfl
  have h1 : bits _ 13 3 = 1 := bits_field f 1 rfl rfl rfl
  have h2 : bits _ 16 5 = a.val := bits_field f 2 rfl rfl rfl
  have h3 : bits _ 21 5 = d.val := bits_field f 3 rfl rfl rfl
  have h4 : bits _ 26 6 = 16 := bits_field f 4 rfl rfl rfl
  generalize mkWord _ = w at *
  rw [decodeWord_10 h4]
  simp only [decodeOp10, h1]
  simp only [bv_of h0, fin32_of h2, fin32_of h3]
theorem RoundTrip.stW (d : Reg) (a : Reg) (disp : BitVec 13) : RoundTrip.Statement (.stW d a disp) := by
  have f : Fits [(disp.toNat, 13), (2, 3), (a.val, 5), (d.val, 5), (16, 6)] := ⟨disp.isLt, by decide, a.isLt, d.isLt, by decide, trivial⟩
  refine roundTrip_of [(disp.toNat, 13), (2, 3), (a.val, 5), (d.val, 5), (16, 6)] _ rfl (by simp only [pack, mkWord]; omega) f rfl fun hl => ?_
  have h0 : bits _ 0 13 = disp.toNat := bits_field f 0 rfl rfl rfl
  have h1 : bits _ 13 3 = 2 := bits_field f 1 rfl rfl rfl
  have h2 : bits _ 16 5 = a.val := bits_field f 2 rfl rfl rfl
  have h3 : bits _ 21 5 = d.val := bits_field f 3 rfl rfl rfl
  have h4 : bits _ 26 6 = 16 := bits_field f 4 rfl rfl rfl
  generalize mkWord _ = w at *
  rw [decodeWord_10 h4]
  simp only [decodeOp10, h1]
  simp only [bv_of h0, fin32_of h2, fin32_of h3]
theorem RoundTrip.stD (d : Reg) (a : Reg) (disp : BitVec 13) : RoundTrip.Statement (.stD d a disp) := by
  have f : Fits [(disp.toNat, 13), (3, 3), (a.val, 5), (d.val, 5), (16, 6)] := ⟨disp.isLt, by decide, a.isLt, d.isLt, by decide, trivial⟩
  refine roundTrip_of [(disp.toNat, 13), (3, 3), (a.val, 5), (d.val, 5), (16, 6)] _ rfl (by simp only [pack, mkWord]; omega) f rfl fun hl => ?_
  have h0 : bits _ 0 13 = disp.toNat := bits_field f 0 rfl rfl rfl
  have h1 : bits _ 13 3 = 3 := bits_field f 1 rfl rfl rfl
  have h2 : bits _ 16 5 = a.val := bits_field f 2 rfl rfl rfl
  have h3 : bits _ 21 5 = d.val := bits_field f 3 rfl rfl rfl
  have h4 : bits _ 26 6 = 16 := bits_field f 4 rfl rfl rfl
  generalize mkWord _ = w at *
  rw [decodeWord_10 h4]
  simp only [decodeOp10, h1]
  simp only [bv_of h0, fin32_of h2, fin32_of h3]
theorem RoundTrip.amoAdd (d : Reg) (a : Reg) (b : Reg) (sc : Scope) (od : Order) (word : Bool) : RoundTrip.Statement (.amoAdd d a b sc od word) := by
  have f : Fits [(0, 4), (word.toNat, 1), (od.code, 3), (sc.code, 3), (b.val, 5), (a.val, 5), (d.val, 5), (17, 6)] := ⟨by decide, Bool_lt1 word, Order_lt3 od, Scope_lt3 sc, b.isLt, a.isLt, d.isLt, by decide, trivial⟩
  refine roundTrip_of [(0, 4), (word.toNat, 1), (od.code, 3), (sc.code, 3), (b.val, 5), (a.val, 5), (d.val, 5), (17, 6)] _ rfl (by simp only [pack, mkWord]; omega) f rfl fun hl => ?_
  have h0 : bits _ 0 4 = 0 := bits_field f 0 rfl rfl rfl
  have h1 : bits _ 4 1 = word.toNat := bits_field f 1 rfl rfl rfl
  have h2 : bits _ 5 3 = od.code := bits_field f 2 rfl rfl rfl
  have h3 : bits _ 8 3 = sc.code := bits_field f 3 rfl rfl rfl
  have h4 : bits _ 11 5 = b.val := bits_field f 4 rfl rfl rfl
  have h5 : bits _ 16 5 = a.val := bits_field f 5 rfl rfl rfl
  have h6 : bits _ 21 5 = d.val := bits_field f 6 rfl rfl rfl
  have h7 : bits _ 26 6 = 17 := bits_field f 7 rfl rfl rfl
  generalize mkWord _ = w at *
  rw [decodeWord_11 h7]
  simp only [decodeOp11, h0]
  simp only [bit_of h1, h2, Order_code, h3, Scope_code, fin32_of h4, fin32_of h5, fin32_of h6, Option.bind_some, Option.map_some]
theorem RoundTrip.amoAnd (d : Reg) (a : Reg) (b : Reg) (sc : Scope) (od : Order) (word : Bool) : RoundTrip.Statement (.amoAnd d a b sc od word) := by
  have f : Fits [(1, 4), (word.toNat, 1), (od.code, 3), (sc.code, 3), (b.val, 5), (a.val, 5), (d.val, 5), (17, 6)] := ⟨by decide, Bool_lt1 word, Order_lt3 od, Scope_lt3 sc, b.isLt, a.isLt, d.isLt, by decide, trivial⟩
  refine roundTrip_of [(1, 4), (word.toNat, 1), (od.code, 3), (sc.code, 3), (b.val, 5), (a.val, 5), (d.val, 5), (17, 6)] _ rfl (by simp only [pack, mkWord]; omega) f rfl fun hl => ?_
  have h0 : bits _ 0 4 = 1 := bits_field f 0 rfl rfl rfl
  have h1 : bits _ 4 1 = word.toNat := bits_field f 1 rfl rfl rfl
  have h2 : bits _ 5 3 = od.code := bits_field f 2 rfl rfl rfl
  have h3 : bits _ 8 3 = sc.code := bits_field f 3 rfl rfl rfl
  have h4 : bits _ 11 5 = b.val := bits_field f 4 rfl rfl rfl
  have h5 : bits _ 16 5 = a.val := bits_field f 5 rfl rfl rfl
  have h6 : bits _ 21 5 = d.val := bits_field f 6 rfl rfl rfl
  have h7 : bits _ 26 6 = 17 := bits_field f 7 rfl rfl rfl
  generalize mkWord _ = w at *
  rw [decodeWord_11 h7]
  simp only [decodeOp11, h0]
  simp only [bit_of h1, h2, Order_code, h3, Scope_code, fin32_of h4, fin32_of h5, fin32_of h6, Option.bind_some, Option.map_some]
theorem RoundTrip.amoOr (d : Reg) (a : Reg) (b : Reg) (sc : Scope) (od : Order) (word : Bool) : RoundTrip.Statement (.amoOr d a b sc od word) := by
  have f : Fits [(2, 4), (word.toNat, 1), (od.code, 3), (sc.code, 3), (b.val, 5), (a.val, 5), (d.val, 5), (17, 6)] := ⟨by decide, Bool_lt1 word, Order_lt3 od, Scope_lt3 sc, b.isLt, a.isLt, d.isLt, by decide, trivial⟩
  refine roundTrip_of [(2, 4), (word.toNat, 1), (od.code, 3), (sc.code, 3), (b.val, 5), (a.val, 5), (d.val, 5), (17, 6)] _ rfl (by simp only [pack, mkWord]; omega) f rfl fun hl => ?_
  have h0 : bits _ 0 4 = 2 := bits_field f 0 rfl rfl rfl
  have h1 : bits _ 4 1 = word.toNat := bits_field f 1 rfl rfl rfl
  have h2 : bits _ 5 3 = od.code := bits_field f 2 rfl rfl rfl
  have h3 : bits _ 8 3 = sc.code := bits_field f 3 rfl rfl rfl
  have h4 : bits _ 11 5 = b.val := bits_field f 4 rfl rfl rfl
  have h5 : bits _ 16 5 = a.val := bits_field f 5 rfl rfl rfl
  have h6 : bits _ 21 5 = d.val := bits_field f 6 rfl rfl rfl
  have h7 : bits _ 26 6 = 17 := bits_field f 7 rfl rfl rfl
  generalize mkWord _ = w at *
  rw [decodeWord_11 h7]
  simp only [decodeOp11, h0]
  simp only [bit_of h1, h2, Order_code, h3, Scope_code, fin32_of h4, fin32_of h5, fin32_of h6, Option.bind_some, Option.map_some]
theorem RoundTrip.amoXor (d : Reg) (a : Reg) (b : Reg) (sc : Scope) (od : Order) (word : Bool) : RoundTrip.Statement (.amoXor d a b sc od word) := by
  have f : Fits [(3, 4), (word.toNat, 1), (od.code, 3), (sc.code, 3), (b.val, 5), (a.val, 5), (d.val, 5), (17, 6)] := ⟨by decide, Bool_lt1 word, Order_lt3 od, Scope_lt3 sc, b.isLt, a.isLt, d.isLt, by decide, trivial⟩
  refine roundTrip_of [(3, 4), (word.toNat, 1), (od.code, 3), (sc.code, 3), (b.val, 5), (a.val, 5), (d.val, 5), (17, 6)] _ rfl (by simp only [pack, mkWord]; omega) f rfl fun hl => ?_
  have h0 : bits _ 0 4 = 3 := bits_field f 0 rfl rfl rfl
  have h1 : bits _ 4 1 = word.toNat := bits_field f 1 rfl rfl rfl
  have h2 : bits _ 5 3 = od.code := bits_field f 2 rfl rfl rfl
  have h3 : bits _ 8 3 = sc.code := bits_field f 3 rfl rfl rfl
  have h4 : bits _ 11 5 = b.val := bits_field f 4 rfl rfl rfl
  have h5 : bits _ 16 5 = a.val := bits_field f 5 rfl rfl rfl
  have h6 : bits _ 21 5 = d.val := bits_field f 6 rfl rfl rfl
  have h7 : bits _ 26 6 = 17 := bits_field f 7 rfl rfl rfl
  generalize mkWord _ = w at *
  rw [decodeWord_11 h7]
  simp only [decodeOp11, h0]
  simp only [bit_of h1, h2, Order_code, h3, Scope_code, fin32_of h4, fin32_of h5, fin32_of h6, Option.bind_some, Option.map_some]
theorem RoundTrip.amoMinS (d : Reg) (a : Reg) (b : Reg) (sc : Scope) (od : Order) (word : Bool) : RoundTrip.Statement (.amoMinS d a b sc od word) := by
  have f : Fits [(4, 4), (word.toNat, 1), (od.code, 3), (sc.code, 3), (b.val, 5), (a.val, 5), (d.val, 5), (17, 6)] := ⟨by decide, Bool_lt1 word, Order_lt3 od, Scope_lt3 sc, b.isLt, a.isLt, d.isLt, by decide, trivial⟩
  refine roundTrip_of [(4, 4), (word.toNat, 1), (od.code, 3), (sc.code, 3), (b.val, 5), (a.val, 5), (d.val, 5), (17, 6)] _ rfl (by simp only [pack, mkWord]; omega) f rfl fun hl => ?_
  have h0 : bits _ 0 4 = 4 := bits_field f 0 rfl rfl rfl
  have h1 : bits _ 4 1 = word.toNat := bits_field f 1 rfl rfl rfl
  have h2 : bits _ 5 3 = od.code := bits_field f 2 rfl rfl rfl
  have h3 : bits _ 8 3 = sc.code := bits_field f 3 rfl rfl rfl
  have h4 : bits _ 11 5 = b.val := bits_field f 4 rfl rfl rfl
  have h5 : bits _ 16 5 = a.val := bits_field f 5 rfl rfl rfl
  have h6 : bits _ 21 5 = d.val := bits_field f 6 rfl rfl rfl
  have h7 : bits _ 26 6 = 17 := bits_field f 7 rfl rfl rfl
  generalize mkWord _ = w at *
  rw [decodeWord_11 h7]
  simp only [decodeOp11, h0]
  simp only [bit_of h1, h2, Order_code, h3, Scope_code, fin32_of h4, fin32_of h5, fin32_of h6, Option.bind_some, Option.map_some]
theorem RoundTrip.amoMinN (d : Reg) (a : Reg) (b : Reg) (sc : Scope) (od : Order) (word : Bool) : RoundTrip.Statement (.amoMinN d a b sc od word) := by
  have f : Fits [(5, 4), (word.toNat, 1), (od.code, 3), (sc.code, 3), (b.val, 5), (a.val, 5), (d.val, 5), (17, 6)] := ⟨by decide, Bool_lt1 word, Order_lt3 od, Scope_lt3 sc, b.isLt, a.isLt, d.isLt, by decide, trivial⟩
  refine roundTrip_of [(5, 4), (word.toNat, 1), (od.code, 3), (sc.code, 3), (b.val, 5), (a.val, 5), (d.val, 5), (17, 6)] _ rfl (by simp only [pack, mkWord]; omega) f rfl fun hl => ?_
  have h0 : bits _ 0 4 = 5 := bits_field f 0 rfl rfl rfl
  have h1 : bits _ 4 1 = word.toNat := bits_field f 1 rfl rfl rfl
  have h2 : bits _ 5 3 = od.code := bits_field f 2 rfl rfl rfl
  have h3 : bits _ 8 3 = sc.code := bits_field f 3 rfl rfl rfl
  have h4 : bits _ 11 5 = b.val := bits_field f 4 rfl rfl rfl
  have h5 : bits _ 16 5 = a.val := bits_field f 5 rfl rfl rfl
  have h6 : bits _ 21 5 = d.val := bits_field f 6 rfl rfl rfl
  have h7 : bits _ 26 6 = 17 := bits_field f 7 rfl rfl rfl
  generalize mkWord _ = w at *
  rw [decodeWord_11 h7]
  simp only [decodeOp11, h0]
  simp only [bit_of h1, h2, Order_code, h3, Scope_code, fin32_of h4, fin32_of h5, fin32_of h6, Option.bind_some, Option.map_some]
theorem RoundTrip.amoMaxS (d : Reg) (a : Reg) (b : Reg) (sc : Scope) (od : Order) (word : Bool) : RoundTrip.Statement (.amoMaxS d a b sc od word) := by
  have f : Fits [(6, 4), (word.toNat, 1), (od.code, 3), (sc.code, 3), (b.val, 5), (a.val, 5), (d.val, 5), (17, 6)] := ⟨by decide, Bool_lt1 word, Order_lt3 od, Scope_lt3 sc, b.isLt, a.isLt, d.isLt, by decide, trivial⟩
  refine roundTrip_of [(6, 4), (word.toNat, 1), (od.code, 3), (sc.code, 3), (b.val, 5), (a.val, 5), (d.val, 5), (17, 6)] _ rfl (by simp only [pack, mkWord]; omega) f rfl fun hl => ?_
  have h0 : bits _ 0 4 = 6 := bits_field f 0 rfl rfl rfl
  have h1 : bits _ 4 1 = word.toNat := bits_field f 1 rfl rfl rfl
  have h2 : bits _ 5 3 = od.code := bits_field f 2 rfl rfl rfl
  have h3 : bits _ 8 3 = sc.code := bits_field f 3 rfl rfl rfl
  have h4 : bits _ 11 5 = b.val := bits_field f 4 rfl rfl rfl
  have h5 : bits _ 16 5 = a.val := bits_field f 5 rfl rfl rfl
  have h6 : bits _ 21 5 = d.val := bits_field f 6 rfl rfl rfl
  have h7 : bits _ 26 6 = 17 := bits_field f 7 rfl rfl rfl
  generalize mkWord _ = w at *
  rw [decodeWord_11 h7]
  simp only [decodeOp11, h0]
  simp only [bit_of h1, h2, Order_code, h3, Scope_code, fin32_of h4, fin32_of h5, fin32_of h6, Option.bind_some, Option.map_some]
theorem RoundTrip.amoMaxN (d : Reg) (a : Reg) (b : Reg) (sc : Scope) (od : Order) (word : Bool) : RoundTrip.Statement (.amoMaxN d a b sc od word) := by
  have f : Fits [(7, 4), (word.toNat, 1), (od.code, 3), (sc.code, 3), (b.val, 5), (a.val, 5), (d.val, 5), (17, 6)] := ⟨by decide, Bool_lt1 word, Order_lt3 od, Scope_lt3 sc, b.isLt, a.isLt, d.isLt, by decide, trivial⟩
  refine roundTrip_of [(7, 4), (word.toNat, 1), (od.code, 3), (sc.code, 3), (b.val, 5), (a.val, 5), (d.val, 5), (17, 6)] _ rfl (by simp only [pack, mkWord]; omega) f rfl fun hl => ?_
  have h0 : bits _ 0 4 = 7 := bits_field f 0 rfl rfl rfl
  have h1 : bits _ 4 1 = word.toNat := bits_field f 1 rfl rfl rfl
  have h2 : bits _ 5 3 = od.code := bits_field f 2 rfl rfl rfl
  have h3 : bits _ 8 3 = sc.code := bits_field f 3 rfl rfl rfl
  have h4 : bits _ 11 5 = b.val := bits_field f 4 rfl rfl rfl
  have h5 : bits _ 16 5 = a.val := bits_field f 5 rfl rfl rfl
  have h6 : bits _ 21 5 = d.val := bits_field f 6 rfl rfl rfl
  have h7 : bits _ 26 6 = 17 := bits_field f 7 rfl rfl rfl
  generalize mkWord _ = w at *
  rw [decodeWord_11 h7]
  simp only [decodeOp11, h0]
  simp only [bit_of h1, h2, Order_code, h3, Scope_code, fin32_of h4, fin32_of h5, fin32_of h6, Option.bind_some, Option.map_some]
theorem RoundTrip.amoSwap (d : Reg) (a : Reg) (b : Reg) (sc : Scope) (od : Order) (word : Bool) : RoundTrip.Statement (.amoSwap d a b sc od word) := by
  have f : Fits [(8, 4), (word.toNat, 1), (od.code, 3), (sc.code, 3), (b.val, 5), (a.val, 5), (d.val, 5), (17, 6)] := ⟨by decide, Bool_lt1 word, Order_lt3 od, Scope_lt3 sc, b.isLt, a.isLt, d.isLt, by decide, trivial⟩
  refine roundTrip_of [(8, 4), (word.toNat, 1), (od.code, 3), (sc.code, 3), (b.val, 5), (a.val, 5), (d.val, 5), (17, 6)] _ rfl (by simp only [pack, mkWord]; omega) f rfl fun hl => ?_
  have h0 : bits _ 0 4 = 8 := bits_field f 0 rfl rfl rfl
  have h1 : bits _ 4 1 = word.toNat := bits_field f 1 rfl rfl rfl
  have h2 : bits _ 5 3 = od.code := bits_field f 2 rfl rfl rfl
  have h3 : bits _ 8 3 = sc.code := bits_field f 3 rfl rfl rfl
  have h4 : bits _ 11 5 = b.val := bits_field f 4 rfl rfl rfl
  have h5 : bits _ 16 5 = a.val := bits_field f 5 rfl rfl rfl
  have h6 : bits _ 21 5 = d.val := bits_field f 6 rfl rfl rfl
  have h7 : bits _ 26 6 = 17 := bits_field f 7 rfl rfl rfl
  generalize mkWord _ = w at *
  rw [decodeWord_11 h7]
  simp only [decodeOp11, h0]
  simp only [bit_of h1, h2, Order_code, h3, Scope_code, fin32_of h4, fin32_of h5, fin32_of h6, Option.bind_some, Option.map_some]
theorem RoundTrip.amoCas (d : Reg) (a : Reg) (b : Reg) (sc : Scope) (od : Order) (word : Bool) : RoundTrip.Statement (.amoCas d a b sc od word) := by
  have f : Fits [(9, 4), (word.toNat, 1), (od.code, 3), (sc.code, 3), (b.val, 5), (a.val, 5), (d.val, 5), (17, 6)] := ⟨by decide, Bool_lt1 word, Order_lt3 od, Scope_lt3 sc, b.isLt, a.isLt, d.isLt, by decide, trivial⟩
  refine roundTrip_of [(9, 4), (word.toNat, 1), (od.code, 3), (sc.code, 3), (b.val, 5), (a.val, 5), (d.val, 5), (17, 6)] _ rfl (by simp only [pack, mkWord]; omega) f rfl fun hl => ?_
  have h0 : bits _ 0 4 = 9 := bits_field f 0 rfl rfl rfl
  have h1 : bits _ 4 1 = word.toNat := bits_field f 1 rfl rfl rfl
  have h2 : bits _ 5 3 = od.code := bits_field f 2 rfl rfl rfl
  have h3 : bits _ 8 3 = sc.code := bits_field f 3 rfl rfl rfl
  have h4 : bits _ 11 5 = b.val := bits_field f 4 rfl rfl rfl
  have h5 : bits _ 16 5 = a.val := bits_field f 5 rfl rfl rfl
  have h6 : bits _ 21 5 = d.val := bits_field f 6 rfl rfl rfl
  have h7 : bits _ 26 6 = 17 := bits_field f 7 rfl rfl rfl
  generalize mkWord _ = w at *
  rw [decodeWord_11 h7]
  simp only [decodeOp11, h0]
  simp only [bit_of h1, h2, Order_code, h3, Scope_code, fin32_of h4, fin32_of h5, fin32_of h6, Option.bind_some, Option.map_some]
theorem RoundTrip.amoFadd (d : Reg) (a : Reg) (b : Reg) (sc : Scope) (od : Order) : RoundTrip.Statement (.amoFadd d a b sc od) := by
  have f : Fits [(10, 4), (1, 1), (od.code, 3), (sc.code, 3), (b.val, 5), (a.val, 5), (d.val, 5), (17, 6)] := ⟨by decide, by decide, Order_lt3 od, Scope_lt3 sc, b.isLt, a.isLt, d.isLt, by decide, trivial⟩
  refine roundTrip_of [(10, 4), (1, 1), (od.code, 3), (sc.code, 3), (b.val, 5), (a.val, 5), (d.val, 5), (17, 6)] _ rfl (by simp only [pack, mkWord]; omega) f rfl fun hl => ?_
  have h0 : bits _ 0 4 = 10 := bits_field f 0 rfl rfl rfl
  have h1 : bits _ 4 1 = 1 := bits_field f 1 rfl rfl rfl
  have h2 : bits _ 5 3 = od.code := bits_field f 2 rfl rfl rfl
  have h3 : bits _ 8 3 = sc.code := bits_field f 3 rfl rfl rfl
  have h4 : bits _ 11 5 = b.val := bits_field f 4 rfl rfl rfl
  have h5 : bits _ 16 5 = a.val := bits_field f 5 rfl rfl rfl
  have h6 : bits _ 21 5 = d.val := bits_field f 6 rfl rfl rfl
  have h7 : bits _ 26 6 = 17 := bits_field f 7 rfl rfl rfl
  generalize mkWord _ = w at *
  rw [decodeWord_11 h7]
  simp only [decodeOp11, h0, h1, and_self, if_true]
  simp only [h2, Order_code, h3, Scope_code, fin32_of h4, fin32_of h5, fin32_of h6, Option.bind_some, Option.map_some]
theorem RoundTrip.fenceAcq (sc : Scope) : RoundTrip.Statement (.fenceAcq sc) := by
  have f : Fits [(64, 8), (sc.code, 3), (0, 15), (18, 6)] := ⟨by decide, Scope_lt3 sc, by decide, by decide, trivial⟩
  refine roundTrip_of [(64, 8), (sc.code, 3), (0, 15), (18, 6)] _ rfl (by simp only [pack, mkWord]; omega) f rfl fun hl => ?_
  have h0 : bits _ 0 8 = 64 := bits_field f 0 rfl rfl rfl
  have h1 : bits _ 8 3 = sc.code := bits_field f 1 rfl rfl rfl
  have h2 : bits _ 11 15 = 0 := bits_field f 2 rfl rfl rfl
  have h3 : bits _ 26 6 = 18 := bits_field f 3 rfl rfl rfl
  generalize mkWord _ = w at *
  rw [decodeWord_12 h3]
  simp only [decodeOp12, h0, h2, and_self, if_true]
  simp only [h1, Scope_code, Option.bind_some, Option.map_some]
theorem RoundTrip.fenceRel (sc : Scope) : RoundTrip.Statement (.fenceRel sc) := by
  have f : Fits [(128, 8), (sc.code, 3), (0, 15), (18, 6)] := ⟨by decide, Scope_lt3 sc, by decide, by decide, trivial⟩
  refine roundTrip_of [(128, 8), (sc.code, 3), (0, 15), (18, 6)] _ rfl (by simp only [pack, mkWord]; omega) f rfl fun hl => ?_
  have h0 : bits _ 0 8 = 128 := bits_field f 0 rfl rfl rfl
  have h1 : bits _ 8 3 = sc.code := bits_field f 1 rfl rfl rfl
  have h2 : bits _ 11 15 = 0 := bits_field f 2 rfl rfl rfl
  have h3 : bits _ 26 6 = 18 := bits_field f 3 rfl rfl rfl
  generalize mkWord _ = w at *
  rw [decodeWord_12 h3]
  simp only [decodeOp12, h0, h2, and_self, if_true]
  simp only [h1, Scope_code, Option.bind_some, Option.map_some]
theorem RoundTrip.fenceAr (sc : Scope) : RoundTrip.Statement (.fenceAr sc) := by
  have f : Fits [(192, 8), (sc.code, 3), (0, 15), (18, 6)] := ⟨by decide, Scope_lt3 sc, by decide, by decide, trivial⟩
  refine roundTrip_of [(192, 8), (sc.code, 3), (0, 15), (18, 6)] _ rfl (by simp only [pack, mkWord]; omega) f rfl fun hl => ?_
  have h0 : bits _ 0 8 = 192 := bits_field f 0 rfl rfl rfl
  have h1 : bits _ 8 3 = sc.code := bits_field f 1 rfl rfl rfl
  have h2 : bits _ 11 15 = 0 := bits_field f 2 rfl rfl rfl
  have h3 : bits _ 26 6 = 18 := bits_field f 3 rfl rfl rfl
  generalize mkWord _ = w at *
  rw [decodeWord_12 h3]
  simp only [decodeOp12, h0, h2, and_self, if_true]
  simp only [h1, Scope_code, Option.bind_some, Option.map_some]
theorem RoundTrip.setvl (d : Reg) (a : Reg) : RoundTrip.Statement (.setvl d a) := by
  have f : Fits [(0, 12), (a.val, 5), (0, 4), (d.val, 5), (19, 6)] := ⟨by decide, a.isLt, by decide, d.isLt, by decide, trivial⟩
  refine roundTrip_of [(0, 12), (a.val, 5), (0, 4), (d.val, 5), (19, 6)] _ rfl (by simp only [pack, mkWord]; omega) f rfl fun hl => ?_
  have h0 : bits _ 0 12 = 0 := bits_field f 0 rfl rfl rfl
  have h1 : bits _ 12 5 = a.val := bits_field f 1 rfl rfl rfl
  have h2 : bits _ 17 4 = 0 := bits_field f 2 rfl rfl rfl
  have h3 : bits _ 21 5 = d.val := bits_field f 3 rfl rfl rfl
  have h4 : bits _ 26 6 = 19 := bits_field f 4 rfl rfl rfl
  generalize mkWord _ = w at *
  rw [decodeWord_13 h4]
  simp only [decodeOp13, h0, h2, and_self, if_true]
  simp only [fin32_of h1, fin32_of h3]
theorem RoundTrip.setvlw (d : Reg) (a : Reg) (w : Fin 4) : RoundTrip.Statement (.setvlw d a w) := by
  have f : Fits [(w.val, 2), (0, 10), (a.val, 5), (1, 4), (d.val, 5), (19, 6)] := ⟨w.isLt, by decide, a.isLt, by decide, d.isLt, by decide, trivial⟩
  refine roundTrip_of [(w.val, 2), (0, 10), (a.val, 5), (1, 4), (d.val, 5), (19, 6)] _ rfl (by simp only [pack, mkWord]; omega) f rfl fun hl => ?_
  have h0 : bits _ 0 2 = w.val := bits_field f 0 rfl rfl rfl
  have h1 : bits _ 2 10 = 0 := bits_field f 1 rfl rfl rfl
  have h2 : bits _ 12 5 = a.val := bits_field f 2 rfl rfl rfl
  have h3 : bits _ 17 4 = 1 := bits_field f 3 rfl rfl rfl
  have h4 : bits _ 21 5 = d.val := bits_field f 4 rfl rfl rfl
  have h5 : bits _ 26 6 = 19 := bits_field f 5 rfl rfl rfl
  generalize mkWord _ = w at *
  rw [decodeWord_13 h5]
  simp only [decodeOp13, h1, h3, and_self, if_true]
  simp only [fin4_of h0, fin32_of h2, fin32_of h4]
theorem RoundTrip.vcfg (d : Reg) (ew : Fin 4) (g : Fin 4) : RoundTrip.Statement (.vcfg d ew g) := by
  have f : Fits [(g.val, 2), (ew.val, 2), (0, 13), (2, 4), (d.val, 5), (19, 6)] := ⟨g.isLt, ew.isLt, by decide, by decide, d.isLt, by decide, trivial⟩
  refine roundTrip_of [(g.val, 2), (ew.val, 2), (0, 13), (2, 4), (d.val, 5), (19, 6)] _ rfl (by simp only [pack, mkWord]; omega) f rfl fun hl => ?_
  have h0 : bits _ 0 2 = g.val := bits_field f 0 rfl rfl rfl
  have h1 : bits _ 2 2 = ew.val := bits_field f 1 rfl rfl rfl
  have h2 : bits _ 4 13 = 0 := bits_field f 2 rfl rfl rfl
  have h3 : bits _ 17 4 = 2 := bits_field f 3 rfl rfl rfl
  have h4 : bits _ 21 5 = d.val := bits_field f 4 rfl rfl rfl
  have h5 : bits _ 26 6 = 19 := bits_field f 5 rfl rfl rfl
  generalize mkWord _ = w at *
  rw [decodeWord_13 h5]
  simp only [decodeOp13, h2, h3, and_self, if_true]
  simp only [fin4_of h0, fin4_of h1, fin32_of h4]
theorem RoundTrip.vtagw (d : Reg) (tag : Tag) : RoundTrip.Statement (.vtagw d tag) := by
  have f : Fits [(tag.code, 4), (0, 13), (3, 4), (d.val, 5), (19, 6)] := ⟨Tag_lt4 tag, by decide, by decide, d.isLt, by decide, trivial⟩
  refine roundTrip_of [(tag.code, 4), (0, 13), (3, 4), (d.val, 5), (19, 6)] _ rfl (by simp only [pack, mkWord]; omega) f rfl fun hl => ?_
  have h0 : bits _ 0 4 = tag.code := bits_field f 0 rfl rfl rfl
  have h1 : bits _ 4 13 = 0 := bits_field f 1 rfl rfl rfl
  have h2 : bits _ 17 4 = 3 := bits_field f 2 rfl rfl rfl
  have h3 : bits _ 21 5 = d.val := bits_field f 3 rfl rfl rfl
  have h4 : bits _ 26 6 = 19 := bits_field f 4 rfl rfl rfl
  generalize mkWord _ = w at *
  rw [decodeWord_13 h4]
  simp only [decodeOp13, h1, h2, and_self, if_true]
  simp only [h0, Tag_code, fin32_of h3, Option.bind_some, Option.map_some]
theorem RoundTrip.vtagr (d : Reg) (a : Reg) : RoundTrip.Statement (.vtagr d a) := by
  have f : Fits [(0, 12), (a.val, 5), (4, 4), (d.val, 5), (19, 6)] := ⟨by decide, a.isLt, by decide, d.isLt, by decide, trivial⟩
  refine roundTrip_of [(0, 12), (a.val, 5), (4, 4), (d.val, 5), (19, 6)] _ rfl (by simp only [pack, mkWord]; omega) f rfl fun hl => ?_
  have h0 : bits _ 0 12 = 0 := bits_field f 0 rfl rfl rfl
  have h1 : bits _ 12 5 = a.val := bits_field f 1 rfl rfl rfl
  have h2 : bits _ 17 4 = 4 := bits_field f 2 rfl rfl rfl
  have h3 : bits _ 21 5 = d.val := bits_field f 3 rfl rfl rfl
  have h4 : bits _ 26 6 = 19 := bits_field f 4 rfl rfl rfl
  generalize mkWord _ = w at *
  rw [decodeWord_13 h4]
  simp only [decodeOp13, h0, h2, and_self, if_true]
  simp only [fin32_of h1, fin32_of h3]
theorem RoundTrip.vhwm (d : Reg) (a : Reg) : RoundTrip.Statement (.vhwm d a) := by
  have f : Fits [(0, 12), (a.val, 5), (5, 4), (d.val, 5), (19, 6)] := ⟨by decide, a.isLt, by decide, d.isLt, by decide, trivial⟩
  refine roundTrip_of [(0, 12), (a.val, 5), (5, 4), (d.val, 5), (19, 6)] _ rfl (by simp only [pack, mkWord]; omega) f rfl fun hl => ?_
  have h0 : bits _ 0 12 = 0 := bits_field f 0 rfl rfl rfl
  have h1 : bits _ 12 5 = a.val := bits_field f 1 rfl rfl rfl
  have h2 : bits _ 17 4 = 5 := bits_field f 2 rfl rfl rfl
  have h3 : bits _ 21 5 = d.val := bits_field f 3 rfl rfl rfl
  have h4 : bits _ 26 6 = 19 := bits_field f 4 rfl rfl rfl
  generalize mkWord _ = w at *
  rw [decodeWord_13 h4]
  simp only [decodeOp13, h0, h2, and_self, if_true]
  simp only [fin32_of h1, fin32_of h3]
theorem RoundTrip.vf (disp : BitVec 21) : RoundTrip.Statement (.vf disp) := by
  have f : Fits [(disp.toNat, 21), (0, 5), (20, 6)] := ⟨disp.isLt, by decide, by decide, trivial⟩
  refine roundTrip_of [(disp.toNat, 21), (0, 5), (20, 6)] _ rfl (by simp only [pack, mkWord]; omega) f rfl fun hl => ?_
  have h0 : bits _ 0 21 = disp.toNat := bits_field f 0 rfl rfl rfl
  have h1 : bits _ 21 5 = 0 := bits_field f 1 rfl rfl rfl
  have h2 : bits _ 26 6 = 20 := bits_field f 2 rfl rfl rfl
  generalize mkWord _ = w at *
  rw [decodeWord_14 h2]
  simp only [decodeOp14, h1]
  simp only [bv_of h0]
theorem RoundTrip.vfD (disp : BitVec 21) : RoundTrip.Statement (.vfD disp) := by
  have f : Fits [(disp.toNat, 21), (1, 5), (20, 6)] := ⟨disp.isLt, by decide, by decide, trivial⟩
  refine roundTrip_of [(disp.toNat, 21), (1, 5), (20, 6)] _ rfl (by simp only [pack, mkWord]; omega) f rfl fun hl => ?_
  have h0 : bits _ 0 21 = disp.toNat := bits_field f 0 rfl rfl rfl
  have h1 : bits _ 21 5 = 1 := bits_field f 1 rfl rfl rfl
  have h2 : bits _ 26 6 = 20 := bits_field f 2 rfl rfl rfl
  generalize mkWord _ = w at *
  rw [decodeWord_14 h2]
  simp only [decodeOp14, h1]
  simp only [bv_of h0]
theorem RoundTrip.vjoin (d : Reg) (j : BitVec 8) (t : BitVec 8) : RoundTrip.Statement (.vjoin d j t) := by
  have f : Fits [(t.toNat, 8), (0, 1), (j.toNat, 8), (0, 4), (d.val, 5), (21, 6)] := ⟨t.isLt, by decide, j.isLt, by decide, d.isLt, by decide, trivial⟩
  refine roundTrip_of [(t.toNat, 8), (0, 1), (j.toNat, 8), (0, 4), (d.val, 5), (21, 6)] _ rfl (by simp only [pack, mkWord]; omega) f rfl fun hl => ?_
  have h0 : bits _ 0 8 = t.toNat := bits_field f 0 rfl rfl rfl
  have h1 : bits _ 8 1 = 0 := bits_field f 1 rfl rfl rfl
  have h2 : bits _ 9 8 = j.toNat := bits_field f 2 rfl rfl rfl
  have h3 : bits _ 17 4 = 0 := bits_field f 3 rfl rfl rfl
  have h4 : bits _ 21 5 = d.val := bits_field f 4 rfl rfl rfl
  have h5 : bits _ 26 6 = 21 := bits_field f 5 rfl rfl rfl
  generalize mkWord _ = w at *
  rw [decodeWord_15 h5]
  simp only [decodeOp15, h1, h3, and_self, if_true]
  simp only [bv_of h0, bv_of h2, fin32_of h4]
theorem RoundTrip.vjoinReg (d : Reg) (j : BitVec 8) (t : Reg) : RoundTrip.Statement (.vjoinReg d j t) := by
  have f : Fits [(t.val, 5), (8, 4), (j.toNat, 8), (0, 4), (d.val, 5), (21, 6)] := ⟨t.isLt, by decide, j.isLt, by decide, d.isLt, by decide, trivial⟩
  refine roundTrip_of [(t.val, 5), (8, 4), (j.toNat, 8), (0, 4), (d.val, 5), (21, 6)] _ rfl (by simp only [pack, mkWord]; omega) f rfl fun hl => ?_
  have h0 : bits _ 0 5 = t.val := bits_field f 0 rfl rfl rfl
  have h1 : bits _ 5 4 = 8 := bits_field f 1 rfl rfl rfl
  have h2 : bits _ 9 8 = j.toNat := bits_field f 2 rfl rfl rfl
  have h3 : bits _ 17 4 = 0 := bits_field f 3 rfl rfl rfl
  have h4 : bits _ 21 5 = d.val := bits_field f 4 rfl rfl rfl
  have h5 : bits _ 26 6 = 21 := bits_field f 5 rfl rfl rfl
  generalize mkWord _ = w at *
  rw [decodeWord_15 h5]
  have x : bits w 8 1 = 1 := by simp only [bits] at *; omega
  simp only [decodeOp15, x, one_ne_zero, if_false, h1, h3, and_self, if_true]
  simp only [fin32_of h0, bv_of h2, fin32_of h4]
theorem RoundTrip.waitf (flags : BitVec 12) : RoundTrip.Statement (.waitf flags) := by
  have f : Fits [(flags.toNat, 12), (0, 5), (1, 4), (0, 5), (21, 6)] := ⟨flags.isLt, by decide, by decide, by decide, by decide, trivial⟩
  refine roundTrip_of [(flags.toNat, 12), (0, 5), (1, 4), (0, 5), (21, 6)] _ rfl (by simp only [pack, mkWord]; omega) f rfl fun hl => ?_
  have h0 : bits _ 0 12 = flags.toNat := bits_field f 0 rfl rfl rfl
  have h1 : bits _ 12 5 = 0 := bits_field f 1 rfl rfl rfl
  have h2 : bits _ 17 4 = 1 := bits_field f 2 rfl rfl rfl
  have h3 : bits _ 21 5 = 0 := bits_field f 3 rfl rfl rfl
  have h4 : bits _ 26 6 = 21 := bits_field f 4 rfl rfl rfl
  generalize mkWord _ = w at *
  rw [decodeWord_15 h4]
  simp only [decodeOp15, h1, h2, h3, and_self, if_true]
  simp only [bv_of h0]
theorem RoundTrip.waitc (cls : Fin 4) (n : BitVec 8) : RoundTrip.Statement (.waitc cls n) := by
  have f : Fits [(n.toNat, 8), (cls.val, 2), (0, 7), (2, 4), (0, 5), (21, 6)] := ⟨n.isLt, cls.isLt, by decide, by decide, by decide, by decide, trivial⟩
  refine roundTrip_of [(n.toNat, 8), (cls.val, 2), (0, 7), (2, 4), (0, 5), (21, 6)] _ rfl (by simp only [pack, mkWord]; omega) f rfl fun hl => ?_
  have h0 : bits _ 0 8 = n.toNat := bits_field f 0 rfl rfl rfl
  have h1 : bits _ 8 2 = cls.val := bits_field f 1 rfl rfl rfl
  have h2 : bits _ 10 7 = 0 := bits_field f 2 rfl rfl rfl
  have h3 : bits _ 17 4 = 2 := bits_field f 3 rfl rfl rfl
  have h4 : bits _ 21 5 = 0 := bits_field f 4 rfl rfl rfl
  have h5 : bits _ 26 6 = 21 := bits_field f 5 rfl rfl rfl
  generalize mkWord _ = w at *
  rw [decodeWord_15 h5]
  simp only [decodeOp15, h2, h3, h4, and_self, if_true]
  simp only [bv_of h0, fin4_of h1]
theorem RoundTrip.qseed (a : Reg) : RoundTrip.Statement (.qseed a) := by
  have f : Fits [(0, 12), (a.val, 5), (3, 4), (0, 5), (21, 6)] := ⟨by decide, a.isLt, by decide, by decide, by decide, trivial⟩
  refine roundTrip_of [(0, 12), (a.val, 5), (3, 4), (0, 5), (21, 6)] _ rfl (by simp only [pack, mkWord]; omega) f rfl fun hl => ?_
  have h0 : bits _ 0 12 = 0 := bits_field f 0 rfl rfl rfl
  have h1 : bits _ 12 5 = a.val := bits_field f 1 rfl rfl rfl
  have h2 : bits _ 17 4 = 3 := bits_field f 2 rfl rfl rfl
  have h3 : bits _ 21 5 = 0 := bits_field f 3 rfl rfl rfl
  have h4 : bits _ 26 6 = 21 := bits_field f 4 rfl rfl rfl
  generalize mkWord _ = w at *
  rw [decodeWord_15 h4]
  simp only [decodeOp15, h0, h2, h3, and_self, if_true]
  simp only [fin32_of h1]
theorem RoundTrip.qdrain (d : Reg) : RoundTrip.Statement (.qdrain d) := by
  have f : Fits [(0, 17), (4, 4), (d.val, 5), (21, 6)] := ⟨by decide, by decide, d.isLt, by decide, trivial⟩
  refine roundTrip_of [(0, 17), (4, 4), (d.val, 5), (21, 6)] _ rfl (by simp only [pack, mkWord]; omega) f rfl fun hl => ?_
  have h0 : bits _ 0 17 = 0 := bits_field f 0 rfl rfl rfl
  have h1 : bits _ 17 4 = 4 := bits_field f 1 rfl rfl rfl
  have h2 : bits _ 21 5 = d.val := bits_field f 2 rfl rfl rfl
  have h3 : bits _ 26 6 = 21 := bits_field f 3 rfl rfl rfl
  generalize mkWord _ = w at *
  rw [decodeWord_15 h3]
  simp only [decodeOp15, h0, h1, and_self, if_true]
  simp only [fin32_of h2]
theorem RoundTrip.sbput (n : Fin 8) (a : Reg) : RoundTrip.Statement (.sbput n a) := by
  have f : Fits [(n.val, 3), (0, 9), (a.val, 5), (5, 4), (0, 5), (21, 6)] := ⟨n.isLt, by decide, a.isLt, by decide, by decide, by decide, trivial⟩
  refine roundTrip_of [(n.val, 3), (0, 9), (a.val, 5), (5, 4), (0, 5), (21, 6)] _ rfl (by simp only [pack, mkWord]; omega) f rfl fun hl => ?_
  have h0 : bits _ 0 3 = n.val := bits_field f 0 rfl rfl rfl
  have h1 : bits _ 3 9 = 0 := bits_field f 1 rfl rfl rfl
  have h2 : bits _ 12 5 = a.val := bits_field f 2 rfl rfl rfl
  have h3 : bits _ 17 4 = 5 := bits_field f 3 rfl rfl rfl
  have h4 : bits _ 21 5 = 0 := bits_field f 4 rfl rfl rfl
  have h5 : bits _ 26 6 = 21 := bits_field f 5 rfl rfl rfl
  generalize mkWord _ = w at *
  rw [decodeWord_15 h5]
  simp only [decodeOp15, h1, h3, h4, and_self, if_true]
  simp only [fin8_of h0, fin32_of h2]
theorem RoundTrip.sbget (d : Reg) (n : Fin 8) : RoundTrip.Statement (.sbget d n) := by
  have f : Fits [(n.val, 3), (0, 14), (6, 4), (d.val, 5), (21, 6)] := ⟨n.isLt, by decide, by decide, d.isLt, by decide, trivial⟩
  refine roundTrip_of [(n.val, 3), (0, 14), (6, 4), (d.val, 5), (21, 6)] _ rfl (by simp only [pack, mkWord]; omega) f rfl fun hl => ?_
  have h0 : bits _ 0 3 = n.val := bits_field f 0 rfl rfl rfl
  have h1 : bits _ 3 14 = 0 := bits_field f 1 rfl rfl rfl
  have h2 : bits _ 17 4 = 6 := bits_field f 2 rfl rfl rfl
  have h3 : bits _ 21 5 = d.val := bits_field f 3 rfl rfl rfl
  have h4 : bits _ 26 6 = 21 := bits_field f 4 rfl rfl rfl
  generalize mkWord _ = w at *
  rw [decodeWord_15 h4]
  simp only [decodeOp15, h1, h2, and_self, if_true]
  simp only [fin8_of h0, fin32_of h3]
theorem RoundTrip.mxon (zp : Bool) (band : Bool) (keep : Bool) : RoundTrip.Statement (.mxon zp band keep) := by
  have f : Fits [(keep.toNat, 1), (band.toNat, 1), (zp.toNat, 1), (0, 14), (7, 4), (0, 5), (21, 6)] := ⟨Bool_lt1 keep, Bool_lt1 band, Bool_lt1 zp, by decide, by decide, by decide, by decide, trivial⟩
  refine roundTrip_of [(keep.toNat, 1), (band.toNat, 1), (zp.toNat, 1), (0, 14), (7, 4), (0, 5), (21, 6)] _ rfl (by simp only [pack, mkWord]; omega) f rfl fun hl => ?_
  have h0 : bits _ 0 1 = keep.toNat := bits_field f 0 rfl rfl rfl
  have h1 : bits _ 1 1 = band.toNat := bits_field f 1 rfl rfl rfl
  have h2 : bits _ 2 1 = zp.toNat := bits_field f 2 rfl rfl rfl
  have h3 : bits _ 3 14 = 0 := bits_field f 3 rfl rfl rfl
  have h4 : bits _ 17 4 = 7 := bits_field f 4 rfl rfl rfl
  have h5 : bits _ 21 5 = 0 := bits_field f 5 rfl rfl rfl
  have h6 : bits _ 26 6 = 21 := bits_field f 6 rfl rfl rfl
  generalize mkWord _ = w at *
  rw [decodeWord_15 h6]
  simp only [decodeOp15, h3, h4, h5, and_self, if_true]
  simp only [bit_of h0, bit_of h1, bit_of h2]
theorem RoundTrip.launch (d : Reg) (a : Reg) : RoundTrip.Statement (.launch d a) := by
  have f : Fits [(0, 12), (a.val, 5), (9, 4), (d.val, 5), (21, 6)] := ⟨by decide, a.isLt, by decide, d.isLt, by decide, trivial⟩
  refine roundTrip_of [(0, 12), (a.val, 5), (9, 4), (d.val, 5), (21, 6)] _ rfl (by simp only [pack, mkWord]; omega) f rfl fun hl => ?_
  have h0 : bits _ 0 12 = 0 := bits_field f 0 rfl rfl rfl
  have h1 : bits _ 12 5 = a.val := bits_field f 1 rfl rfl rfl
  have h2 : bits _ 17 4 = 9 := bits_field f 2 rfl rfl rfl
  have h3 : bits _ 21 5 = d.val := bits_field f 3 rfl rfl rfl
  have h4 : bits _ 26 6 = 21 := bits_field f 4 rfl rfl rfl
  generalize mkWord _ = w at *
  rw [decodeWord_15 h4]
  simp only [decodeOp15, h0, h2, and_self, if_true]
  simp only [fin32_of h1, fin32_of h3]
theorem RoundTrip.evsig (a : Reg) : RoundTrip.Statement (.evsig a) := by
  have f : Fits [(0, 12), (a.val, 5), (10, 4), (0, 5), (21, 6)] := ⟨by decide, a.isLt, by decide, by decide, by decide, trivial⟩
  refine roundTrip_of [(0, 12), (a.val, 5), (10, 4), (0, 5), (21, 6)] _ rfl (by simp only [pack, mkWord]; omega) f rfl fun hl => ?_
  have h0 : bits _ 0 12 = 0 := bits_field f 0 rfl rfl rfl
  have h1 : bits _ 12 5 = a.val := bits_field f 1 rfl rfl rfl
  have h2 : bits _ 17 4 = 10 := bits_field f 2 rfl rfl rfl
  have h3 : bits _ 21 5 = 0 := bits_field f 3 rfl rfl rfl
  have h4 : bits _ 26 6 = 21 := bits_field f 4 rfl rfl rfl
  generalize mkWord _ = w at *
  rw [decodeWord_15 h4]
  simp only [decodeOp15, h0, h2, h3, and_self, if_true]
  simp only [fin32_of h1]
theorem RoundTrip.evwait (a : Reg) : RoundTrip.Statement (.evwait a) := by
  have f : Fits [(0, 12), (a.val, 5), (11, 4), (0, 5), (21, 6)] := ⟨by decide, a.isLt, by decide, by decide, by decide, trivial⟩
  refine roundTrip_of [(0, 12), (a.val, 5), (11, 4), (0, 5), (21, 6)] _ rfl (by simp only [pack, mkWord]; omega) f rfl fun hl => ?_
  have h0 : bits _ 0 12 = 0 := bits_field f 0 rfl rfl rfl
  have h1 : bits _ 12 5 = a.val := bits_field f 1 rfl rfl rfl
  have h2 : bits _ 17 4 = 11 := bits_field f 2 rfl rfl rfl
  have h3 : bits _ 21 5 = 0 := bits_field f 3 rfl rfl rfl
  have h4 : bits _ 26 6 = 21 := bits_field f 4 rfl rfl rfl
  generalize mkWord _ = w at *
  rw [decodeWord_15 h4]
  simp only [decodeOp15, h0, h2, h3, and_self, if_true]
  simp only [fin32_of h1]
theorem RoundTrip.vld (vd : Reg) (xb : Reg) (vx : Reg) (fmt : Fmt) (m : MaskReg) : RoundTrip.Statement (.vld vd xb vx fmt m) := by
  have f : Fits [(0, 3), (m.val, 3), (fmt.code, 5), (vx.val, 5), (xb.val, 5), (vd.val, 5), (22, 6)] := ⟨by decide, m.isLt, Fmt_lt5 fmt, vx.isLt, xb.isLt, vd.isLt, by decide, trivial⟩
  refine roundTrip_of [(0, 3), (m.val, 3), (fmt.code, 5), (vx.val, 5), (xb.val, 5), (vd.val, 5), (22, 6)] _ rfl (by simp only [pack, mkWord]; omega) f rfl fun hl => ?_
  have h0 : bits _ 0 3 = 0 := bits_field f 0 rfl rfl rfl
  have h1 : bits _ 3 3 = m.val := bits_field f 1 rfl rfl rfl
  have h2 : bits _ 6 5 = fmt.code := bits_field f 2 rfl rfl rfl
  have h3 : bits _ 11 5 = vx.val := bits_field f 3 rfl rfl rfl
  have h4 : bits _ 16 5 = xb.val := bits_field f 4 rfl rfl rfl
  have h5 : bits _ 21 5 = vd.val := bits_field f 5 rfl rfl rfl
  have h6 : bits _ 26 6 = 22 := bits_field f 6 rfl rfl rfl
  generalize mkWord _ = w at *
  rw [decodeWord_16 h6]
  simp only [decodeOp16, h0]
  simp only [fin8_of h1, h2, Fmt_code, fin32_of h3, fin32_of h4, fin32_of h5, Option.bind_some, Option.map_some]
theorem RoundTrip.vlds (vd : Reg) (xb : Reg) (vx : Reg) (fmt : Fmt) (m : MaskReg) : RoundTrip.Statement (.vlds vd xb vx fmt m) := by
  have f : Fits [(1, 3), (m.val, 3), (fmt.code, 5), (vx.val, 5), (xb.val, 5), (vd.val, 5), (22, 6)] := ⟨by decide, m.isLt, Fmt_lt5 fmt, vx.isLt, xb.isLt, vd.isLt, by decide, trivial⟩
  refine roundTrip_of [(1, 3), (m.val, 3), (fmt.code, 5), (vx.val, 5), (xb.val, 5), (vd.val, 5), (22, 6)] _ rfl (by simp only [pack, mkWord]; omega) f rfl fun hl => ?_
  have h0 : bits _ 0 3 = 1 := bits_field f 0 rfl rfl rfl
  have h1 : bits _ 3 3 = m.val := bits_field f 1 rfl rfl rfl
  have h2 : bits _ 6 5 = fmt.code := bits_field f 2 rfl rfl rfl
  have h3 : bits _ 11 5 = vx.val := bits_field f 3 rfl rfl rfl
  have h4 : bits _ 16 5 = xb.val := bits_field f 4 rfl rfl rfl
  have h5 : bits _ 21 5 = vd.val := bits_field f 5 rfl rfl rfl
  have h6 : bits _ 26 6 = 22 := bits_field f 6 rfl rfl rfl
  generalize mkWord _ = w at *
  rw [decodeWord_16 h6]
  simp only [decodeOp16, h0]
  simp only [fin8_of h1, h2, Fmt_code, fin32_of h3, fin32_of h4, fin32_of h5, Option.bind_some, Option.map_some]
theorem RoundTrip.vldseg (vd : Reg) (xb : Reg) (vx : Reg) (fmt : Fmt) (m : MaskReg) : RoundTrip.Statement (.vldseg vd xb vx fmt m) := by
  have f : Fits [(2, 3), (m.val, 3), (fmt.code, 5), (vx.val, 5), (xb.val, 5), (vd.val, 5), (22, 6)] := ⟨by decide, m.isLt, Fmt_lt5 fmt, vx.isLt, xb.isLt, vd.isLt, by decide, trivial⟩
  refine roundTrip_of [(2, 3), (m.val, 3), (fmt.code, 5), (vx.val, 5), (xb.val, 5), (vd.val, 5), (22, 6)] _ rfl (by simp only [pack, mkWord]; omega) f rfl fun hl => ?_
  have h0 : bits _ 0 3 = 2 := bits_field f 0 rfl rfl rfl
  have h1 : bits _ 3 3 = m.val := bits_field f 1 rfl rfl rfl
  have h2 : bits _ 6 5 = fmt.code := bits_field f 2 rfl rfl rfl
  have h3 : bits _ 11 5 = vx.val := bits_field f 3 rfl rfl rfl
  have h4 : bits _ 16 5 = xb.val := bits_field f 4 rfl rfl rfl
  have h5 : bits _ 21 5 = vd.val := bits_field f 5 rfl rfl rfl
  have h6 : bits _ 26 6 = 22 := bits_field f 6 rfl rfl rfl
  generalize mkWord _ = w at *
  rw [decodeWord_16 h6]
  simp only [decodeOp16, h0]
  simp only [fin8_of h1, h2, Fmt_code, fin32_of h3, fin32_of h4, fin32_of h5, Option.bind_some, Option.map_some]
theorem RoundTrip.vldx (vd : Reg) (xb : Reg) (vx : Reg) (fmt : Fmt) (m : MaskReg) : RoundTrip.Statement (.vldx vd xb vx fmt m) := by
  have f : Fits [(3, 3), (m.val, 3), (fmt.code, 5), (vx.val, 5), (xb.val, 5), (vd.val, 5), (22, 6)] := ⟨by decide, m.isLt, Fmt_lt5 fmt, vx.isLt, xb.isLt, vd.isLt, by decide, trivial⟩
  refine roundTrip_of [(3, 3), (m.val, 3), (fmt.code, 5), (vx.val, 5), (xb.val, 5), (vd.val, 5), (22, 6)] _ rfl (by simp only [pack, mkWord]; omega) f rfl fun hl => ?_
  have h0 : bits _ 0 3 = 3 := bits_field f 0 rfl rfl rfl
  have h1 : bits _ 3 3 = m.val := bits_field f 1 rfl rfl rfl
  have h2 : bits _ 6 5 = fmt.code := bits_field f 2 rfl rfl rfl
  have h3 : bits _ 11 5 = vx.val := bits_field f 3 rfl rfl rfl
  have h4 : bits _ 16 5 = xb.val := bits_field f 4 rfl rfl rfl
  have h5 : bits _ 21 5 = vd.val := bits_field f 5 rfl rfl rfl
  have h6 : bits _ 26 6 = 22 := bits_field f 6 rfl rfl rfl
  generalize mkWord _ = w at *
  rw [decodeWord_16 h6]
  simp only [decodeOp16, h0]
  simp only [fin8_of h1, h2, Fmt_code, fin32_of h3, fin32_of h4, fin32_of h5, Option.bind_some, Option.map_some]
theorem RoundTrip.vfg (vd : Reg) (xb : Reg) (vx : Reg) (fmt : Fmt) (m : MaskReg) : RoundTrip.Statement (.vfg vd xb vx fmt m) := by
  have f : Fits [(4, 3), (m.val, 3), (fmt.code, 5), (vx.val, 5), (xb.val, 5), (vd.val, 5), (22, 6)] := ⟨by decide, m.isLt, Fmt_lt5 fmt, vx.isLt, xb.isLt, vd.isLt, by decide, trivial⟩
  refine roundTrip_of [(4, 3), (m.val, 3), (fmt.code, 5), (vx.val, 5), (xb.val, 5), (vd.val, 5), (22, 6)] _ rfl (by simp only [pack, mkWord]; omega) f rfl fun hl => ?_
  have h0 : bits _ 0 3 = 4 := bits_field f 0 rfl rfl rfl
  have h1 : bits _ 3 3 = m.val := bits_field f 1 rfl rfl rfl
  have h2 : bits _ 6 5 = fmt.code := bits_field f 2 rfl rfl rfl
  have h3 : bits _ 11 5 = vx.val := bits_field f 3 rfl rfl rfl
  have h4 : bits _ 16 5 = xb.val := bits_field f 4 rfl rfl rfl
  have h5 : bits _ 21 5 = vd.val := bits_field f 5 rfl rfl rfl
  have h6 : bits _ 26 6 = 22 := bits_field f 6 rfl rfl rfl
  generalize mkWord _ = w at *
  rw [decodeWord_16 h6]
  simp only [decodeOp16, h0]
  simp only [fin8_of h1, h2, Fmt_code, fin32_of h3, fin32_of h4, fin32_of h5, Option.bind_some, Option.map_some]
theorem RoundTrip.vldt (vd : Reg) (vr : Reg) (m : MaskReg) : RoundTrip.Statement (.vldt vd vr m) := by
  have f : Fits [(5, 3), (m.val, 3), (0, 5), (vr.val, 5), (0, 5), (vd.val, 5), (22, 6)] := ⟨by decide, m.isLt, by decide, vr.isLt, by decide, vd.isLt, by decide, trivial⟩
  refine roundTrip_of [(5, 3), (m.val, 3), (0, 5), (vr.val, 5), (0, 5), (vd.val, 5), (22, 6)] _ rfl (by simp only [pack, mkWord]; omega) f rfl fun hl => ?_
  have h0 : bits _ 0 3 = 5 := bits_field f 0 rfl rfl rfl
  have h1 : bits _ 3 3 = m.val := bits_field f 1 rfl rfl rfl
  have h2 : bits _ 6 5 = 0 := bits_field f 2 rfl rfl rfl
  have h3 : bits _ 11 5 = vr.val := bits_field f 3 rfl rfl rfl
  have h4 : bits _ 16 5 = 0 := bits_field f 4 rfl rfl rfl
  have h5 : bits _ 21 5 = vd.val := bits_field f 5 rfl rfl rfl
  have h6 : bits _ 26 6 = 22 := bits_field f 6 rfl rfl rfl
  generalize mkWord _ = w at *
  rw [decodeWord_16 h6]
  simp only [decodeOp16, h0, h2, h4, and_self, if_true]
  simp only [fin8_of h1, fin32_of h3, fin32_of h5]
theorem RoundTrip.vst (vd : Reg) (xb : Reg) (vx : Reg) (fmt : Fmt) (m : MaskReg) : RoundTrip.Statement (.vst vd xb vx fmt m) := by
  have f : Fits [(0, 3), (m.val, 3), (fmt.code, 5), (vx.val, 5), (xb.val, 5), (vd.val, 5), (23, 6)] := ⟨by decide, m.isLt, Fmt_lt5 fmt, vx.isLt, xb.isLt, vd.isLt, by decide, trivial⟩
  refine roundTrip_of [(0, 3), (m.val, 3), (fmt.code, 5), (vx.val, 5), (xb.val, 5), (vd.val, 5), (23, 6)] _ rfl (by simp only [pack, mkWord]; omega) f rfl fun hl => ?_
  have h0 : bits _ 0 3 = 0 := bits_field f 0 rfl rfl rfl
  have h1 : bits _ 3 3 = m.val := bits_field f 1 rfl rfl rfl
  have h2 : bits _ 6 5 = fmt.code := bits_field f 2 rfl rfl rfl
  have h3 : bits _ 11 5 = vx.val := bits_field f 3 rfl rfl rfl
  have h4 : bits _ 16 5 = xb.val := bits_field f 4 rfl rfl rfl
  have h5 : bits _ 21 5 = vd.val := bits_field f 5 rfl rfl rfl
  have h6 : bits _ 26 6 = 23 := bits_field f 6 rfl rfl rfl
  generalize mkWord _ = w at *
  rw [decodeWord_17 h6]
  simp only [decodeOp17, h0]
  simp only [fin8_of h1, h2, Fmt_code, fin32_of h3, fin32_of h4, fin32_of h5, Option.bind_some, Option.map_some]
theorem RoundTrip.vsts (vd : Reg) (xb : Reg) (vx : Reg) (fmt : Fmt) (m : MaskReg) : RoundTrip.Statement (.vsts vd xb vx fmt m) := by
  have f : Fits [(1, 3), (m.val, 3), (fmt.code, 5), (vx.val, 5), (xb.val, 5), (vd.val, 5), (23, 6)] := ⟨by decide, m.isLt, Fmt_lt5 fmt, vx.isLt, xb.isLt, vd.isLt, by decide, trivial⟩
  refine roundTrip_of [(1, 3), (m.val, 3), (fmt.code, 5), (vx.val, 5), (xb.val, 5), (vd.val, 5), (23, 6)] _ rfl (by simp only [pack, mkWord]; omega) f rfl fun hl => ?_
  have h0 : bits _ 0 3 = 1 := bits_field f 0 rfl rfl rfl
  have h1 : bits _ 3 3 = m.val := bits_field f 1 rfl rfl rfl
  have h2 : bits _ 6 5 = fmt.code := bits_field f 2 rfl rfl rfl
  have h3 : bits _ 11 5 = vx.val := bits_field f 3 rfl rfl rfl
  have h4 : bits _ 16 5 = xb.val := bits_field f 4 rfl rfl rfl
  have h5 : bits _ 21 5 = vd.val := bits_field f 5 rfl rfl rfl
  have h6 : bits _ 26 6 = 23 := bits_field f 6 rfl rfl rfl
  generalize mkWord _ = w at *
  rw [decodeWord_17 h6]
  simp only [decodeOp17, h0]
  simp only [fin8_of h1, h2, Fmt_code, fin32_of h3, fin32_of h4, fin32_of h5, Option.bind_some, Option.map_some]
theorem RoundTrip.vstseg (vd : Reg) (xb : Reg) (vx : Reg) (fmt : Fmt) (m : MaskReg) : RoundTrip.Statement (.vstseg vd xb vx fmt m) := by
  have f : Fits [(2, 3), (m.val, 3), (fmt.code, 5), (vx.val, 5), (xb.val, 5), (vd.val, 5), (23, 6)] := ⟨by decide, m.isLt, Fmt_lt5 fmt, vx.isLt, xb.isLt, vd.isLt, by decide, trivial⟩
  refine roundTrip_of [(2, 3), (m.val, 3), (fmt.code, 5), (vx.val, 5), (xb.val, 5), (vd.val, 5), (23, 6)] _ rfl (by simp only [pack, mkWord]; omega) f rfl fun hl => ?_
  have h0 : bits _ 0 3 = 2 := bits_field f 0 rfl rfl rfl
  have h1 : bits _ 3 3 = m.val := bits_field f 1 rfl rfl rfl
  have h2 : bits _ 6 5 = fmt.code := bits_field f 2 rfl rfl rfl
  have h3 : bits _ 11 5 = vx.val := bits_field f 3 rfl rfl rfl
  have h4 : bits _ 16 5 = xb.val := bits_field f 4 rfl rfl rfl
  have h5 : bits _ 21 5 = vd.val := bits_field f 5 rfl rfl rfl
  have h6 : bits _ 26 6 = 23 := bits_field f 6 rfl rfl rfl
  generalize mkWord _ = w at *
  rw [decodeWord_17 h6]
  simp only [decodeOp17, h0]
  simp only [fin8_of h1, h2, Fmt_code, fin32_of h3, fin32_of h4, fin32_of h5, Option.bind_some, Option.map_some]
theorem RoundTrip.vstx (vd : Reg) (xb : Reg) (vx : Reg) (fmt : Fmt) (m : MaskReg) : RoundTrip.Statement (.vstx vd xb vx fmt m) := by
  have f : Fits [(3, 3), (m.val, 3), (fmt.code, 5), (vx.val, 5), (xb.val, 5), (vd.val, 5), (23, 6)] := ⟨by decide, m.isLt, Fmt_lt5 fmt, vx.isLt, xb.isLt, vd.isLt, by decide, trivial⟩
  refine roundTrip_of [(3, 3), (m.val, 3), (fmt.code, 5), (vx.val, 5), (xb.val, 5), (vd.val, 5), (23, 6)] _ rfl (by simp only [pack, mkWord]; omega) f rfl fun hl => ?_
  have h0 : bits _ 0 3 = 3 := bits_field f 0 rfl rfl rfl
  have h1 : bits _ 3 3 = m.val := bits_field f 1 rfl rfl rfl
  have h2 : bits _ 6 5 = fmt.code := bits_field f 2 rfl rfl rfl
  have h3 : bits _ 11 5 = vx.val := bits_field f 3 rfl rfl rfl
  have h4 : bits _ 16 5 = xb.val := bits_field f 4 rfl rfl rfl
  have h5 : bits _ 21 5 = vd.val := bits_field f 5 rfl rfl rfl
  have h6 : bits _ 26 6 = 23 := bits_field f 6 rfl rfl rfl
  generalize mkWord _ = w at *
  rw [decodeWord_17 h6]
  simp only [decodeOp17, h0]
  simp only [fin8_of h1, h2, Fmt_code, fin32_of h3, fin32_of h4, fin32_of h5, Option.bind_some, Option.map_some]
theorem RoundTrip.vstxa (vd : Reg) (xb : Reg) (vx : Reg) (fmt : Fmt) (m : MaskReg) : RoundTrip.Statement (.vstxa vd xb vx fmt m) := by
  have f : Fits [(4, 3), (m.val, 3), (fmt.code, 5), (vx.val, 5), (xb.val, 5), (vd.val, 5), (23, 6)] := ⟨by decide, m.isLt, Fmt_lt5 fmt, vx.isLt, xb.isLt, vd.isLt, by decide, trivial⟩
  refine roundTrip_of [(4, 3), (m.val, 3), (fmt.code, 5), (vx.val, 5), (xb.val, 5), (vd.val, 5), (23, 6)] _ rfl (by simp only [pack, mkWord]; omega) f rfl fun hl => ?_
  have h0 : bits _ 0 3 = 4 := bits_field f 0 rfl rfl rfl
  have h1 : bits _ 3 3 = m.val := bits_field f 1 rfl rfl rfl
  have h2 : bits _ 6 5 = fmt.code := bits_field f 2 rfl rfl rfl
  have h3 : bits _ 11 5 = vx.val := bits_field f 3 rfl rfl rfl
  have h4 : bits _ 16 5 = xb.val := bits_field f 4 rfl rfl rfl
  have h5 : bits _ 21 5 = vd.val := bits_field f 5 rfl rfl rfl
  have h6 : bits _ 26 6 = 23 := bits_field f 6 rfl rfl rfl
  generalize mkWord _ = w at *
  rw [decodeWord_17 h6]
  simp only [decodeOp17, h0]
  simp only [fin8_of h1, h2, Fmt_code, fin32_of h3, fin32_of h4, fin32_of h5, Option.bind_some, Option.map_some]
theorem RoundTrip.vstt (vd : Reg) (vr : Reg) (m : MaskReg) : RoundTrip.Statement (.vstt vd vr m) := by
  have f : Fits [(5, 3), (m.val, 3), (0, 5), (vr.val, 5), (0, 5), (vd.val, 5), (23, 6)] := ⟨by decide, m.isLt, by decide, vr.isLt, by decide, vd.isLt, by decide, trivial⟩
  refine roundTrip_of [(5, 3), (m.val, 3), (0, 5), (vr.val, 5), (0, 5), (vd.val, 5), (23, 6)] _ rfl (by simp only [pack, mkWord]; omega) f rfl fun hl => ?_
  have h0 : bits _ 0 3 = 5 := bits_field f 0 rfl rfl rfl
  have h1 : bits _ 3 3 = m.val := bits_field f 1 rfl rfl rfl
  have h2 : bits _ 6 5 = 0 := bits_field f 2 rfl rfl rfl
  have h3 : bits _ 11 5 = vr.val := bits_field f 3 rfl rfl rfl
  have h4 : bits _ 16 5 = 0 := bits_field f 4 rfl rfl rfl
  have h5 : bits _ 21 5 = vd.val := bits_field f 5 rfl rfl rfl
  have h6 : bits _ 26 6 = 23 := bits_field f 6 rfl rfl rfl
  generalize mkWord _ = w at *
  rw [decodeWord_17 h6]
  simp only [decodeOp17, h0, h2, h4, and_self, if_true]
  simp only [fin8_of h1, fin32_of h3, fin32_of h5]
theorem RoundTrip.sbind (n : Fin 8) (a : Reg) : RoundTrip.Statement (.sbind n a) := by
  have f : Fits [(0, 12), (a.val, 5), (0, 4), (n.val, 3), (0, 2), (24, 6)] := ⟨by decide, a.isLt, by decide, n.isLt, by decide, by decide, trivial⟩
  refine roundTrip_of [(0, 12), (a.val, 5), (0, 4), (n.val, 3), (0, 2), (24, 6)] _ rfl (by simp only [pack, mkWord]; omega) f rfl fun hl => ?_
  have h0 : bits _ 0 12 = 0 := bits_field f 0 rfl rfl rfl
  have h1 : bits _ 12 5 = a.val := bits_field f 1 rfl rfl rfl
  have h2 : bits _ 17 4 = 0 := bits_field f 2 rfl rfl rfl
  have h3 : bits _ 21 3 = n.val := bits_field f 3 rfl rfl rfl
  have h4 : bits _ 24 2 = 0 := bits_field f 4 rfl rfl rfl
  have h5 : bits _ 26 6 = 24 := bits_field f 5 rfl rfl rfl
  generalize mkWord _ = w at *
  rw [decodeWord_18 h5]
  simp only [decodeOp18, h0, h2, h4, and_self, if_true]
  simp only [fin32_of h1, fin8_of h3]
theorem RoundTrip.sbindx (n : Fin 8) (a : Reg) (vi : Reg) : RoundTrip.Statement (.sbindx n a vi) := by
  have f : Fits [(0, 7), (vi.val, 5), (a.val, 5), (1, 4), (n.val, 3), (0, 2), (24, 6)] := ⟨by decide, vi.isLt, a.isLt, by decide, n.isLt, by decide, by decide, trivial⟩
  refine roundTrip_of [(0, 7), (vi.val, 5), (a.val, 5), (1, 4), (n.val, 3), (0, 2), (24, 6)] _ rfl (by simp only [pack, mkWord]; omega) f rfl fun hl => ?_
  have h0 : bits _ 0 7 = 0 := bits_field f 0 rfl rfl rfl
  have h1 : bits _ 7 5 = vi.val := bits_field f 1 rfl rfl rfl
  have h2 : bits _ 12 5 = a.val := bits_field f 2 rfl rfl rfl
  have h3 : bits _ 17 4 = 1 := bits_field f 3 rfl rfl rfl
  have h4 : bits _ 21 3 = n.val := bits_field f 4 rfl rfl rfl
  have h5 : bits _ 24 2 = 0 := bits_field f 5 rfl rfl rfl
  have h6 : bits _ 26 6 = 24 := bits_field f 6 rfl rfl rfl
  generalize mkWord _ = w at *
  rw [decodeWord_18 h6]
  simp only [decodeOp18, h0, h3, h5, and_self, if_true]
  simp only [fin32_of h1, fin32_of h2, fin8_of h4]
theorem RoundTrip.sclose (n : Fin 8) : RoundTrip.Statement (.sclose n) := by
  have f : Fits [(0, 17), (2, 4), (n.val, 3), (0, 2), (24, 6)] := ⟨by decide, by decide, n.isLt, by decide, by decide, trivial⟩
  refine roundTrip_of [(0, 17), (2, 4), (n.val, 3), (0, 2), (24, 6)] _ rfl (by simp only [pack, mkWord]; omega) f rfl fun hl => ?_
  have h0 : bits _ 0 17 = 0 := bits_field f 0 rfl rfl rfl
  have h1 : bits _ 17 4 = 2 := bits_field f 1 rfl rfl rfl
  have h2 : bits _ 21 3 = n.val := bits_field f 2 rfl rfl rfl
  have h3 : bits _ 24 2 = 0 := bits_field f 3 rfl rfl rfl
  have h4 : bits _ 26 6 = 24 := bits_field f 4 rfl rfl rfl
  generalize mkWord _ = w at *
  rw [decodeWord_18 h4]
  simp only [decodeOp18, h0, h1, h3, and_self, if_true]
  simp only [fin8_of h2]
theorem RoundTrip.cpy (d : Reg) (a : Reg) : RoundTrip.Statement (.cpy d a) := by
  have f : Fits [(0, 12), (a.val, 5), (3, 4), (d.val, 5), (24, 6)] := ⟨by decide, a.isLt, by decide, d.isLt, by decide, trivial⟩
  refine roundTrip_of [(0, 12), (a.val, 5), (3, 4), (d.val, 5), (24, 6)] _ rfl (by simp only [pack, mkWord]; omega) f rfl fun hl => ?_
  have h0 : bits _ 0 12 = 0 := bits_field f 0 rfl rfl rfl
  have h1 : bits _ 12 5 = a.val := bits_field f 1 rfl rfl rfl
  have h2 : bits _ 17 4 = 3 := bits_field f 2 rfl rfl rfl
  have h3 : bits _ 21 5 = d.val := bits_field f 3 rfl rfl rfl
  have h4 : bits _ 26 6 = 24 := bits_field f 4 rfl rfl rfl
  generalize mkWord _ = w at *
  rw [decodeWord_18 h4]
  simp only [decodeOp18, h0, h2, and_self, if_true]
  simp only [fin32_of h1, fin32_of h3]
theorem RoundTrip.cpyx (d : Reg) (a : Reg) (vi : Reg) : RoundTrip.Statement (.cpyx d a vi) := by
  have f : Fits [(0, 7), (vi.val, 5), (a.val, 5), (4, 4), (d.val, 5), (24, 6)] := ⟨by decide, vi.isLt, a.isLt, by decide, d.isLt, by decide, trivial⟩
  refine roundTrip_of [(0, 7), (vi.val, 5), (a.val, 5), (4, 4), (d.val, 5), (24, 6)] _ rfl (by simp only [pack, mkWord]; omega) f rfl fun hl => ?_
  have h0 : bits _ 0 7 = 0 := bits_field f 0 rfl rfl rfl
  have h1 : bits _ 7 5 = vi.val := bits_field f 1 rfl rfl rfl
  have h2 : bits _ 12 5 = a.val := bits_field f 2 rfl rfl rfl
  have h3 : bits _ 17 4 = 4 := bits_field f 3 rfl rfl rfl
  have h4 : bits _ 21 5 = d.val := bits_field f 4 rfl rfl rfl
  have h5 : bits _ 26 6 = 24 := bits_field f 5 rfl rfl rfl
  generalize mkWord _ = w at *
  rw [decodeWord_18 h5]
  simp only [decodeOp18, h0, h3, and_self, if_true]
  simp only [fin32_of h1, fin32_of h2, fin32_of h4]
theorem RoundTrip.wmpub (n : Fin 4) (a : Reg) : RoundTrip.Statement (.wmpub n a) := by
  have f : Fits [(0, 12), (a.val, 5), (5, 4), (n.val, 2), (0, 3), (24, 6)] := ⟨by decide, a.isLt, by decide, n.isLt, by decide, by decide, trivial⟩
  refine roundTrip_of [(0, 12), (a.val, 5), (5, 4), (n.val, 2), (0, 3), (24, 6)] _ rfl (by simp only [pack, mkWord]; omega) f rfl fun hl => ?_
  have h0 : bits _ 0 12 = 0 := bits_field f 0 rfl rfl rfl
  have h1 : bits _ 12 5 = a.val := bits_field f 1 rfl rfl rfl
  have h2 : bits _ 17 4 = 5 := bits_field f 2 rfl rfl rfl
  have h3 : bits _ 21 2 = n.val := bits_field f 3 rfl rfl rfl
  have h4 : bits _ 23 3 = 0 := bits_field f 4 rfl rfl rfl
  have h5 : bits _ 26 6 = 24 := bits_field f 5 rfl rfl rfl
  generalize mkWord _ = w at *
  rw [decodeWord_18 h5]
  simp only [decodeOp18, h0, h2, h4, and_self, if_true]
  simp only [fin32_of h1, fin4_of h3]
theorem RoundTrip.wmbind (n : Fin 4) (a : Reg) (cls : PubCls) : RoundTrip.Statement (.wmbind n a cls) := by
  have f : Fits [(cls.code, 2), (0, 10), (a.val, 5), (6, 4), (n.val, 2), (0, 3), (24, 6)] := ⟨PubCls_lt2 cls, by decide, a.isLt, by decide, n.isLt, by decide, by decide, trivial⟩
  refine roundTrip_of [(cls.code, 2), (0, 10), (a.val, 5), (6, 4), (n.val, 2), (0, 3), (24, 6)] _ rfl (by simp only [pack, mkWord]; omega) f rfl fun hl => ?_
  have h0 : bits _ 0 2 = cls.code := bits_field f 0 rfl rfl rfl
  have h1 : bits _ 2 10 = 0 := bits_field f 1 rfl rfl rfl
  have h2 : bits _ 12 5 = a.val := bits_field f 2 rfl rfl rfl
  have h3 : bits _ 17 4 = 6 := bits_field f 3 rfl rfl rfl
  have h4 : bits _ 21 2 = n.val := bits_field f 4 rfl rfl rfl
  have h5 : bits _ 23 3 = 0 := bits_field f 5 rfl rfl rfl
  have h6 : bits _ 26 6 = 24 := bits_field f 6 rfl rfl rfl
  generalize mkWord _ = w at *
  rw [decodeWord_18 h6]
  simp only [decodeOp18, h1, h3, h5, and_self, if_true]
  simp only [h0, PubCls_code, fin32_of h2, fin4_of h4, Option.bind_some, Option.map_some]
theorem RoundTrip.pfetch (a : Reg) (lvl : PfLvl) : RoundTrip.Statement (.pfetch a lvl) := by
  have f : Fits [(lvl.code, 2), (0, 10), (a.val, 5), (7, 4), (0, 5), (24, 6)] := ⟨PfLvl_lt2 lvl, by decide, a.isLt, by decide, by decide, by decide, trivial⟩
  refine roundTrip_of [(lvl.code, 2), (0, 10), (a.val, 5), (7, 4), (0, 5), (24, 6)] _ rfl (by simp only [pack, mkWord]; omega) f rfl fun hl => ?_
  have h0 : bits _ 0 2 = lvl.code := bits_field f 0 rfl rfl rfl
  have h1 : bits _ 2 10 = 0 := bits_field f 1 rfl rfl rfl
  have h2 : bits _ 12 5 = a.val := bits_field f 2 rfl rfl rfl
  have h3 : bits _ 17 4 = 7 := bits_field f 3 rfl rfl rfl
  have h4 : bits _ 21 5 = 0 := bits_field f 4 rfl rfl rfl
  have h5 : bits _ 26 6 = 24 := bits_field f 5 rfl rfl rfl
  generalize mkWord _ = w at *
  rw [decodeWord_18 h5]
  simp only [decodeOp18, h1, h3, h4, and_self, if_true]
  simp only [h0, PfLvl_code, fin32_of h2, Option.bind_some, Option.map_some]
theorem RoundTrip.cflush (a : Reg) : RoundTrip.Statement (.cflush a) := by
  have f : Fits [(0, 12), (a.val, 5), (8, 4), (0, 5), (24, 6)] := ⟨by decide, a.isLt, by decide, by decide, by decide, trivial⟩
  refine roundTrip_of [(0, 12), (a.val, 5), (8, 4), (0, 5), (24, 6)] _ rfl (by simp only [pack, mkWord]; omega) f rfl fun hl => ?_
  have h0 : bits _ 0 12 = 0 := bits_field f 0 rfl rfl rfl
  have h1 : bits _ 12 5 = a.val := bits_field f 1 rfl rfl rfl
  have h2 : bits _ 17 4 = 8 := bits_field f 2 rfl rfl rfl
  have h3 : bits _ 21 5 = 0 := bits_field f 3 rfl rfl rfl
  have h4 : bits _ 26 6 = 24 := bits_field f 4 rfl rfl rfl
  generalize mkWord _ = w at *
  rw [decodeWord_18 h4]
  simp only [decodeOp18, h0, h2, h3, and_self, if_true]
  simp only [fin32_of h1]
theorem RoundTrip.rput (d : Reg) (a : Reg) : RoundTrip.Statement (.rput d a) := by
  have f : Fits [(0, 12), (a.val, 5), (0, 4), (d.val, 5), (25, 6)] := ⟨by decide, a.isLt, by decide, d.isLt, by decide, trivial⟩
  refine roundTrip_of [(0, 12), (a.val, 5), (0, 4), (d.val, 5), (25, 6)] _ rfl (by simp only [pack, mkWord]; omega) f rfl fun hl => ?_
  have h0 : bits _ 0 12 = 0 := bits_field f 0 rfl rfl rfl
  have h1 : bits _ 12 5 = a.val := bits_field f 1 rfl rfl rfl
  have h2 : bits _ 17 4 = 0 := bits_field f 2 rfl rfl rfl
  have h3 : bits _ 21 5 = d.val := bits_field f 3 rfl rfl rfl
  have h4 : bits _ 26 6 = 25 := bits_field f 4 rfl rfl rfl
  generalize mkWord _ = w at *
  rw [decodeWord_19 h4]
  simp only [decodeOp19, h0, h2, and_self, if_true]
  simp only [fin32_of h1, fin32_of h3]
theorem RoundTrip.rget (d : Reg) (a : Reg) : RoundTrip.Statement (.rget d a) := by
  have f : Fits [(0, 12), (a.val, 5), (1, 4), (d.val, 5), (25, 6)] := ⟨by decide, a.isLt, by decide, d.isLt, by decide, trivial⟩
  refine roundTrip_of [(0, 12), (a.val, 5), (1, 4), (d.val, 5), (25, 6)] _ rfl (by simp only [pack, mkWord]; omega) f rfl fun hl => ?_
  have h0 : bits _ 0 12 = 0 := bits_field f 0 rfl rfl rfl
  have h1 : bits _ 12 5 = a.val := bits_field f 1 rfl rfl rfl
  have h2 : bits _ 17 4 = 1 := bits_field f 2 rfl rfl rfl
  have h3 : bits _ 21 5 = d.val := bits_field f 3 rfl rfl rfl
  have h4 : bits _ 26 6 = 25 := bits_field f 4 rfl rfl rfl
  generalize mkWord _ = w at *
  rw [decodeWord_19 h4]
  simp only [decodeOp19, h0, h2, and_self, if_true]
  simp only [fin32_of h1, fin32_of h3]
theorem RoundTrip.ramo (d : Reg) (a : Reg) (b : Reg) (op : AmoSel) (od : Order) : RoundTrip.Statement (.ramo d a b op od) := by
  have f : Fits [(od.code, 2), (op.code, 5), (b.val, 5), (a.val, 5), (2, 4), (d.val, 5), (25, 6)] := ⟨Order_lt2 od, AmoSel_lt5 op, b.isLt, a.isLt, by decide, d.isLt, by decide, trivial⟩
  refine roundTrip_of [(od.code, 2), (op.code, 5), (b.val, 5), (a.val, 5), (2, 4), (d.val, 5), (25, 6)] _ rfl (by simp only [pack, mkWord]; omega) f rfl fun hl => ?_
  have h0 : bits _ 0 2 = od.code := bits_field f 0 rfl rfl rfl
  have h1 : bits _ 2 5 = op.code := bits_field f 1 rfl rfl rfl
  have h2 : bits _ 7 5 = b.val := bits_field f 2 rfl rfl rfl
  have h3 : bits _ 12 5 = a.val := bits_field f 3 rfl rfl rfl
  have h4 : bits _ 17 4 = 2 := bits_field f 4 rfl rfl rfl
  have h5 : bits _ 21 5 = d.val := bits_field f 5 rfl rfl rfl
  have h6 : bits _ 26 6 = 25 := bits_field f 6 rfl rfl rfl
  generalize mkWord _ = w at *
  rw [decodeWord_19 h6]
  simp only [decodeOp19, h4]
  simp only [h0, Order_code, h1, AmoSel_code op hl, fin32_of h2, fin32_of h3, fin32_of h5, Option.bind_some, Option.map_some]
theorem RoundTrip.coll (d : Reg) (a : Reg) : RoundTrip.Statement (.coll d a) := by
  have f : Fits [(0, 12), (a.val, 5), (3, 4), (d.val, 5), (25, 6)] := ⟨by decide, a.isLt, by decide, d.isLt, by decide, trivial⟩
  refine roundTrip_of [(0, 12), (a.val, 5), (3, 4), (d.val, 5), (25, 6)] _ rfl (by simp only [pack, mkWord]; omega) f rfl fun hl => ?_
  have h0 : bits _ 0 12 = 0 := bits_field f 0 rfl rfl rfl
  have h1 : bits _ 12 5 = a.val := bits_field f 1 rfl rfl rfl
  have h2 : bits _ 17 4 = 3 := bits_field f 2 rfl rfl rfl
  have h3 : bits _ 21 5 = d.val := bits_field f 3 rfl rfl rfl
  have h4 : bits _ 26 6 = 25 := bits_field f 4 rfl rfl rfl
  generalize mkWord _ = w at *
  rw [decodeWord_19 h4]
  simp only [decodeOp19, h0, h2, and_self, if_true]
  simp only [fin32_of h1, fin32_of h3]
theorem RoundTrip.vadd (vd : Reg) (va : Reg) (src : Src) (m : MaskReg) : RoundTrip.Statement (.vadd vd va src m) := by
  have f : Fits [(0, 6), (src.kind, 2), (m.val, 3), (src.field, 5), (va.val, 5), (vd.val, 5), (32, 6)] := ⟨by decide, Src_kind_lt src, m.isLt, Src_field_lt src, va.isLt, vd.isLt, by decide, trivial⟩
  refine roundTrip_of [(0, 6), (src.kind, 2), (m.val, 3), (src.field, 5), (va.val, 5), (vd.val, 5), (32, 6)] _ rfl (by simp only [pack, mkWord]; omega) f rfl fun hl => ?_
  have h0 : bits _ 0 6 = 0 := bits_field f 0 rfl rfl rfl
  have h1 : bits _ 6 2 = src.kind := bits_field f 1 rfl rfl rfl
  have h2 : bits _ 8 3 = m.val := bits_field f 2 rfl rfl rfl
  have h3 : bits _ 11 5 = src.field := bits_field f 3 rfl rfl rfl
  have h4 : bits _ 16 5 = va.val := bits_field f 4 rfl rfl rfl
  have h5 : bits _ 21 5 = vd.val := bits_field f 5 rfl rfl rfl
  have h6 : bits _ 26 6 = 32 := bits_field f 6 rfl rfl rfl
  generalize mkWord _ = w at *
  rw [decodeWord_20 h6]
  simp only [decodeOp20, h0]
  simp only [h1, fin8_of h2, h3, Src_code, fin32_of h4, fin32_of h5, Option.bind_some, Option.map_some]
theorem RoundTrip.vsub (vd : Reg) (va : Reg) (src : Src) (m : MaskReg) : RoundTrip.Statement (.vsub vd va src m) := by
  have f : Fits [(1, 6), (src.kind, 2), (m.val, 3), (src.field, 5), (va.val, 5), (vd.val, 5), (32, 6)] := ⟨by decide, Src_kind_lt src, m.isLt, Src_field_lt src, va.isLt, vd.isLt, by decide, trivial⟩
  refine roundTrip_of [(1, 6), (src.kind, 2), (m.val, 3), (src.field, 5), (va.val, 5), (vd.val, 5), (32, 6)] _ rfl (by simp only [pack, mkWord]; omega) f rfl fun hl => ?_
  have h0 : bits _ 0 6 = 1 := bits_field f 0 rfl rfl rfl
  have h1 : bits _ 6 2 = src.kind := bits_field f 1 rfl rfl rfl
  have h2 : bits _ 8 3 = m.val := bits_field f 2 rfl rfl rfl
  have h3 : bits _ 11 5 = src.field := bits_field f 3 rfl rfl rfl
  have h4 : bits _ 16 5 = va.val := bits_field f 4 rfl rfl rfl
  have h5 : bits _ 21 5 = vd.val := bits_field f 5 rfl rfl rfl
  have h6 : bits _ 26 6 = 32 := bits_field f 6 rfl rfl rfl
  generalize mkWord _ = w at *
  rw [decodeWord_20 h6]
  simp only [decodeOp20, h0]
  simp only [h1, fin8_of h2, h3, Src_code, fin32_of h4, fin32_of h5, Option.bind_some, Option.map_some]
theorem RoundTrip.vmul (vd : Reg) (va : Reg) (src : Src) (m : MaskReg) : RoundTrip.Statement (.vmul vd va src m) := by
  have f : Fits [(2, 6), (src.kind, 2), (m.val, 3), (src.field, 5), (va.val, 5), (vd.val, 5), (32, 6)] := ⟨by decide, Src_kind_lt src, m.isLt, Src_field_lt src, va.isLt, vd.isLt, by decide, trivial⟩
  refine roundTrip_of [(2, 6), (src.kind, 2), (m.val, 3), (src.field, 5), (va.val, 5), (vd.val, 5), (32, 6)] _ rfl (by simp only [pack, mkWord]; omega) f rfl fun hl => ?_
  have h0 : bits _ 0 6 = 2 := bits_field f 0 rfl rfl rfl
  have h1 : bits _ 6 2 = src.kind := bits_field f 1 rfl rfl rfl
  have h2 : bits _ 8 3 = m.val := bits_field f 2 rfl rfl rfl
  have h3 : bits _ 11 5 = src.field := bits_field f 3 rfl rfl rfl
  have h4 : bits _ 16 5 = va.val := bits_field f 4 rfl rfl rfl
  have h5 : bits _ 21 5 = vd.val := bits_field f 5 rfl rfl rfl
  have h6 : bits _ 26 6 = 32 := bits_field f 6 rfl rfl rfl
  generalize mkWord _ = w at *
  rw [decodeWord_20 h6]
  simp only [decodeOp20, h0]
  simp only [h1, fin8_of h2, h3, Src_code, fin32_of h4, fin32_of h5, Option.bind_some, Option.map_some]
theorem RoundTrip.vmulhS (vd : Reg) (va : Reg) (src : Src) (m : MaskReg) : RoundTrip.Statement (.vmulhS vd va src m) := by
  have f : Fits [(3, 6), (src.kind, 2), (m.val, 3), (src.field, 5), (va.val, 5), (vd.val, 5), (32, 6)] := ⟨by decide, Src_kind_lt src, m.isLt, Src_field_lt src, va.isLt, vd.isLt, by decide, trivial⟩
  refine roundTrip_of [(3, 6), (src.kind, 2), (m.val, 3), (src.field, 5), (va.val, 5), (vd.val, 5), (32, 6)] _ rfl (by simp only [pack, mkWord]; omega) f rfl fun hl => ?_
  have h0 : bits _ 0 6 = 3 := bits_field f 0 rfl rfl rfl
  have h1 : bits _ 6 2 = src.kind := bits_field f 1 rfl rfl rfl
  have h2 : bits _ 8 3 = m.val := bits_field f 2 rfl rfl rfl
  have h3 : bits _ 11 5 = src.field := bits_field f 3 rfl rfl rfl
  have h4 : bits _ 16 5 = va.val := bits_field f 4 rfl rfl rfl
  have h5 : bits _ 21 5 = vd.val := bits_field f 5 rfl rfl rfl
  have h6 : bits _ 26 6 = 32 := bits_field f 6 rfl rfl rfl
  generalize mkWord _ = w at *
  rw [decodeWord_20 h6]
  simp only [decodeOp20, h0]
  simp only [h1, fin8_of h2, h3, Src_code, fin32_of h4, fin32_of h5, Option.bind_some, Option.map_some]
theorem RoundTrip.vmulhN (vd : Reg) (va : Reg) (src : Src) (m : MaskReg) : RoundTrip.Statement (.vmulhN vd va src m) := by
  have f : Fits [(4, 6), (src.kind, 2), (m.val, 3), (src.field, 5), (va.val, 5), (vd.val, 5), (32, 6)] := ⟨by decide, Src_kind_lt src, m.isLt, Src_field_lt src, va.isLt, vd.isLt, by decide, trivial⟩
  refine roundTrip_of [(4, 6), (src.kind, 2), (m.val, 3), (src.field, 5), (va.val, 5), (vd.val, 5), (32, 6)] _ rfl (by simp only [pack, mkWord]; omega) f rfl fun hl => ?_
  have h0 : bits _ 0 6 = 4 := bits_field f 0 rfl rfl rfl
  have h1 : bits _ 6 2 = src.kind := bits_field f 1 rfl rfl rfl
  have h2 : bits _ 8 3 = m.val := bits_field f 2 rfl rfl rfl
  have h3 : bits _ 11 5 = src.field := bits_field f 3 rfl rfl rfl
  have h4 : bits _ 16 5 = va.val := bits_field f 4 rfl rfl rfl
  have h5 : bits _ 21 5 = vd.val := bits_field f 5 rfl rfl rfl
  have h6 : bits _ 26 6 = 32 := bits_field f 6 rfl rfl rfl
  generalize mkWord _ = w at *
  rw [decodeWord_20 h6]
  simp only [decodeOp20, h0]
  simp only [h1, fin8_of h2, h3, Src_code, fin32_of h4, fin32_of h5, Option.bind_some, Option.map_some]
theorem RoundTrip.vminS (vd : Reg) (va : Reg) (src : Src) (m : MaskReg) : RoundTrip.Statement (.vminS vd va src m) := by
  have f : Fits [(5, 6), (src.kind, 2), (m.val, 3), (src.field, 5), (va.val, 5), (vd.val, 5), (32, 6)] := ⟨by decide, Src_kind_lt src, m.isLt, Src_field_lt src, va.isLt, vd.isLt, by decide, trivial⟩
  refine roundTrip_of [(5, 6), (src.kind, 2), (m.val, 3), (src.field, 5), (va.val, 5), (vd.val, 5), (32, 6)] _ rfl (by simp only [pack, mkWord]; omega) f rfl fun hl => ?_
  have h0 : bits _ 0 6 = 5 := bits_field f 0 rfl rfl rfl
  have h1 : bits _ 6 2 = src.kind := bits_field f 1 rfl rfl rfl
  have h2 : bits _ 8 3 = m.val := bits_field f 2 rfl rfl rfl
  have h3 : bits _ 11 5 = src.field := bits_field f 3 rfl rfl rfl
  have h4 : bits _ 16 5 = va.val := bits_field f 4 rfl rfl rfl
  have h5 : bits _ 21 5 = vd.val := bits_field f 5 rfl rfl rfl
  have h6 : bits _ 26 6 = 32 := bits_field f 6 rfl rfl rfl
  generalize mkWord _ = w at *
  rw [decodeWord_20 h6]
  simp only [decodeOp20, h0]
  simp only [h1, fin8_of h2, h3, Src_code, fin32_of h4, fin32_of h5, Option.bind_some, Option.map_some]
theorem RoundTrip.vminN (vd : Reg) (va : Reg) (src : Src) (m : MaskReg) : RoundTrip.Statement (.vminN vd va src m) := by
  have f : Fits [(6, 6), (src.kind, 2), (m.val, 3), (src.field, 5), (va.val, 5), (vd.val, 5), (32, 6)] := ⟨by decide, Src_kind_lt src, m.isLt, Src_field_lt src, va.isLt, vd.isLt, by decide, trivial⟩
  refine roundTrip_of [(6, 6), (src.kind, 2), (m.val, 3), (src.field, 5), (va.val, 5), (vd.val, 5), (32, 6)] _ rfl (by simp only [pack, mkWord]; omega) f rfl fun hl => ?_
  have h0 : bits _ 0 6 = 6 := bits_field f 0 rfl rfl rfl
  have h1 : bits _ 6 2 = src.kind := bits_field f 1 rfl rfl rfl
  have h2 : bits _ 8 3 = m.val := bits_field f 2 rfl rfl rfl
  have h3 : bits _ 11 5 = src.field := bits_field f 3 rfl rfl rfl
  have h4 : bits _ 16 5 = va.val := bits_field f 4 rfl rfl rfl
  have h5 : bits _ 21 5 = vd.val := bits_field f 5 rfl rfl rfl
  have h6 : bits _ 26 6 = 32 := bits_field f 6 rfl rfl rfl
  generalize mkWord _ = w at *
  rw [decodeWord_20 h6]
  simp only [decodeOp20, h0]
  simp only [h1, fin8_of h2, h3, Src_code, fin32_of h4, fin32_of h5, Option.bind_some, Option.map_some]
theorem RoundTrip.vmaxS (vd : Reg) (va : Reg) (src : Src) (m : MaskReg) : RoundTrip.Statement (.vmaxS vd va src m) := by
  have f : Fits [(7, 6), (src.kind, 2), (m.val, 3), (src.field, 5), (va.val, 5), (vd.val, 5), (32, 6)] := ⟨by decide, Src_kind_lt src, m.isLt, Src_field_lt src, va.isLt, vd.isLt, by decide, trivial⟩
  refine roundTrip_of [(7, 6), (src.kind, 2), (m.val, 3), (src.field, 5), (va.val, 5), (vd.val, 5), (32, 6)] _ rfl (by simp only [pack, mkWord]; omega) f rfl fun hl => ?_
  have h0 : bits _ 0 6 = 7 := bits_field f 0 rfl rfl rfl
  have h1 : bits _ 6 2 = src.kind := bits_field f 1 rfl rfl rfl
  have h2 : bits _ 8 3 = m.val := bits_field f 2 rfl rfl rfl
  have h3 : bits _ 11 5 = src.field := bits_field f 3 rfl rfl rfl
  have h4 : bits _ 16 5 = va.val := bits_field f 4 rfl rfl rfl
  have h5 : bits _ 21 5 = vd.val := bits_field f 5 rfl rfl rfl
  have h6 : bits _ 26 6 = 32 := bits_field f 6 rfl rfl rfl
  generalize mkWord _ = w at *
  rw [decodeWord_20 h6]
  simp only [decodeOp20, h0]
  simp only [h1, fin8_of h2, h3, Src_code, fin32_of h4, fin32_of h5, Option.bind_some, Option.map_some]
theorem RoundTrip.vmaxN (vd : Reg) (va : Reg) (src : Src) (m : MaskReg) : RoundTrip.Statement (.vmaxN vd va src m) := by
  have f : Fits [(8, 6), (src.kind, 2), (m.val, 3), (src.field, 5), (va.val, 5), (vd.val, 5), (32, 6)] := ⟨by decide, Src_kind_lt src, m.isLt, Src_field_lt src, va.isLt, vd.isLt, by decide, trivial⟩
  refine roundTrip_of [(8, 6), (src.kind, 2), (m.val, 3), (src.field, 5), (va.val, 5), (vd.val, 5), (32, 6)] _ rfl (by simp only [pack, mkWord]; omega) f rfl fun hl => ?_
  have h0 : bits _ 0 6 = 8 := bits_field f 0 rfl rfl rfl
  have h1 : bits _ 6 2 = src.kind := bits_field f 1 rfl rfl rfl
  have h2 : bits _ 8 3 = m.val := bits_field f 2 rfl rfl rfl
  have h3 : bits _ 11 5 = src.field := bits_field f 3 rfl rfl rfl
  have h4 : bits _ 16 5 = va.val := bits_field f 4 rfl rfl rfl
  have h5 : bits _ 21 5 = vd.val := bits_field f 5 rfl rfl rfl
  have h6 : bits _ 26 6 = 32 := bits_field f 6 rfl rfl rfl
  generalize mkWord _ = w at *
  rw [decodeWord_20 h6]
  simp only [decodeOp20, h0]
  simp only [h1, fin8_of h2, h3, Src_code, fin32_of h4, fin32_of h5, Option.bind_some, Option.map_some]
theorem RoundTrip.vand (vd : Reg) (va : Reg) (src : Src) (m : MaskReg) : RoundTrip.Statement (.vand vd va src m) := by
  have f : Fits [(9, 6), (src.kind, 2), (m.val, 3), (src.field, 5), (va.val, 5), (vd.val, 5), (32, 6)] := ⟨by decide, Src_kind_lt src, m.isLt, Src_field_lt src, va.isLt, vd.isLt, by decide, trivial⟩
  refine roundTrip_of [(9, 6), (src.kind, 2), (m.val, 3), (src.field, 5), (va.val, 5), (vd.val, 5), (32, 6)] _ rfl (by simp only [pack, mkWord]; omega) f rfl fun hl => ?_
  have h0 : bits _ 0 6 = 9 := bits_field f 0 rfl rfl rfl
  have h1 : bits _ 6 2 = src.kind := bits_field f 1 rfl rfl rfl
  have h2 : bits _ 8 3 = m.val := bits_field f 2 rfl rfl rfl
  have h3 : bits _ 11 5 = src.field := bits_field f 3 rfl rfl rfl
  have h4 : bits _ 16 5 = va.val := bits_field f 4 rfl rfl rfl
  have h5 : bits _ 21 5 = vd.val := bits_field f 5 rfl rfl rfl
  have h6 : bits _ 26 6 = 32 := bits_field f 6 rfl rfl rfl
  generalize mkWord _ = w at *
  rw [decodeWord_20 h6]
  simp only [decodeOp20, h0]
  simp only [h1, fin8_of h2, h3, Src_code, fin32_of h4, fin32_of h5, Option.bind_some, Option.map_some]
theorem RoundTrip.vor (vd : Reg) (va : Reg) (src : Src) (m : MaskReg) : RoundTrip.Statement (.vor vd va src m) := by
  have f : Fits [(10, 6), (src.kind, 2), (m.val, 3), (src.field, 5), (va.val, 5), (vd.val, 5), (32, 6)] := ⟨by decide, Src_kind_lt src, m.isLt, Src_field_lt src, va.isLt, vd.isLt, by decide, trivial⟩
  refine roundTrip_of [(10, 6), (src.kind, 2), (m.val, 3), (src.field, 5), (va.val, 5), (vd.val, 5), (32, 6)] _ rfl (by simp only [pack, mkWord]; omega) f rfl fun hl => ?_
  have h0 : bits _ 0 6 = 10 := bits_field f 0 rfl rfl rfl
  have h1 : bits _ 6 2 = src.kind := bits_field f 1 rfl rfl rfl
  have h2 : bits _ 8 3 = m.val := bits_field f 2 rfl rfl rfl
  have h3 : bits _ 11 5 = src.field := bits_field f 3 rfl rfl rfl
  have h4 : bits _ 16 5 = va.val := bits_field f 4 rfl rfl rfl
  have h5 : bits _ 21 5 = vd.val := bits_field f 5 rfl rfl rfl
  have h6 : bits _ 26 6 = 32 := bits_field f 6 rfl rfl rfl
  generalize mkWord _ = w at *
  rw [decodeWord_20 h6]
  simp only [decodeOp20, h0]
  simp only [h1, fin8_of h2, h3, Src_code, fin32_of h4, fin32_of h5, Option.bind_some, Option.map_some]
theorem RoundTrip.vxor (vd : Reg) (va : Reg) (src : Src) (m : MaskReg) : RoundTrip.Statement (.vxor vd va src m) := by
  have f : Fits [(11, 6), (src.kind, 2), (m.val, 3), (src.field, 5), (va.val, 5), (vd.val, 5), (32, 6)] := ⟨by decide, Src_kind_lt src, m.isLt, Src_field_lt src, va.isLt, vd.isLt, by decide, trivial⟩
  refine roundTrip_of [(11, 6), (src.kind, 2), (m.val, 3), (src.field, 5), (va.val, 5), (vd.val, 5), (32, 6)] _ rfl (by simp only [pack, mkWord]; omega) f rfl fun hl => ?_
  have h0 : bits _ 0 6 = 11 := bits_field f 0 rfl rfl rfl
  have h1 : bits _ 6 2 = src.kind := bits_field f 1 rfl rfl rfl
  have h2 : bits _ 8 3 = m.val := bits_field f 2 rfl rfl rfl
  have h3 : bits _ 11 5 = src.field := bits_field f 3 rfl rfl rfl
  have h4 : bits _ 16 5 = va.val := bits_field f 4 rfl rfl rfl
  have h5 : bits _ 21 5 = vd.val := bits_field f 5 rfl rfl rfl
  have h6 : bits _ 26 6 = 32 := bits_field f 6 rfl rfl rfl
  generalize mkWord _ = w at *
  rw [decodeWord_20 h6]
  simp only [decodeOp20, h0]
  simp only [h1, fin8_of h2, h3, Src_code, fin32_of h4, fin32_of h5, Option.bind_some, Option.map_some]
theorem RoundTrip.vsll (vd : Reg) (va : Reg) (src : Src) (m : MaskReg) : RoundTrip.Statement (.vsll vd va src m) := by
  have f : Fits [(12, 6), (src.kind, 2), (m.val, 3), (src.field, 5), (va.val, 5), (vd.val, 5), (32, 6)] := ⟨by decide, Src_kind_lt src, m.isLt, Src_field_lt src, va.isLt, vd.isLt, by decide, trivial⟩
  refine roundTrip_of [(12, 6), (src.kind, 2), (m.val, 3), (src.field, 5), (va.val, 5), (vd.val, 5), (32, 6)] _ rfl (by simp only [pack, mkWord]; omega) f rfl fun hl => ?_
  have h0 : bits _ 0 6 = 12 := bits_field f 0 rfl rfl rfl
  have h1 : bits _ 6 2 = src.kind := bits_field f 1 rfl rfl rfl
  have h2 : bits _ 8 3 = m.val := bits_field f 2 rfl rfl rfl
  have h3 : bits _ 11 5 = src.field := bits_field f 3 rfl rfl rfl
  have h4 : bits _ 16 5 = va.val := bits_field f 4 rfl rfl rfl
  have h5 : bits _ 21 5 = vd.val := bits_field f 5 rfl rfl rfl
  have h6 : bits _ 26 6 = 32 := bits_field f 6 rfl rfl rfl
  generalize mkWord _ = w at *
  rw [decodeWord_20 h6]
  simp only [decodeOp20, h0]
  simp only [h1, fin8_of h2, h3, Src_code, fin32_of h4, fin32_of h5, Option.bind_some, Option.map_some]
theorem RoundTrip.vsrl (vd : Reg) (va : Reg) (src : Src) (m : MaskReg) : RoundTrip.Statement (.vsrl vd va src m) := by
  have f : Fits [(13, 6), (src.kind, 2), (m.val, 3), (src.field, 5), (va.val, 5), (vd.val, 5), (32, 6)] := ⟨by decide, Src_kind_lt src, m.isLt, Src_field_lt src, va.isLt, vd.isLt, by decide, trivial⟩
  refine roundTrip_of [(13, 6), (src.kind, 2), (m.val, 3), (src.field, 5), (va.val, 5), (vd.val, 5), (32, 6)] _ rfl (by simp only [pack, mkWord]; omega) f rfl fun hl => ?_
  have h0 : bits _ 0 6 = 13 := bits_field f 0 rfl rfl rfl
  have h1 : bits _ 6 2 = src.kind := bits_field f 1 rfl rfl rfl
  have h2 : bits _ 8 3 = m.val := bits_field f 2 rfl rfl rfl
  have h3 : bits _ 11 5 = src.field := bits_field f 3 rfl rfl rfl
  have h4 : bits _ 16 5 = va.val := bits_field f 4 rfl rfl rfl
  have h5 : bits _ 21 5 = vd.val := bits_field f 5 rfl rfl rfl
  have h6 : bits _ 26 6 = 32 := bits_field f 6 rfl rfl rfl
  generalize mkWord _ = w at *
  rw [decodeWord_20 h6]
  simp only [decodeOp20, h0]
  simp only [h1, fin8_of h2, h3, Src_code, fin32_of h4, fin32_of h5, Option.bind_some, Option.map_some]
theorem RoundTrip.vsra (vd : Reg) (va : Reg) (src : Src) (m : MaskReg) : RoundTrip.Statement (.vsra vd va src m) := by
  have f : Fits [(14, 6), (src.kind, 2), (m.val, 3), (src.field, 5), (va.val, 5), (vd.val, 5), (32, 6)] := ⟨by decide, Src_kind_lt src, m.isLt, Src_field_lt src, va.isLt, vd.isLt, by decide, trivial⟩
  refine roundTrip_of [(14, 6), (src.kind, 2), (m.val, 3), (src.field, 5), (va.val, 5), (vd.val, 5), (32, 6)] _ rfl (by simp only [pack, mkWord]; omega) f rfl fun hl => ?_
  have h0 : bits _ 0 6 = 14 := bits_field f 0 rfl rfl rfl
  have h1 : bits _ 6 2 = src.kind := bits_field f 1 rfl rfl rfl
  have h2 : bits _ 8 3 = m.val := bits_field f 2 rfl rfl rfl
  have h3 : bits _ 11 5 = src.field := bits_field f 3 rfl rfl rfl
  have h4 : bits _ 16 5 = va.val := bits_field f 4 rfl rfl rfl
  have h5 : bits _ 21 5 = vd.val := bits_field f 5 rfl rfl rfl
  have h6 : bits _ 26 6 = 32 := bits_field f 6 rfl rfl rfl
  generalize mkWord _ = w at *
  rw [decodeWord_20 h6]
  simp only [decodeOp20, h0]
  simp only [h1, fin8_of h2, h3, Src_code, fin32_of h4, fin32_of h5, Option.bind_some, Option.map_some]
theorem RoundTrip.vclz (vd : Reg) (src : Src) (m : MaskReg) : RoundTrip.Statement (.vclz vd src m) := by
  have f : Fits [(15, 6), (src.kind, 2), (m.val, 3), (src.field, 5), (0, 5), (vd.val, 5), (32, 6)] := ⟨by decide, Src_kind_lt src, m.isLt, Src_field_lt src, by decide, vd.isLt, by decide, trivial⟩
  refine roundTrip_of [(15, 6), (src.kind, 2), (m.val, 3), (src.field, 5), (0, 5), (vd.val, 5), (32, 6)] _ rfl (by simp only [pack, mkWord]; omega) f rfl fun hl => ?_
  have h0 : bits _ 0 6 = 15 := bits_field f 0 rfl rfl rfl
  have h1 : bits _ 6 2 = src.kind := bits_field f 1 rfl rfl rfl
  have h2 : bits _ 8 3 = m.val := bits_field f 2 rfl rfl rfl
  have h3 : bits _ 11 5 = src.field := bits_field f 3 rfl rfl rfl
  have h4 : bits _ 16 5 = 0 := bits_field f 4 rfl rfl rfl
  have h5 : bits _ 21 5 = vd.val := bits_field f 5 rfl rfl rfl
  have h6 : bits _ 26 6 = 32 := bits_field f 6 rfl rfl rfl
  generalize mkWord _ = w at *
  rw [decodeWord_20 h6]
  simp only [decodeOp20, h0, h4, and_self, if_true]
  simp only [h1, fin8_of h2, h3, Src_code, fin32_of h5, Option.bind_some, Option.map_some]
theorem RoundTrip.vpop (vd : Reg) (src : Src) (m : MaskReg) : RoundTrip.Statement (.vpop vd src m) := by
  have f : Fits [(16, 6), (src.kind, 2), (m.val, 3), (src.field, 5), (0, 5), (vd.val, 5), (32, 6)] := ⟨by decide, Src_kind_lt src, m.isLt, Src_field_lt src, by decide, vd.isLt, by decide, trivial⟩
  refine roundTrip_of [(16, 6), (src.kind, 2), (m.val, 3), (src.field, 5), (0, 5), (vd.val, 5), (32, 6)] _ rfl (by simp only [pack, mkWord]; omega) f rfl fun hl => ?_
  have h0 : bits _ 0 6 = 16 := bits_field f 0 rfl rfl rfl
  have h1 : bits _ 6 2 = src.kind := bits_field f 1 rfl rfl rfl
  have h2 : bits _ 8 3 = m.val := bits_field f 2 rfl rfl rfl
  have h3 : bits _ 11 5 = src.field := bits_field f 3 rfl rfl rfl
  have h4 : bits _ 16 5 = 0 := bits_field f 4 rfl rfl rfl
  have h5 : bits _ 21 5 = vd.val := bits_field f 5 rfl rfl rfl
  have h6 : bits _ 26 6 = 32 := bits_field f 6 rfl rfl rfl
  generalize mkWord _ = w at *
  rw [decodeWord_20 h6]
  simp only [decodeOp20, h0, h4, and_self, if_true]
  simp only [h1, fin8_of h2, h3, Src_code, fin32_of h5, Option.bind_some, Option.map_some]
theorem RoundTrip.vabs (vd : Reg) (src : Src) (m : MaskReg) : RoundTrip.Statement (.vabs vd src m) := by
  have f : Fits [(17, 6), (src.kind, 2), (m.val, 3), (src.field, 5), (0, 5), (vd.val, 5), (32, 6)] := ⟨by decide, Src_kind_lt src, m.isLt, Src_field_lt src, by decide, vd.isLt, by decide, trivial⟩
  refine roundTrip_of [(17, 6), (src.kind, 2), (m.val, 3), (src.field, 5), (0, 5), (vd.val, 5), (32, 6)] _ rfl (by simp only [pack, mkWord]; omega) f rfl fun hl => ?_
  have h0 : bits _ 0 6 = 17 := bits_field f 0 rfl rfl rfl
  have h1 : bits _ 6 2 = src.kind := bits_field f 1 rfl rfl rfl
  have h2 : bits _ 8 3 = m.val := bits_field f 2 rfl rfl rfl
  have h3 : bits _ 11 5 = src.field := bits_field f 3 rfl rfl rfl
  have h4 : bits _ 16 5 = 0 := bits_field f 4 rfl rfl rfl
  have h5 : bits _ 21 5 = vd.val := bits_field f 5 rfl rfl rfl
  have h6 : bits _ 26 6 = 32 := bits_field f 6 rfl rfl rfl
  generalize mkWord _ = w at *
  rw [decodeWord_20 h6]
  simp only [decodeOp20, h0, h4, and_self, if_true]
  simp only [h1, fin8_of h2, h3, Src_code, fin32_of h5, Option.bind_some, Option.map_some]
theorem RoundTrip.vneg (vd : Reg) (src : Src) (m : MaskReg) : RoundTrip.Statement (.vneg vd src m) := by
  have f : Fits [(18, 6), (src.kind, 2), (m.val, 3), (src.field, 5), (0, 5), (vd.val, 5), (32, 6)] := ⟨by decide, Src_kind_lt src, m.isLt, Src_field_lt src, by decide, vd.isLt, by decide, trivial⟩
  refine roundTrip_of [(18, 6), (src.kind, 2), (m.val, 3), (src.field, 5), (0, 5), (vd.val, 5), (32, 6)] _ rfl (by simp only [pack, mkWord]; omega) f rfl fun hl => ?_
  have h0 : bits _ 0 6 = 18 := bits_field f 0 rfl rfl rfl
  have h1 : bits _ 6 2 = src.kind := bits_field f 1 rfl rfl rfl
  have h2 : bits _ 8 3 = m.val := bits_field f 2 rfl rfl rfl
  have h3 : bits _ 11 5 = src.field := bits_field f 3 rfl rfl rfl
  have h4 : bits _ 16 5 = 0 := bits_field f 4 rfl rfl rfl
  have h5 : bits _ 21 5 = vd.val := bits_field f 5 rfl rfl rfl
  have h6 : bits _ 26 6 = 32 := bits_field f 6 rfl rfl rfl
  generalize mkWord _ = w at *
  rw [decodeWord_20 h6]
  simp only [decodeOp20, h0, h4, and_self, if_true]
  simp only [h1, fin8_of h2, h3, Src_code, fin32_of h5, Option.bind_some, Option.map_some]
theorem RoundTrip.vmv (vd : Reg) (src : Src) (m : MaskReg) : RoundTrip.Statement (.vmv vd src m) := by
  have f : Fits [(19, 6), (src.kind, 2), (m.val, 3), (src.field, 5), (0, 5), (vd.val, 5), (32, 6)] := ⟨by decide, Src_kind_lt src, m.isLt, Src_field_lt src, by decide, vd.isLt, by decide, trivial⟩
  refine roundTrip_of [(19, 6), (src.kind, 2), (m.val, 3), (src.field, 5), (0, 5), (vd.val, 5), (32, 6)] _ rfl (by simp only [pack, mkWord]; omega) f rfl fun hl => ?_
  have h0 : bits _ 0 6 = 19 := bits_field f 0 rfl rfl rfl
  have h1 : bits _ 6 2 = src.kind := bits_field f 1 rfl rfl rfl
  have h2 : bits _ 8 3 = m.val := bits_field f 2 rfl rfl rfl
  have h3 : bits _ 11 5 = src.field := bits_field f 3 rfl rfl rfl
  have h4 : bits _ 16 5 = 0 := bits_field f 4 rfl rfl rfl
  have h5 : bits _ 21 5 = vd.val := bits_field f 5 rfl rfl rfl
  have h6 : bits _ 26 6 = 32 := bits_field f 6 rfl rfl rfl
  generalize mkWord _ = w at *
  rw [decodeWord_20 h6]
  simp only [decodeOp20, h0, h4, and_self, if_true]
  simp only [h1, fin8_of h2, h3, Src_code, fin32_of h5, Option.bind_some, Option.map_some]
theorem RoundTrip.vsel (vd : Reg) (va : Reg) (src : Src) (m : MaskReg) : RoundTrip.Statement (.vsel vd va src m) := by
  have f : Fits [(20, 6), (src.kind, 2), (m.val, 3), (src.field, 5), (va.val, 5), (vd.val, 5), (32, 6)] := ⟨by decide, Src_kind_lt src, m.isLt, Src_field_lt src, va.isLt, vd.isLt, by decide, trivial⟩
  refine roundTrip_of [(20, 6), (src.kind, 2), (m.val, 3), (src.field, 5), (va.val, 5), (vd.val, 5), (32, 6)] _ rfl (by simp only [pack, mkWord]; omega) f rfl fun hl => ?_
  have h0 : bits _ 0 6 = 20 := bits_field f 0 rfl rfl rfl
  have h1 : bits _ 6 2 = src.kind := bits_field f 1 rfl rfl rfl
  have h2 : bits _ 8 3 = m.val := bits_field f 2 rfl rfl rfl
  have h3 : bits _ 11 5 = src.field := bits_field f 3 rfl rfl rfl
  have h4 : bits _ 16 5 = va.val := bits_field f 4 rfl rfl rfl
  have h5 : bits _ 21 5 = vd.val := bits_field f 5 rfl rfl rfl
  have h6 : bits _ 26 6 = 32 := bits_field f 6 rfl rfl rfl
  generalize mkWord _ = w at *
  rw [decodeWord_20 h6]
  simp only [decodeOp20, h0]
  simp only [h1, fin8_of h2, h3, Src_code, fin32_of h4, fin32_of h5, Option.bind_some, Option.map_some]
theorem RoundTrip.vcmpEq (md : MaskReg) (va : Reg) (src : Src) (m : MaskReg) : RoundTrip.Statement (.vcmpEq md va src m) := by
  have f : Fits [(21, 6), (src.kind, 2), (m.val, 3), (src.field, 5), (va.val, 5), (md.val, 3), (0, 2), (32, 6)] := ⟨by decide, Src_kind_lt src, m.isLt, Src_field_lt src, va.isLt, md.isLt, by decide, by decide, trivial⟩
  refine roundTrip_of [(21, 6), (src.kind, 2), (m.val, 3), (src.field, 5), (va.val, 5), (md.val, 3), (0, 2), (32, 6)] _ rfl (by simp only [pack, mkWord]; omega) f rfl fun hl => ?_
  have h0 : bits _ 0 6 = 21 := bits_field f 0 rfl rfl rfl
  have h1 : bits _ 6 2 = src.kind := bits_field f 1 rfl rfl rfl
  have h2 : bits _ 8 3 = m.val := bits_field f 2 rfl rfl rfl
  have h3 : bits _ 11 5 = src.field := bits_field f 3 rfl rfl rfl
  have h4 : bits _ 16 5 = va.val := bits_field f 4 rfl rfl rfl
  have h5 : bits _ 21 3 = md.val := bits_field f 5 rfl rfl rfl
  have h6 : bits _ 24 2 = 0 := bits_field f 6 rfl rfl rfl
  have h7 : bits _ 26 6 = 32 := bits_field f 7 rfl rfl rfl
  generalize mkWord _ = w at *
  rw [decodeWord_20 h7]
  simp only [decodeOp20, h0, h6, and_self, if_true]
  simp only [h1, fin8_of h2, h3, Src_code, fin32_of h4, fin8_of h5, Option.bind_some, Option.map_some]
theorem RoundTrip.vcmpNe (md : MaskReg) (va : Reg) (src : Src) (m : MaskReg) : RoundTrip.Statement (.vcmpNe md va src m) := by
  have f : Fits [(22, 6), (src.kind, 2), (m.val, 3), (src.field, 5), (va.val, 5), (md.val, 3), (0, 2), (32, 6)] := ⟨by decide, Src_kind_lt src, m.isLt, Src_field_lt src, va.isLt, md.isLt, by decide, by decide, trivial⟩
  refine roundTrip_of [(22, 6), (src.kind, 2), (m.val, 3), (src.field, 5), (va.val, 5), (md.val, 3), (0, 2), (32, 6)] _ rfl (by simp only [pack, mkWord]; omega) f rfl fun hl => ?_
  have h0 : bits _ 0 6 = 22 := bits_field f 0 rfl rfl rfl
  have h1 : bits _ 6 2 = src.kind := bits_field f 1 rfl rfl rfl
  have h2 : bits _ 8 3 = m.val := bits_field f 2 rfl rfl rfl
  have h3 : bits _ 11 5 = src.field := bits_field f 3 rfl rfl rfl
  have h4 : bits _ 16 5 = va.val := bits_field f 4 rfl rfl rfl
  have h5 : bits _ 21 3 = md.val := bits_field f 5 rfl rfl rfl
  have h6 : bits _ 24 2 = 0 := bits_field f 6 rfl rfl rfl
  have h7 : bits _ 26 6 = 32 := bits_field f 7 rfl rfl rfl
  generalize mkWord _ = w at *
  rw [decodeWord_20 h7]
  simp only [decodeOp20, h0, h6, and_self, if_true]
  simp only [h1, fin8_of h2, h3, Src_code, fin32_of h4, fin8_of h5, Option.bind_some, Option.map_some]
theorem RoundTrip.vcmpLtS (md : MaskReg) (va : Reg) (src : Src) (m : MaskReg) : RoundTrip.Statement (.vcmpLtS md va src m) := by
  have f : Fits [(23, 6), (src.kind, 2), (m.val, 3), (src.field, 5), (va.val, 5), (md.val, 3), (0, 2), (32, 6)] := ⟨by decide, Src_kind_lt src, m.isLt, Src_field_lt src, va.isLt, md.isLt, by decide, by decide, trivial⟩
  refine roundTrip_of [(23, 6), (src.kind, 2), (m.val, 3), (src.field, 5), (va.val, 5), (md.val, 3), (0, 2), (32, 6)] _ rfl (by simp only [pack, mkWord]; omega) f rfl fun hl => ?_
  have h0 : bits _ 0 6 = 23 := bits_field f 0 rfl rfl rfl
  have h1 : bits _ 6 2 = src.kind := bits_field f 1 rfl rfl rfl
  have h2 : bits _ 8 3 = m.val := bits_field f 2 rfl rfl rfl
  have h3 : bits _ 11 5 = src.field := bits_field f 3 rfl rfl rfl
  have h4 : bits _ 16 5 = va.val := bits_field f 4 rfl rfl rfl
  have h5 : bits _ 21 3 = md.val := bits_field f 5 rfl rfl rfl
  have h6 : bits _ 24 2 = 0 := bits_field f 6 rfl rfl rfl
  have h7 : bits _ 26 6 = 32 := bits_field f 7 rfl rfl rfl
  generalize mkWord _ = w at *
  rw [decodeWord_20 h7]
  simp only [decodeOp20, h0, h6, and_self, if_true]
  simp only [h1, fin8_of h2, h3, Src_code, fin32_of h4, fin8_of h5, Option.bind_some, Option.map_some]
theorem RoundTrip.vcmpLtN (md : MaskReg) (va : Reg) (src : Src) (m : MaskReg) : RoundTrip.Statement (.vcmpLtN md va src m) := by
  have f : Fits [(24, 6), (src.kind, 2), (m.val, 3), (src.field, 5), (va.val, 5), (md.val, 3), (0, 2), (32, 6)] := ⟨by decide, Src_kind_lt src, m.isLt, Src_field_lt src, va.isLt, md.isLt, by decide, by decide, trivial⟩
  refine roundTrip_of [(24, 6), (src.kind, 2), (m.val, 3), (src.field, 5), (va.val, 5), (md.val, 3), (0, 2), (32, 6)] _ rfl (by simp only [pack, mkWord]; omega) f rfl fun hl => ?_
  have h0 : bits _ 0 6 = 24 := bits_field f 0 rfl rfl rfl
  have h1 : bits _ 6 2 = src.kind := bits_field f 1 rfl rfl rfl
  have h2 : bits _ 8 3 = m.val := bits_field f 2 rfl rfl rfl
  have h3 : bits _ 11 5 = src.field := bits_field f 3 rfl rfl rfl
  have h4 : bits _ 16 5 = va.val := bits_field f 4 rfl rfl rfl
  have h5 : bits _ 21 3 = md.val := bits_field f 5 rfl rfl rfl
  have h6 : bits _ 24 2 = 0 := bits_field f 6 rfl rfl rfl
  have h7 : bits _ 26 6 = 32 := bits_field f 7 rfl rfl rfl
  generalize mkWord _ = w at *
  rw [decodeWord_20 h7]
  simp only [decodeOp20, h0, h6, and_self, if_true]
  simp only [h1, fin8_of h2, h3, Src_code, fin32_of h4, fin8_of h5, Option.bind_some, Option.map_some]
theorem RoundTrip.vcmpLeS (md : MaskReg) (va : Reg) (src : Src) (m : MaskReg) : RoundTrip.Statement (.vcmpLeS md va src m) := by
  have f : Fits [(25, 6), (src.kind, 2), (m.val, 3), (src.field, 5), (va.val, 5), (md.val, 3), (0, 2), (32, 6)] := ⟨by decide, Src_kind_lt src, m.isLt, Src_field_lt src, va.isLt, md.isLt, by decide, by decide, trivial⟩
  refine roundTrip_of [(25, 6), (src.kind, 2), (m.val, 3), (src.field, 5), (va.val, 5), (md.val, 3), (0, 2), (32, 6)] _ rfl (by simp only [pack, mkWord]; omega) f rfl fun hl => ?_
  have h0 : bits _ 0 6 = 25 := bits_field f 0 rfl rfl rfl
  have h1 : bits _ 6 2 = src.kind := bits_field f 1 rfl rfl rfl
  have h2 : bits _ 8 3 = m.val := bits_field f 2 rfl rfl rfl
  have h3 : bits _ 11 5 = src.field := bits_field f 3 rfl rfl rfl
  have h4 : bits _ 16 5 = va.val := bits_field f 4 rfl rfl rfl
  have h5 : bits _ 21 3 = md.val := bits_field f 5 rfl rfl rfl
  have h6 : bits _ 24 2 = 0 := bits_field f 6 rfl rfl rfl
  have h7 : bits _ 26 6 = 32 := bits_field f 7 rfl rfl rfl
  generalize mkWord _ = w at *
  rw [decodeWord_20 h7]
  simp only [decodeOp20, h0, h6, and_self, if_true]
  simp only [h1, fin8_of h2, h3, Src_code, fin32_of h4, fin8_of h5, Option.bind_some, Option.map_some]
theorem RoundTrip.vcmpLeN (md : MaskReg) (va : Reg) (src : Src) (m : MaskReg) : RoundTrip.Statement (.vcmpLeN md va src m) := by
  have f : Fits [(26, 6), (src.kind, 2), (m.val, 3), (src.field, 5), (va.val, 5), (md.val, 3), (0, 2), (32, 6)] := ⟨by decide, Src_kind_lt src, m.isLt, Src_field_lt src, va.isLt, md.isLt, by decide, by decide, trivial⟩
  refine roundTrip_of [(26, 6), (src.kind, 2), (m.val, 3), (src.field, 5), (va.val, 5), (md.val, 3), (0, 2), (32, 6)] _ rfl (by simp only [pack, mkWord]; omega) f rfl fun hl => ?_
  have h0 : bits _ 0 6 = 26 := bits_field f 0 rfl rfl rfl
  have h1 : bits _ 6 2 = src.kind := bits_field f 1 rfl rfl rfl
  have h2 : bits _ 8 3 = m.val := bits_field f 2 rfl rfl rfl
  have h3 : bits _ 11 5 = src.field := bits_field f 3 rfl rfl rfl
  have h4 : bits _ 16 5 = va.val := bits_field f 4 rfl rfl rfl
  have h5 : bits _ 21 3 = md.val := bits_field f 5 rfl rfl rfl
  have h6 : bits _ 24 2 = 0 := bits_field f 6 rfl rfl rfl
  have h7 : bits _ 26 6 = 32 := bits_field f 7 rfl rfl rfl
  generalize mkWord _ = w at *
  rw [decodeWord_20 h7]
  simp only [decodeOp20, h0, h6, and_self, if_true]
  simp only [h1, fin8_of h2, h3, Src_code, fin32_of h4, fin8_of h5, Option.bind_some, Option.map_some]
theorem RoundTrip.vidx (vd : Reg) (m : MaskReg) : RoundTrip.Statement (.vidx vd m) := by
  have f : Fits [(27, 6), (0, 2), (m.val, 3), (0, 10), (vd.val, 5), (32, 6)] := ⟨by decide, by decide, m.isLt, by decide, vd.isLt, by decide, trivial⟩
  refine roundTrip_of [(27, 6), (0, 2), (m.val, 3), (0, 10), (vd.val, 5), (32, 6)] _ rfl (by simp only [pack, mkWord]; omega) f rfl fun hl => ?_
  have h0 : bits _ 0 6 = 27 := bits_field f 0 rfl rfl rfl
  have h1 : bits _ 6 2 = 0 := bits_field f 1 rfl rfl rfl
  have h2 : bits _ 8 3 = m.val := bits_field f 2 rfl rfl rfl
  have h3 : bits _ 11 10 = 0 := bits_field f 3 rfl rfl rfl
  have h4 : bits _ 21 5 = vd.val := bits_field f 4 rfl rfl rfl
  have h5 : bits _ 26 6 = 32 := bits_field f 5 rfl rfl rfl
  generalize mkWord _ = w at *
  rw [decodeWord_20 h5]
  simp only [decodeOp20, h0, h1, h3, and_self, if_true]
  simp only [fin8_of h2, fin32_of h4]
theorem RoundTrip.vimm (vd : Reg) (imm : BitVec 10) (m : MaskReg) : RoundTrip.Statement (.vimm vd imm m) := by
  have f : Fits [(28, 6), (2, 2), (m.val, 3), (imm.toNat, 10), (vd.val, 5), (32, 6)] := ⟨by decide, by decide, m.isLt, imm.isLt, vd.isLt, by decide, trivial⟩
  refine roundTrip_of [(28, 6), (2, 2), (m.val, 3), (imm.toNat, 10), (vd.val, 5), (32, 6)] _ rfl (by simp only [pack, mkWord]; omega) f rfl fun hl => ?_
  have h0 : bits _ 0 6 = 28 := bits_field f 0 rfl rfl rfl
  have h1 : bits _ 6 2 = 2 := bits_field f 1 rfl rfl rfl
  have h2 : bits _ 8 3 = m.val := bits_field f 2 rfl rfl rfl
  have h3 : bits _ 11 10 = imm.toNat := bits_field f 3 rfl rfl rfl
  have h4 : bits _ 21 5 = vd.val := bits_field f 4 rfl rfl rfl
  have h5 : bits _ 26 6 = 32 := bits_field f 5 rfl rfl rfl
  generalize mkWord _ = w at *
  rw [decodeWord_20 h5]
  simp only [decodeOp20, h0, h1, and_self, if_true]
  simp only [fin8_of h2, bv_of h3, fin32_of h4]
theorem RoundTrip.vwmulS (vd : Reg) (va : Reg) (src : Src) (m : MaskReg) : RoundTrip.Statement (.vwmulS vd va src m) := by
  have f : Fits [(0, 6), (src.kind, 2), (m.val, 3), (src.field, 5), (va.val, 5), (vd.val, 5), (33, 6)] := ⟨by decide, Src_kind_lt src, m.isLt, Src_field_lt src, va.isLt, vd.isLt, by decide, trivial⟩
  refine roundTrip_of [(0, 6), (src.kind, 2), (m.val, 3), (src.field, 5), (va.val, 5), (vd.val, 5), (33, 6)] _ rfl (by simp only [pack, mkWord]; omega) f rfl fun hl => ?_
  have h0 : bits _ 0 6 = 0 := bits_field f 0 rfl rfl rfl
  have h1 : bits _ 6 2 = src.kind := bits_field f 1 rfl rfl rfl
  have h2 : bits _ 8 3 = m.val := bits_field f 2 rfl rfl rfl
  have h3 : bits _ 11 5 = src.field := bits_field f 3 rfl rfl rfl
  have h4 : bits _ 16 5 = va.val := bits_field f 4 rfl rfl rfl
  have h5 : bits _ 21 5 = vd.val := bits_field f 5 rfl rfl rfl
  have h6 : bits _ 26 6 = 33 := bits_field f 6 rfl rfl rfl
  generalize mkWord _ = w at *
  rw [decodeWord_21 h6]
  simp only [decodeOp21, h0]
  simp only [h1, fin8_of h2, h3, Src_code, fin32_of h4, fin32_of h5, Option.bind_some, Option.map_some]
theorem RoundTrip.vwmulN (vd : Reg) (va : Reg) (src : Src) (m : MaskReg) : RoundTrip.Statement (.vwmulN vd va src m) := by
  have f : Fits [(1, 6), (src.kind, 2), (m.val, 3), (src.field, 5), (va.val, 5), (vd.val, 5), (33, 6)] := ⟨by decide, Src_kind_lt src, m.isLt, Src_field_lt src, va.isLt, vd.isLt, by decide, trivial⟩
  refine roundTrip_of [(1, 6), (src.kind, 2), (m.val, 3), (src.field, 5), (va.val, 5), (vd.val, 5), (33, 6)] _ rfl (by simp only [pack, mkWord]; omega) f rfl fun hl => ?_
  have h0 : bits _ 0 6 = 1 := bits_field f 0 rfl rfl rfl
  have h1 : bits _ 6 2 = src.kind := bits_field f 1 rfl rfl rfl
  have h2 : bits _ 8 3 = m.val := bits_field f 2 rfl rfl rfl
  have h3 : bits _ 11 5 = src.field := bits_field f 3 rfl rfl rfl
  have h4 : bits _ 16 5 = va.val := bits_field f 4 rfl rfl rfl
  have h5 : bits _ 21 5 = vd.val := bits_field f 5 rfl rfl rfl
  have h6 : bits _ 26 6 = 33 := bits_field f 6 rfl rfl rfl
  generalize mkWord _ = w at *
  rw [decodeWord_21 h6]
  simp only [decodeOp21, h0]
  simp only [h1, fin8_of h2, h3, Src_code, fin32_of h4, fin32_of h5, Option.bind_some, Option.map_some]
theorem RoundTrip.vwmacS (vd : Reg) (va : Reg) (src : Src) (m : MaskReg) : RoundTrip.Statement (.vwmacS vd va src m) := by
  have f : Fits [(2, 6), (src.kind, 2), (m.val, 3), (src.field, 5), (va.val, 5), (vd.val, 5), (33, 6)] := ⟨by decide, Src_kind_lt src, m.isLt, Src_field_lt src, va.isLt, vd.isLt, by decide, trivial⟩
  refine roundTrip_of [(2, 6), (src.kind, 2), (m.val, 3), (src.field, 5), (va.val, 5), (vd.val, 5), (33, 6)] _ rfl (by simp only [pack, mkWord]; omega) f rfl fun hl => ?_
  have h0 : bits _ 0 6 = 2 := bits_field f 0 rfl rfl rfl
  have h1 : bits _ 6 2 = src.kind := bits_field f 1 rfl rfl rfl
  have h2 : bits _ 8 3 = m.val := bits_field f 2 rfl rfl rfl
  have h3 : bits _ 11 5 = src.field := bits_field f 3 rfl rfl rfl
  have h4 : bits _ 16 5 = va.val := bits_field f 4 rfl rfl rfl
  have h5 : bits _ 21 5 = vd.val := bits_field f 5 rfl rfl rfl
  have h6 : bits _ 26 6 = 33 := bits_field f 6 rfl rfl rfl
  generalize mkWord _ = w at *
  rw [decodeWord_21 h6]
  simp only [decodeOp21, h0]
  simp only [h1, fin8_of h2, h3, Src_code, fin32_of h4, fin32_of h5, Option.bind_some, Option.map_some]
theorem RoundTrip.vwmacN (vd : Reg) (va : Reg) (src : Src) (m : MaskReg) : RoundTrip.Statement (.vwmacN vd va src m) := by
  have f : Fits [(3, 6), (src.kind, 2), (m.val, 3), (src.field, 5), (va.val, 5), (vd.val, 5), (33, 6)] := ⟨by decide, Src_kind_lt src, m.isLt, Src_field_lt src, va.isLt, vd.isLt, by decide, trivial⟩
  refine roundTrip_of [(3, 6), (src.kind, 2), (m.val, 3), (src.field, 5), (va.val, 5), (vd.val, 5), (33, 6)] _ rfl (by simp only [pack, mkWord]; omega) f rfl fun hl => ?_
  have h0 : bits _ 0 6 = 3 := bits_field f 0 rfl rfl rfl
  have h1 : bits _ 6 2 = src.kind := bits_field f 1 rfl rfl rfl
  have h2 : bits _ 8 3 = m.val := bits_field f 2 rfl rfl rfl
  have h3 : bits _ 11 5 = src.field := bits_field f 3 rfl rfl rfl
  have h4 : bits _ 16 5 = va.val := bits_field f 4 rfl rfl rfl
  have h5 : bits _ 21 5 = vd.val := bits_field f 5 rfl rfl rfl
  have h6 : bits _ 26 6 = 33 := bits_field f 6 rfl rfl rfl
  generalize mkWord _ = w at *
  rw [decodeWord_21 h6]
  simp only [decodeOp21, h0]
  simp only [h1, fin8_of h2, h3, Src_code, fin32_of h4, fin32_of h5, Option.bind_some, Option.map_some]
theorem RoundTrip.vwmacSn (vd : Reg) (va : Reg) (src : Src) (m : MaskReg) : RoundTrip.Statement (.vwmacSn vd va src m) := by
  have f : Fits [(4, 6), (src.kind, 2), (m.val, 3), (src.field, 5), (va.val, 5), (vd.val, 5), (33, 6)] := ⟨by decide, Src_kind_lt src, m.isLt, Src_field_lt src, va.isLt, vd.isLt, by decide, trivial⟩
  refine roundTrip_of [(4, 6), (src.kind, 2), (m.val, 3), (src.field, 5), (va.val, 5), (vd.val, 5), (33, 6)] _ rfl (by simp only [pack, mkWord]; omega) f rfl fun hl => ?_
  have h0 : bits _ 0 6 = 4 := bits_field f 0 rfl rfl rfl
  have h1 : bits _ 6 2 = src.kind := bits_field f 1 rfl rfl rfl
  have h2 : bits _ 8 3 = m.val := bits_field f 2 rfl rfl rfl
  have h3 : bits _ 11 5 = src.field := bits_field f 3 rfl rfl rfl
  have h4 : bits _ 16 5 = va.val := bits_field f 4 rfl rfl rfl
  have h5 : bits _ 21 5 = vd.val := bits_field f 5 rfl rfl rfl
  have h6 : bits _ 26 6 = 33 := bits_field f 6 rfl rfl rfl
  generalize mkWord _ = w at *
  rw [decodeWord_21 h6]
  simp only [decodeOp21, h0]
  simp only [h1, fin8_of h2, h3, Src_code, fin32_of h4, fin32_of h5, Option.bind_some, Option.map_some]
theorem RoundTrip.vnsr (vd : Reg) (va : Reg) (src : Src) (m : MaskReg) : RoundTrip.Statement (.vnsr vd va src m) := by
  have f : Fits [(5, 6), (src.kind, 2), (m.val, 3), (src.field, 5), (va.val, 5), (vd.val, 5), (33, 6)] := ⟨by decide, Src_kind_lt src, m.isLt, Src_field_lt src, va.isLt, vd.isLt, by decide, trivial⟩
  refine roundTrip_of [(5, 6), (src.kind, 2), (m.val, 3), (src.field, 5), (va.val, 5), (vd.val, 5), (33, 6)] _ rfl (by simp only [pack, mkWord]; omega) f rfl fun hl => ?_
  have h0 : bits _ 0 6 = 5 := bits_field f 0 rfl rfl rfl
  have h1 : bits _ 6 2 = src.kind := bits_field f 1 rfl rfl rfl
  have h2 : bits _ 8 3 = m.val := bits_field f 2 rfl rfl rfl
  have h3 : bits _ 11 5 = src.field := bits_field f 3 rfl rfl rfl
  have h4 : bits _ 16 5 = va.val := bits_field f 4 rfl rfl rfl
  have h5 : bits _ 21 5 = vd.val := bits_field f 5 rfl rfl rfl
  have h6 : bits _ 26 6 = 33 := bits_field f 6 rfl rfl rfl
  generalize mkWord _ = w at *
  rw [decodeWord_21 h6]
  simp only [decodeOp21, h0]
  simp only [h1, fin8_of h2, h3, Src_code, fin32_of h4, fin32_of h5, Option.bind_some, Option.map_some]
theorem RoundTrip.vnsra (vd : Reg) (va : Reg) (src : Src) (m : MaskReg) : RoundTrip.Statement (.vnsra vd va src m) := by
  have f : Fits [(6, 6), (src.kind, 2), (m.val, 3), (src.field, 5), (va.val, 5), (vd.val, 5), (33, 6)] := ⟨by decide, Src_kind_lt src, m.isLt, Src_field_lt src, va.isLt, vd.isLt, by decide, trivial⟩
  refine roundTrip_of [(6, 6), (src.kind, 2), (m.val, 3), (src.field, 5), (va.val, 5), (vd.val, 5), (33, 6)] _ rfl (by simp only [pack, mkWord]; omega) f rfl fun hl => ?_
  have h0 : bits _ 0 6 = 6 := bits_field f 0 rfl rfl rfl
  have h1 : bits _ 6 2 = src.kind := bits_field f 1 rfl rfl rfl
  have h2 : bits _ 8 3 = m.val := bits_field f 2 rfl rfl rfl
  have h3 : bits _ 11 5 = src.field := bits_field f 3 rfl rfl rfl
  have h4 : bits _ 16 5 = va.val := bits_field f 4 rfl rfl rfl
  have h5 : bits _ 21 5 = vd.val := bits_field f 5 rfl rfl rfl
  have h6 : bits _ 26 6 = 33 := bits_field f 6 rfl rfl rfl
  generalize mkWord _ = w at *
  rw [decodeWord_21 h6]
  simp only [decodeOp21, h0]
  simp only [h1, fin8_of h2, h3, Src_code, fin32_of h4, fin32_of h5, Option.bind_some, Option.map_some]
theorem RoundTrip.vsaddS (vd : Reg) (va : Reg) (src : Src) (m : MaskReg) : RoundTrip.Statement (.vsaddS vd va src m) := by
  have f : Fits [(7, 6), (src.kind, 2), (m.val, 3), (src.field, 5), (va.val, 5), (vd.val, 5), (33, 6)] := ⟨by decide, Src_kind_lt src, m.isLt, Src_field_lt src, va.isLt, vd.isLt, by decide, trivial⟩
  refine roundTrip_of [(7, 6), (src.kind, 2), (m.val, 3), (src.field, 5), (va.val, 5), (vd.val, 5), (33, 6)] _ rfl (by simp only [pack, mkWord]; omega) f rfl fun hl => ?_
  have h0 : bits _ 0 6 = 7 := bits_field f 0 rfl rfl rfl
  have h1 : bits _ 6 2 = src.kind := bits_field f 1 rfl rfl rfl
  have h2 : bits _ 8 3 = m.val := bits_field f 2 rfl rfl rfl
  have h3 : bits _ 11 5 = src.field := bits_field f 3 rfl rfl rfl
  have h4 : bits _ 16 5 = va.val := bits_field f 4 rfl rfl rfl
  have h5 : bits _ 21 5 = vd.val := bits_field f 5 rfl rfl rfl
  have h6 : bits _ 26 6 = 33 := bits_field f 6 rfl rfl rfl
  generalize mkWord _ = w at *
  rw [decodeWord_21 h6]
  simp only [decodeOp21, h0]
  simp only [h1, fin8_of h2, h3, Src_code, fin32_of h4, fin32_of h5, Option.bind_some, Option.map_some]
theorem RoundTrip.vsaddN (vd : Reg) (va : Reg) (src : Src) (m : MaskReg) : RoundTrip.Statement (.vsaddN vd va src m) := by
  have f : Fits [(8, 6), (src.kind, 2), (m.val, 3), (src.field, 5), (va.val, 5), (vd.val, 5), (33, 6)] := ⟨by decide, Src_kind_lt src, m.isLt, Src_field_lt src, va.isLt, vd.isLt, by decide, trivial⟩
  refine roundTrip_of [(8, 6), (src.kind, 2), (m.val, 3), (src.field, 5), (va.val, 5), (vd.val, 5), (33, 6)] _ rfl (by simp only [pack, mkWord]; omega) f rfl fun hl => ?_
  have h0 : bits _ 0 6 = 8 := bits_field f 0 rfl rfl rfl
  have h1 : bits _ 6 2 = src.kind := bits_field f 1 rfl rfl rfl
  have h2 : bits _ 8 3 = m.val := bits_field f 2 rfl rfl rfl
  have h3 : bits _ 11 5 = src.field := bits_field f 3 rfl rfl rfl
  have h4 : bits _ 16 5 = va.val := bits_field f 4 rfl rfl rfl
  have h5 : bits _ 21 5 = vd.val := bits_field f 5 rfl rfl rfl
  have h6 : bits _ 26 6 = 33 := bits_field f 6 rfl rfl rfl
  generalize mkWord _ = w at *
  rw [decodeWord_21 h6]
  simp only [decodeOp21, h0]
  simp only [h1, fin8_of h2, h3, Src_code, fin32_of h4, fin32_of h5, Option.bind_some, Option.map_some]
theorem RoundTrip.vssubS (vd : Reg) (va : Reg) (src : Src) (m : MaskReg) : RoundTrip.Statement (.vssubS vd va src m) := by
  have f : Fits [(9, 6), (src.kind, 2), (m.val, 3), (src.field, 5), (va.val, 5), (vd.val, 5), (33, 6)] := ⟨by decide, Src_kind_lt src, m.isLt, Src_field_lt src, va.isLt, vd.isLt, by decide, trivial⟩
  refine roundTrip_of [(9, 6), (src.kind, 2), (m.val, 3), (src.field, 5), (va.val, 5), (vd.val, 5), (33, 6)] _ rfl (by simp only [pack, mkWord]; omega) f rfl fun hl => ?_
  have h0 : bits _ 0 6 = 9 := bits_field f 0 rfl rfl rfl
  have h1 : bits _ 6 2 = src.kind := bits_field f 1 rfl rfl rfl
  have h2 : bits _ 8 3 = m.val := bits_field f 2 rfl rfl rfl
  have h3 : bits _ 11 5 = src.field := bits_field f 3 rfl rfl rfl
  have h4 : bits _ 16 5 = va.val := bits_field f 4 rfl rfl rfl
  have h5 : bits _ 21 5 = vd.val := bits_field f 5 rfl rfl rfl
  have h6 : bits _ 26 6 = 33 := bits_field f 6 rfl rfl rfl
  generalize mkWord _ = w at *
  rw [decodeWord_21 h6]
  simp only [decodeOp21, h0]
  simp only [h1, fin8_of h2, h3, Src_code, fin32_of h4, fin32_of h5, Option.bind_some, Option.map_some]
theorem RoundTrip.vssubN (vd : Reg) (va : Reg) (src : Src) (m : MaskReg) : RoundTrip.Statement (.vssubN vd va src m) := by
  have f : Fits [(10, 6), (src.kind, 2), (m.val, 3), (src.field, 5), (va.val, 5), (vd.val, 5), (33, 6)] := ⟨by decide, Src_kind_lt src, m.isLt, Src_field_lt src, va.isLt, vd.isLt, by decide, trivial⟩
  refine roundTrip_of [(10, 6), (src.kind, 2), (m.val, 3), (src.field, 5), (va.val, 5), (vd.val, 5), (33, 6)] _ rfl (by simp only [pack, mkWord]; omega) f rfl fun hl => ?_
  have h0 : bits _ 0 6 = 10 := bits_field f 0 rfl rfl rfl
  have h1 : bits _ 6 2 = src.kind := bits_field f 1 rfl rfl rfl
  have h2 : bits _ 8 3 = m.val := bits_field f 2 rfl rfl rfl
  have h3 : bits _ 11 5 = src.field := bits_field f 3 rfl rfl rfl
  have h4 : bits _ 16 5 = va.val := bits_field f 4 rfl rfl rfl
  have h5 : bits _ 21 5 = vd.val := bits_field f 5 rfl rfl rfl
  have h6 : bits _ 26 6 = 33 := bits_field f 6 rfl rfl rfl
  generalize mkWord _ = w at *
  rw [decodeWord_21 h6]
  simp only [decodeOp21, h0]
  simp only [h1, fin8_of h2, h3, Src_code, fin32_of h4, fin32_of h5, Option.bind_some, Option.map_some]
theorem RoundTrip.vavg (vd : Reg) (va : Reg) (src : Src) (m : MaskReg) : RoundTrip.Statement (.vavg vd va src m) := by
  have f : Fits [(11, 6), (src.kind, 2), (m.val, 3), (src.field, 5), (va.val, 5), (vd.val, 5), (33, 6)] := ⟨by decide, Src_kind_lt src, m.isLt, Src_field_lt src, va.isLt, vd.isLt, by decide, trivial⟩
  refine roundTrip_of [(11, 6), (src.kind, 2), (m.val, 3), (src.field, 5), (va.val, 5), (vd.val, 5), (33, 6)] _ rfl (by simp only [pack, mkWord]; omega) f rfl fun hl => ?_
  have h0 : bits _ 0 6 = 11 := bits_field f 0 rfl rfl rfl
  have h1 : bits _ 6 2 = src.kind := bits_field f 1 rfl rfl rfl
  have h2 : bits _ 8 3 = m.val := bits_field f 2 rfl rfl rfl
  have h3 : bits _ 11 5 = src.field := bits_field f 3 rfl rfl rfl
  have h4 : bits _ 16 5 = va.val := bits_field f 4 rfl rfl rfl
  have h5 : bits _ 21 5 = vd.val := bits_field f 5 rfl rfl rfl
  have h6 : bits _ 26 6 = 33 := bits_field f 6 rfl rfl rfl
  generalize mkWord _ = w at *
  rw [decodeWord_21 h6]
  simp only [decodeOp21, h0]
  simp only [h1, fin8_of h2, h3, Src_code, fin32_of h4, fin32_of h5, Option.bind_some, Option.map_some]
theorem RoundTrip.vcvt (vd : Reg) (rm : Rm) (vb : Reg) (m : MaskReg) : RoundTrip.Statement (.vcvt vd rm vb m) := by
  have f : Fits [(12, 6), (0, 2), (m.val, 3), (vb.val, 5), (rm.code, 5), (vd.val, 5), (33, 6)] := ⟨by decide, by decide, m.isLt, vb.isLt, Rm_lt5 rm, vd.isLt, by decide, trivial⟩
  refine roundTrip_of [(12, 6), (0, 2), (m.val, 3), (vb.val, 5), (rm.code, 5), (vd.val, 5), (33, 6)] _ rfl (by simp only [pack, mkWord]; omega) f rfl fun hl => ?_
  have h0 : bits _ 0 6 = 12 := bits_field f 0 rfl rfl rfl
  have h1 : bits _ 6 2 = 0 := bits_field f 1 rfl rfl rfl
  have h2 : bits _ 8 3 = m.val := bits_field f 2 rfl rfl rfl
  have h3 : bits _ 11 5 = vb.val := bits_field f 3 rfl rfl rfl
  have h4 : bits _ 16 5 = rm.code := bits_field f 4 rfl rfl rfl
  have h5 : bits _ 21 5 = vd.val := bits_field f 5 rfl rfl rfl
  have h6 : bits _ 26 6 = 33 := bits_field f 6 rfl rfl rfl
  generalize mkWord _ = w at *
  rw [decodeWord_21 h6]
  simp only [decodeOp21, h0, h1, and_self, if_true]
  simp only [fin8_of h2, fin32_of h3, h4, Rm_code, fin32_of h5, Option.bind_some, Option.map_some]
theorem RoundTrip.vretag (vd : Reg) (tag : Tag) : RoundTrip.Statement (.vretag vd tag) := by
  have f : Fits [(13, 6), (0, 10), (tag.code, 4), (0, 1), (vd.val, 5), (33, 6)] := ⟨by decide, by decide, Tag_lt4 tag, by decide, vd.isLt, by decide, trivial⟩
  refine roundTrip_of [(13, 6), (0, 10), (tag.code, 4), (0, 1), (vd.val, 5), (33, 6)] _ rfl (by simp only [pack, mkWord]; omega) f rfl fun hl => ?_
  have h0 : bits _ 0 6 = 13 := bits_field f 0 rfl rfl rfl
  have h1 : bits _ 6 10 = 0 := bits_field f 1 rfl rfl rfl
  have h2 : bits _ 16 4 = tag.code := bits_field f 2 rfl rfl rfl
  have h3 : bits _ 20 1 = 0 := bits_field f 3 rfl rfl rfl
  have h4 : bits _ 21 5 = vd.val := bits_field f 4 rfl rfl rfl
  have h5 : bits _ 26 6 = 33 := bits_field f 5 rfl rfl rfl
  generalize mkWord _ = w at *
  rw [decodeWord_21 h5]
  simp only [decodeOp21, h0, h1, h3, and_self, if_true]
  simp only [h2, Tag_code, fin32_of h4, Option.bind_some, Option.map_some]
theorem RoundTrip.vfadd (vd : Reg) (va : Reg) (src : Src) (m : MaskReg) : RoundTrip.Statement (.vfadd vd va src m) := by
  have f : Fits [(0, 6), (src.kind, 2), (m.val, 3), (src.field, 5), (va.val, 5), (vd.val, 5), (34, 6)] := ⟨by decide, Src_kind_lt src, m.isLt, Src_field_lt src, va.isLt, vd.isLt, by decide, trivial⟩
  refine roundTrip_of [(0, 6), (src.kind, 2), (m.val, 3), (src.field, 5), (va.val, 5), (vd.val, 5), (34, 6)] _ rfl (by simp only [pack, mkWord]; omega) f rfl fun hl => ?_
  have h0 : bits _ 0 6 = 0 := bits_field f 0 rfl rfl rfl
  have h1 : bits _ 6 2 = src.kind := bits_field f 1 rfl rfl rfl
  have h2 : bits _ 8 3 = m.val := bits_field f 2 rfl rfl rfl
  have h3 : bits _ 11 5 = src.field := bits_field f 3 rfl rfl rfl
  have h4 : bits _ 16 5 = va.val := bits_field f 4 rfl rfl rfl
  have h5 : bits _ 21 5 = vd.val := bits_field f 5 rfl rfl rfl
  have h6 : bits _ 26 6 = 34 := bits_field f 6 rfl rfl rfl
  generalize mkWord _ = w at *
  rw [decodeWord_22 h6]
  simp only [decodeOp22, h0]
  simp only [h1, fin8_of h2, h3, Src_code, fin32_of h4, fin32_of h5, Option.bind_some, Option.map_some]
theorem RoundTrip.vfsub (vd : Reg) (va : Reg) (src : Src) (m : MaskReg) : RoundTrip.Statement (.vfsub vd va src m) := by
  have f : Fits [(1, 6), (src.kind, 2), (m.val, 3), (src.field, 5), (va.val, 5), (vd.val, 5), (34, 6)] := ⟨by decide, Src_kind_lt src, m.isLt, Src_field_lt src, va.isLt, vd.isLt, by decide, trivial⟩
  refine roundTrip_of [(1, 6), (src.kind, 2), (m.val, 3), (src.field, 5), (va.val, 5), (vd.val, 5), (34, 6)] _ rfl (by simp only [pack, mkWord]; omega) f rfl fun hl => ?_
  have h0 : bits _ 0 6 = 1 := bits_field f 0 rfl rfl rfl
  have h1 : bits _ 6 2 = src.kind := bits_field f 1 rfl rfl rfl
  have h2 : bits _ 8 3 = m.val := bits_field f 2 rfl rfl rfl
  have h3 : bits _ 11 5 = src.field := bits_field f 3 rfl rfl rfl
  have h4 : bits _ 16 5 = va.val := bits_field f 4 rfl rfl rfl
  have h5 : bits _ 21 5 = vd.val := bits_field f 5 rfl rfl rfl
  have h6 : bits _ 26 6 = 34 := bits_field f 6 rfl rfl rfl
  generalize mkWord _ = w at *
  rw [decodeWord_22 h6]
  simp only [decodeOp22, h0]
  simp only [h1, fin8_of h2, h3, Src_code, fin32_of h4, fin32_of h5, Option.bind_some, Option.map_some]
theorem RoundTrip.vfmul (vd : Reg) (va : Reg) (src : Src) (m : MaskReg) : RoundTrip.Statement (.vfmul vd va src m) := by
  have f : Fits [(2, 6), (src.kind, 2), (m.val, 3), (src.field, 5), (va.val, 5), (vd.val, 5), (34, 6)] := ⟨by decide, Src_kind_lt src, m.isLt, Src_field_lt src, va.isLt, vd.isLt, by decide, trivial⟩
  refine roundTrip_of [(2, 6), (src.kind, 2), (m.val, 3), (src.field, 5), (va.val, 5), (vd.val, 5), (34, 6)] _ rfl (by simp only [pack, mkWord]; omega) f rfl fun hl => ?_
  have h0 : bits _ 0 6 = 2 := bits_field f 0 rfl rfl rfl
  have h1 : bits _ 6 2 = src.kind := bits_field f 1 rfl rfl rfl
  have h2 : bits _ 8 3 = m.val := bits_field f 2 rfl rfl rfl
  have h3 : bits _ 11 5 = src.field := bits_field f 3 rfl rfl rfl
  have h4 : bits _ 16 5 = va.val := bits_field f 4 rfl rfl rfl
  have h5 : bits _ 21 5 = vd.val := bits_field f 5 rfl rfl rfl
  have h6 : bits _ 26 6 = 34 := bits_field f 6 rfl rfl rfl
  generalize mkWord _ = w at *
  rw [decodeWord_22 h6]
  simp only [decodeOp22, h0]
  simp only [h1, fin8_of h2, h3, Src_code, fin32_of h4, fin32_of h5, Option.bind_some, Option.map_some]
theorem RoundTrip.vfma (vd : Reg) (va : Reg) (src : Src) (m : MaskReg) : RoundTrip.Statement (.vfma vd va src m) := by
  have f : Fits [(3, 6), (src.kind, 2), (m.val, 3), (src.field, 5), (va.val, 5), (vd.val, 5), (34, 6)] := ⟨by decide, Src_kind_lt src, m.isLt, Src_field_lt src, va.isLt, vd.isLt, by decide, trivial⟩
  refine roundTrip_of [(3, 6), (src.kind, 2), (m.val, 3), (src.field, 5), (va.val, 5), (vd.val, 5), (34, 6)] _ rfl (by simp only [pack, mkWord]; omega) f rfl fun hl => ?_
  have h0 : bits _ 0 6 = 3 := bits_field f 0 rfl rfl rfl
  have h1 : bits _ 6 2 = src.kind := bits_field f 1 rfl rfl rfl
  have h2 : bits _ 8 3 = m.val := bits_field f 2 rfl rfl rfl
  have h3 : bits _ 11 5 = src.field := bits_field f 3 rfl rfl rfl
  have h4 : bits _ 16 5 = va.val := bits_field f 4 rfl rfl rfl
  have h5 : bits _ 21 5 = vd.val := bits_field f 5 rfl rfl rfl
  have h6 : bits _ 26 6 = 34 := bits_field f 6 rfl rfl rfl
  generalize mkWord _ = w at *
  rw [decodeWord_22 h6]
  simp only [decodeOp22, h0]
  simp only [h1, fin8_of h2, h3, Src_code, fin32_of h4, fin32_of h5, Option.bind_some, Option.map_some]
theorem RoundTrip.vfms (vd : Reg) (va : Reg) (src : Src) (m : MaskReg) : RoundTrip.Statement (.vfms vd va src m) := by
  have f : Fits [(4, 6), (src.kind, 2), (m.val, 3), (src.field, 5), (va.val, 5), (vd.val, 5), (34, 6)] := ⟨by decide, Src_kind_lt src, m.isLt, Src_field_lt src, va.isLt, vd.isLt, by decide, trivial⟩
  refine roundTrip_of [(4, 6), (src.kind, 2), (m.val, 3), (src.field, 5), (va.val, 5), (vd.val, 5), (34, 6)] _ rfl (by simp only [pack, mkWord]; omega) f rfl fun hl => ?_
  have h0 : bits _ 0 6 = 4 := bits_field f 0 rfl rfl rfl
  have h1 : bits _ 6 2 = src.kind := bits_field f 1 rfl rfl rfl
  have h2 : bits _ 8 3 = m.val := bits_field f 2 rfl rfl rfl
  have h3 : bits _ 11 5 = src.field := bits_field f 3 rfl rfl rfl
  have h4 : bits _ 16 5 = va.val := bits_field f 4 rfl rfl rfl
  have h5 : bits _ 21 5 = vd.val := bits_field f 5 rfl rfl rfl
  have h6 : bits _ 26 6 = 34 := bits_field f 6 rfl rfl rfl
  generalize mkWord _ = w at *
  rw [decodeWord_22 h6]
  simp only [decodeOp22, h0]
  simp only [h1, fin8_of h2, h3, Src_code, fin32_of h4, fin32_of h5, Option.bind_some, Option.map_some]
theorem RoundTrip.vfnma (vd : Reg) (va : Reg) (src : Src) (m : MaskReg) : RoundTrip.Statement (.vfnma vd va src m) := by
  have f : Fits [(5, 6), (src.kind, 2), (m.val, 3), (src.field, 5), (va.val, 5), (vd.val, 5), (34, 6)] := ⟨by decide, Src_kind_lt src, m.isLt, Src_field_lt src, va.isLt, vd.isLt, by decide, trivial⟩
  refine roundTrip_of [(5, 6), (src.kind, 2), (m.val, 3), (src.field, 5), (va.val, 5), (vd.val, 5), (34, 6)] _ rfl (by simp only [pack, mkWord]; omega) f rfl fun hl => ?_
  have h0 : bits _ 0 6 = 5 := bits_field f 0 rfl rfl rfl
  have h1 : bits _ 6 2 = src.kind := bits_field f 1 rfl rfl rfl
  have h2 : bits _ 8 3 = m.val := bits_field f 2 rfl rfl rfl
  have h3 : bits _ 11 5 = src.field := bits_field f 3 rfl rfl rfl
  have h4 : bits _ 16 5 = va.val := bits_field f 4 rfl rfl rfl
  have h5 : bits _ 21 5 = vd.val := bits_field f 5 rfl rfl rfl
  have h6 : bits _ 26 6 = 34 := bits_field f 6 rfl rfl rfl
  generalize mkWord _ = w at *
  rw [decodeWord_22 h6]
  simp only [decodeOp22, h0]
  simp only [h1, fin8_of h2, h3, Src_code, fin32_of h4, fin32_of h5, Option.bind_some, Option.map_some]
theorem RoundTrip.vfmin (vd : Reg) (va : Reg) (src : Src) (m : MaskReg) : RoundTrip.Statement (.vfmin vd va src m) := by
  have f : Fits [(6, 6), (src.kind, 2), (m.val, 3), (src.field, 5), (va.val, 5), (vd.val, 5), (34, 6)] := ⟨by decide, Src_kind_lt src, m.isLt, Src_field_lt src, va.isLt, vd.isLt, by decide, trivial⟩
  refine roundTrip_of [(6, 6), (src.kind, 2), (m.val, 3), (src.field, 5), (va.val, 5), (vd.val, 5), (34, 6)] _ rfl (by simp only [pack, mkWord]; omega) f rfl fun hl => ?_
  have h0 : bits _ 0 6 = 6 := bits_field f 0 rfl rfl rfl
  have h1 : bits _ 6 2 = src.kind := bits_field f 1 rfl rfl rfl
  have h2 : bits _ 8 3 = m.val := bits_field f 2 rfl rfl rfl
  have h3 : bits _ 11 5 = src.field := bits_field f 3 rfl rfl rfl
  have h4 : bits _ 16 5 = va.val := bits_field f 4 rfl rfl rfl
  have h5 : bits _ 21 5 = vd.val := bits_field f 5 rfl rfl rfl
  have h6 : bits _ 26 6 = 34 := bits_field f 6 rfl rfl rfl
  generalize mkWord _ = w at *
  rw [decodeWord_22 h6]
  simp only [decodeOp22, h0]
  simp only [h1, fin8_of h2, h3, Src_code, fin32_of h4, fin32_of h5, Option.bind_some, Option.map_some]
theorem RoundTrip.vfmax (vd : Reg) (va : Reg) (src : Src) (m : MaskReg) : RoundTrip.Statement (.vfmax vd va src m) := by
  have f : Fits [(7, 6), (src.kind, 2), (m.val, 3), (src.field, 5), (va.val, 5), (vd.val, 5), (34, 6)] := ⟨by decide, Src_kind_lt src, m.isLt, Src_field_lt src, va.isLt, vd.isLt, by decide, trivial⟩
  refine roundTrip_of [(7, 6), (src.kind, 2), (m.val, 3), (src.field, 5), (va.val, 5), (vd.val, 5), (34, 6)] _ rfl (by simp only [pack, mkWord]; omega) f rfl fun hl => ?_
  have h0 : bits _ 0 6 = 7 := bits_field f 0 rfl rfl rfl
  have h1 : bits _ 6 2 = src.kind := bits_field f 1 rfl rfl rfl
  have h2 : bits _ 8 3 = m.val := bits_field f 2 rfl rfl rfl
  have h3 : bits _ 11 5 = src.field := bits_field f 3 rfl rfl rfl
  have h4 : bits _ 16 5 = va.val := bits_field f 4 rfl rfl rfl
  have h5 : bits _ 21 5 = vd.val := bits_field f 5 rfl rfl rfl
  have h6 : bits _ 26 6 = 34 := bits_field f 6 rfl rfl rfl
  generalize mkWord _ = w at *
  rw [decodeWord_22 h6]
  simp only [decodeOp22, h0]
  simp only [h1, fin8_of h2, h3, Src_code, fin32_of h4, fin32_of h5, Option.bind_some, Option.map_some]
theorem RoundTrip.vfdiv (vd : Reg) (va : Reg) (src : Src) (m : MaskReg) : RoundTrip.Statement (.vfdiv vd va src m) := by
  have f : Fits [(8, 6), (src.kind, 2), (m.val, 3), (src.field, 5), (va.val, 5), (vd.val, 5), (34, 6)] := ⟨by decide, Src_kind_lt src, m.isLt, Src_field_lt src, va.isLt, vd.isLt, by decide, trivial⟩
  refine roundTrip_of [(8, 6), (src.kind, 2), (m.val, 3), (src.field, 5), (va.val, 5), (vd.val, 5), (34, 6)] _ rfl (by simp only [pack, mkWord]; omega) f rfl fun hl => ?_
  have h0 : bits _ 0 6 = 8 := bits_field f 0 rfl rfl rfl
  have h1 : bits _ 6 2 = src.kind := bits_field f 1 rfl rfl rfl
  have h2 : bits _ 8 3 = m.val := bits_field f 2 rfl rfl rfl
  have h3 : bits _ 11 5 = src.field := bits_field f 3 rfl rfl rfl
  have h4 : bits _ 16 5 = va.val := bits_field f 4 rfl rfl rfl
  have h5 : bits _ 21 5 = vd.val := bits_field f 5 rfl rfl rfl
  have h6 : bits _ 26 6 = 34 := bits_field f 6 rfl rfl rfl
  generalize mkWord _ = w at *
  rw [decodeWord_22 h6]
  simp only [decodeOp22, h0]
  simp only [h1, fin8_of h2, h3, Src_code, fin32_of h4, fin32_of h5, Option.bind_some, Option.map_some]
theorem RoundTrip.vfsqrt (vd : Reg) (rm : Rm) (vb : Reg) (m : MaskReg) : RoundTrip.Statement (.vfsqrt vd rm vb m) := by
  have f : Fits [(9, 6), (0, 2), (m.val, 3), (vb.val, 5), (rm.code, 5), (vd.val, 5), (34, 6)] := ⟨by decide, by decide, m.isLt, vb.isLt, Rm_lt5 rm, vd.isLt, by decide, trivial⟩
  refine roundTrip_of [(9, 6), (0, 2), (m.val, 3), (vb.val, 5), (rm.code, 5), (vd.val, 5), (34, 6)] _ rfl (by simp only [pack, mkWord]; omega) f rfl fun hl => ?_
  have h0 : bits _ 0 6 = 9 := bits_field f 0 rfl rfl rfl
  have h1 : bits _ 6 2 = 0 := bits_field f 1 rfl rfl rfl
  have h2 : bits _ 8 3 = m.val := bits_field f 2 rfl rfl rfl
  have h3 : bits _ 11 5 = vb.val := bits_field f 3 rfl rfl rfl
  have h4 : bits _ 16 5 = rm.code := bits_field f 4 rfl rfl rfl
  have h5 : bits _ 21 5 = vd.val := bits_field f 5 rfl rfl rfl
  have h6 : bits _ 26 6 = 34 := bits_field f 6 rfl rfl rfl
  generalize mkWord _ = w at *
  rw [decodeWord_22 h6]
  simp only [decodeOp22, h0, h1, and_self, if_true]
  simp only [fin8_of h2, fin32_of h3, h4, Rm_code, fin32_of h5, Option.bind_some, Option.map_some]
theorem RoundTrip.vfrcp (vd : Reg) (rm : Rm) (vb : Reg) (m : MaskReg) : RoundTrip.Statement (.vfrcp vd rm vb m) := by
  have f : Fits [(10, 6), (0, 2), (m.val, 3), (vb.val, 5), (rm.code, 5), (vd.val, 5), (34, 6)] := ⟨by decide, by decide, m.isLt, vb.isLt, Rm_lt5 rm, vd.isLt, by decide, trivial⟩
  refine roundTrip_of [(10, 6), (0, 2), (m.val, 3), (vb.val, 5), (rm.code, 5), (vd.val, 5), (34, 6)] _ rfl (by simp only [pack, mkWord]; omega) f rfl fun hl => ?_
  have h0 : bits _ 0 6 = 10 := bits_field f 0 rfl rfl rfl
  have h1 : bits _ 6 2 = 0 := bits_field f 1 rfl rfl rfl
  have h2 : bits _ 8 3 = m.val := bits_field f 2 rfl rfl rfl
  have h3 : bits _ 11 5 = vb.val := bits_field f 3 rfl rfl rfl
  have h4 : bits _ 16 5 = rm.code := bits_field f 4 rfl rfl rfl
  have h5 : bits _ 21 5 = vd.val := bits_field f 5 rfl rfl rfl
  have h6 : bits _ 26 6 = 34 := bits_field f 6 rfl rfl rfl
  generalize mkWord _ = w at *
  rw [decodeWord_22 h6]
  simp only [decodeOp22, h0, h1, and_self, if_true]
  simp only [fin8_of h2, fin32_of h3, h4, Rm_code, fin32_of h5, Option.bind_some, Option.map_some]
theorem RoundTrip.vfrsq (vd : Reg) (rm : Rm) (vb : Reg) (m : MaskReg) : RoundTrip.Statement (.vfrsq vd rm vb m) := by
  have f : Fits [(11, 6), (0, 2), (m.val, 3), (vb.val, 5), (rm.code, 5), (vd.val, 5), (34, 6)] := ⟨by decide, by decide, m.isLt, vb.isLt, Rm_lt5 rm, vd.isLt, by decide, trivial⟩
  refine roundTrip_of [(11, 6), (0, 2), (m.val, 3), (vb.val, 5), (rm.code, 5), (vd.val, 5), (34, 6)] _ rfl (by simp only [pack, mkWord]; omega) f rfl fun hl => ?_
  have h0 : bits _ 0 6 = 11 := bits_field f 0 rfl rfl rfl
  have h1 : bits _ 6 2 = 0 := bits_field f 1 rfl rfl rfl
  have h2 : bits _ 8 3 = m.val := bits_field f 2 rfl rfl rfl
  have h3 : bits _ 11 5 = vb.val := bits_field f 3 rfl rfl rfl
  have h4 : bits _ 16 5 = rm.code := bits_field f 4 rfl rfl rfl
  have h5 : bits _ 21 5 = vd.val := bits_field f 5 rfl rfl rfl
  have h6 : bits _ 26 6 = 34 := bits_field f 6 rfl rfl rfl
  generalize mkWord _ = w at *
  rw [decodeWord_22 h6]
  simp only [decodeOp22, h0, h1, and_self, if_true]
  simp only [fin8_of h2, fin32_of h3, h4, Rm_code, fin32_of h5, Option.bind_some, Option.map_some]
theorem RoundTrip.vfexp2 (vd : Reg) (rm : Rm) (vb : Reg) (m : MaskReg) : RoundTrip.Statement (.vfexp2 vd rm vb m) := by
  have f : Fits [(12, 6), (0, 2), (m.val, 3), (vb.val, 5), (rm.code, 5), (vd.val, 5), (34, 6)] := ⟨by decide, by decide, m.isLt, vb.isLt, Rm_lt5 rm, vd.isLt, by decide, trivial⟩
  refine roundTrip_of [(12, 6), (0, 2), (m.val, 3), (vb.val, 5), (rm.code, 5), (vd.val, 5), (34, 6)] _ rfl (by simp only [pack, mkWord]; omega) f rfl fun hl => ?_
  have h0 : bits _ 0 6 = 12 := bits_field f 0 rfl rfl rfl
  have h1 : bits _ 6 2 = 0 := bits_field f 1 rfl rfl rfl
  have h2 : bits _ 8 3 = m.val := bits_field f 2 rfl rfl rfl
  have h3 : bits _ 11 5 = vb.val := bits_field f 3 rfl rfl rfl
  have h4 : bits _ 16 5 = rm.code := bits_field f 4 rfl rfl rfl
  have h5 : bits _ 21 5 = vd.val := bits_field f 5 rfl rfl rfl
  have h6 : bits _ 26 6 = 34 := bits_field f 6 rfl rfl rfl
  generalize mkWord _ = w at *
  rw [decodeWord_22 h6]
  simp only [decodeOp22, h0, h1, and_self, if_true]
  simp only [fin8_of h2, fin32_of h3, h4, Rm_code, fin32_of h5, Option.bind_some, Option.map_some]
theorem RoundTrip.vfcmpEq (md : MaskReg) (va : Reg) (src : Src) (m : MaskReg) : RoundTrip.Statement (.vfcmpEq md va src m) := by
  have f : Fits [(13, 6), (src.kind, 2), (m.val, 3), (src.field, 5), (va.val, 5), (md.val, 3), (0, 2), (34, 6)] := ⟨by decide, Src_kind_lt src, m.isLt, Src_field_lt src, va.isLt, md.isLt, by decide, by decide, trivial⟩
  refine roundTrip_of [(13, 6), (src.kind, 2), (m.val, 3), (src.field, 5), (va.val, 5), (md.val, 3), (0, 2), (34, 6)] _ rfl (by simp only [pack, mkWord]; omega) f rfl fun hl => ?_
  have h0 : bits _ 0 6 = 13 := bits_field f 0 rfl rfl rfl
  have h1 : bits _ 6 2 = src.kind := bits_field f 1 rfl rfl rfl
  have h2 : bits _ 8 3 = m.val := bits_field f 2 rfl rfl rfl
  have h3 : bits _ 11 5 = src.field := bits_field f 3 rfl rfl rfl
  have h4 : bits _ 16 5 = va.val := bits_field f 4 rfl rfl rfl
  have h5 : bits _ 21 3 = md.val := bits_field f 5 rfl rfl rfl
  have h6 : bits _ 24 2 = 0 := bits_field f 6 rfl rfl rfl
  have h7 : bits _ 26 6 = 34 := bits_field f 7 rfl rfl rfl
  generalize mkWord _ = w at *
  rw [decodeWord_22 h7]
  simp only [decodeOp22, h0, h6, and_self, if_true]
  simp only [h1, fin8_of h2, h3, Src_code, fin32_of h4, fin8_of h5, Option.bind_some, Option.map_some]
theorem RoundTrip.vfcmpLt (md : MaskReg) (va : Reg) (src : Src) (m : MaskReg) : RoundTrip.Statement (.vfcmpLt md va src m) := by
  have f : Fits [(14, 6), (src.kind, 2), (m.val, 3), (src.field, 5), (va.val, 5), (md.val, 3), (0, 2), (34, 6)] := ⟨by decide, Src_kind_lt src, m.isLt, Src_field_lt src, va.isLt, md.isLt, by decide, by decide, trivial⟩
  refine roundTrip_of [(14, 6), (src.kind, 2), (m.val, 3), (src.field, 5), (va.val, 5), (md.val, 3), (0, 2), (34, 6)] _ rfl (by simp only [pack, mkWord]; omega) f rfl fun hl => ?_
  have h0 : bits _ 0 6 = 14 := bits_field f 0 rfl rfl rfl
  have h1 : bits _ 6 2 = src.kind := bits_field f 1 rfl rfl rfl
  have h2 : bits _ 8 3 = m.val := bits_field f 2 rfl rfl rfl
  have h3 : bits _ 11 5 = src.field := bits_field f 3 rfl rfl rfl
  have h4 : bits _ 16 5 = va.val := bits_field f 4 rfl rfl rfl
  have h5 : bits _ 21 3 = md.val := bits_field f 5 rfl rfl rfl
  have h6 : bits _ 24 2 = 0 := bits_field f 6 rfl rfl rfl
  have h7 : bits _ 26 6 = 34 := bits_field f 7 rfl rfl rfl
  generalize mkWord _ = w at *
  rw [decodeWord_22 h7]
  simp only [decodeOp22, h0, h6, and_self, if_true]
  simp only [h1, fin8_of h2, h3, Src_code, fin32_of h4, fin8_of h5, Option.bind_some, Option.map_some]
theorem RoundTrip.vfcmpLe (md : MaskReg) (va : Reg) (src : Src) (m : MaskReg) : RoundTrip.Statement (.vfcmpLe md va src m) := by
  have f : Fits [(15, 6), (src.kind, 2), (m.val, 3), (src.field, 5), (va.val, 5), (md.val, 3), (0, 2), (34, 6)] := ⟨by decide, Src_kind_lt src, m.isLt, Src_field_lt src, va.isLt, md.isLt, by decide, by decide, trivial⟩
  refine roundTrip_of [(15, 6), (src.kind, 2), (m.val, 3), (src.field, 5), (va.val, 5), (md.val, 3), (0, 2), (34, 6)] _ rfl (by simp only [pack, mkWord]; omega) f rfl fun hl => ?_
  have h0 : bits _ 0 6 = 15 := bits_field f 0 rfl rfl rfl
  have h1 : bits _ 6 2 = src.kind := bits_field f 1 rfl rfl rfl
  have h2 : bits _ 8 3 = m.val := bits_field f 2 rfl rfl rfl
  have h3 : bits _ 11 5 = src.field := bits_field f 3 rfl rfl rfl
  have h4 : bits _ 16 5 = va.val := bits_field f 4 rfl rfl rfl
  have h5 : bits _ 21 3 = md.val := bits_field f 5 rfl rfl rfl
  have h6 : bits _ 24 2 = 0 := bits_field f 6 rfl rfl rfl
  have h7 : bits _ 26 6 = 34 := bits_field f 7 rfl rfl rfl
  generalize mkWord _ = w at *
  rw [decodeWord_22 h7]
  simp only [decodeOp22, h0, h6, and_self, if_true]
  simp only [h1, fin8_of h2, h3, Src_code, fin32_of h4, fin8_of h5, Option.bind_some, Option.map_some]
theorem RoundTrip.vfclass (vd : Reg) (src : Src) (m : MaskReg) : RoundTrip.Statement (.vfclass vd src m) := by
  have f : Fits [(16, 6), (src.kind, 2), (m.val, 3), (src.field, 5), (0, 5), (vd.val, 5), (34, 6)] := ⟨by decide, Src_kind_lt src, m.isLt, Src_field_lt src, by decide, vd.isLt, by decide, trivial⟩
  refine roundTrip_of [(16, 6), (src.kind, 2), (m.val, 3), (src.field, 5), (0, 5), (vd.val, 5), (34, 6)] _ rfl (by simp only [pack, mkWord]; omega) f rfl fun hl => ?_
  have h0 : bits _ 0 6 = 16 := bits_field f 0 rfl rfl rfl
  have h1 : bits _ 6 2 = src.kind := bits_field f 1 rfl rfl rfl
  have h2 : bits _ 8 3 = m.val := bits_field f 2 rfl rfl rfl
  have h3 : bits _ 11 5 = src.field := bits_field f 3 rfl rfl rfl
  have h4 : bits _ 16 5 = 0 := bits_field f 4 rfl rfl rfl
  have h5 : bits _ 21 5 = vd.val := bits_field f 5 rfl rfl rfl
  have h6 : bits _ 26 6 = 34 := bits_field f 6 rfl rfl rfl
  generalize mkWord _ = w at *
  rw [decodeWord_22 h6]
  simp only [decodeOp22, h0, h4, and_self, if_true]
  simp only [h1, fin8_of h2, h3, Src_code, fin32_of h5, Option.bind_some, Option.map_some]
theorem RoundTrip.vfsgnj (vd : Reg) (va : Reg) (src : Src) (m : MaskReg) : RoundTrip.Statement (.vfsgnj vd va src m) := by
  have f : Fits [(17, 6), (src.kind, 2), (m.val, 3), (src.field, 5), (va.val, 5), (vd.val, 5), (34, 6)] := ⟨by decide, Src_kind_lt src, m.isLt, Src_field_lt src, va.isLt, vd.isLt, by decide, trivial⟩
  refine roundTrip_of [(17, 6), (src.kind, 2), (m.val, 3), (src.field, 5), (va.val, 5), (vd.val, 5), (34, 6)] _ rfl (by simp only [pack, mkWord]; omega) f rfl fun hl => ?_
  have h0 : bits _ 0 6 = 17 := bits_field f 0 rfl rfl rfl
  have h1 : bits _ 6 2 = src.kind := bits_field f 1 rfl rfl rfl
  have h2 : bits _ 8 3 = m.val := bits_field f 2 rfl rfl rfl
  have h3 : bits _ 11 5 = src.field := bits_field f 3 rfl rfl rfl
  have h4 : bits _ 16 5 = va.val := bits_field f 4 rfl rfl rfl
  have h5 : bits _ 21 5 = vd.val := bits_field f 5 rfl rfl rfl
  have h6 : bits _ 26 6 = 34 := bits_field f 6 rfl rfl rfl
  generalize mkWord _ = w at *
  rw [decodeWord_22 h6]
  simp only [decodeOp22, h0]
  simp only [h1, fin8_of h2, h3, Src_code, fin32_of h4, fin32_of h5, Option.bind_some, Option.map_some]
theorem RoundTrip.mand (md : MaskReg) (ma : MaskReg) (mb : MaskReg) : RoundTrip.Statement (.mand md ma mb) := by
  have f : Fits [(0, 6), (0, 5), (mb.val, 3), (0, 2), (ma.val, 3), (0, 2), (md.val, 3), (0, 2), (35, 6)] := ⟨by decide, by decide, mb.isLt, by decide, ma.isLt, by decide, md.isLt, by decide, by decide, trivial⟩
  refine roundTrip_of [(0, 6), (0, 5), (mb.val, 3), (0, 2), (ma.val, 3), (0, 2), (md.val, 3), (0, 2), (35, 6)] _ rfl (by simp only [pack, mkWord]; omega) f rfl fun hl => ?_
  have h0 : bits _ 0 6 = 0 := bits_field f 0 rfl rfl rfl
  have h1 : bits _ 6 5 = 0 := bits_field f 1 rfl rfl rfl
  have h2 : bits _ 11 3 = mb.val := bits_field f 2 rfl rfl rfl
  have h3 : bits _ 14 2 = 0 := bits_field f 3 rfl rfl rfl
  have h4 : bits _ 16 3 = ma.val := bits_field f 4 rfl rfl rfl
  have h5 : bits _ 19 2 = 0 := bits_field f 5 rfl rfl rfl
  have h6 : bits _ 21 3 = md.val := bits_field f 6 rfl rfl rfl
  have h7 : bits _ 24 2 = 0 := bits_field f 7 rfl rfl rfl
  have h8 : bits _ 26 6 = 35 := bits_field f 8 rfl rfl rfl
  generalize mkWord _ = w at *
  rw [decodeWord_23 h8]
  simp only [decodeOp23, h0, h1, h3, h5, h7, and_self, if_true]
  simp only [fin8_of h2, fin8_of h4, fin8_of h6]
theorem RoundTrip.mor (md : MaskReg) (ma : MaskReg) (mb : MaskReg) : RoundTrip.Statement (.mor md ma mb) := by
  have f : Fits [(1, 6), (0, 5), (mb.val, 3), (0, 2), (ma.val, 3), (0, 2), (md.val, 3), (0, 2), (35, 6)] := ⟨by decide, by decide, mb.isLt, by decide, ma.isLt, by decide, md.isLt, by decide, by decide, trivial⟩
  refine roundTrip_of [(1, 6), (0, 5), (mb.val, 3), (0, 2), (ma.val, 3), (0, 2), (md.val, 3), (0, 2), (35, 6)] _ rfl (by simp only [pack, mkWord]; omega) f rfl fun hl => ?_
  have h0 : bits _ 0 6 = 1 := bits_field f 0 rfl rfl rfl
  have h1 : bits _ 6 5 = 0 := bits_field f 1 rfl rfl rfl
  have h2 : bits _ 11 3 = mb.val := bits_field f 2 rfl rfl rfl
  have h3 : bits _ 14 2 = 0 := bits_field f 3 rfl rfl rfl
  have h4 : bits _ 16 3 = ma.val := bits_field f 4 rfl rfl rfl
  have h5 : bits _ 19 2 = 0 := bits_field f 5 rfl rfl rfl
  have h6 : bits _ 21 3 = md.val := bits_field f 6 rfl rfl rfl
  have h7 : bits _ 24 2 = 0 := bits_field f 7 rfl rfl rfl
  have h8 : bits _ 26 6 = 35 := bits_field f 8 rfl rfl rfl
  generalize mkWord _ = w at *
  rw [decodeWord_23 h8]
  simp only [decodeOp23, h0, h1, h3, h5, h7, and_self, if_true]
  simp only [fin8_of h2, fin8_of h4, fin8_of h6]
theorem RoundTrip.mxor (md : MaskReg) (ma : MaskReg) (mb : MaskReg) : RoundTrip.Statement (.mxor md ma mb) := by
  have f : Fits [(2, 6), (0, 5), (mb.val, 3), (0, 2), (ma.val, 3), (0, 2), (md.val, 3), (0, 2), (35, 6)] := ⟨by decide, by decide, mb.isLt, by decide, ma.isLt, by decide, md.isLt, by decide, by decide, trivial⟩
  refine roundTrip_of [(2, 6), (0, 5), (mb.val, 3), (0, 2), (ma.val, 3), (0, 2), (md.val, 3), (0, 2), (35, 6)] _ rfl (by simp only [pack, mkWord]; omega) f rfl fun hl => ?_
  have h0 : bits _ 0 6 = 2 := bits_field f 0 rfl rfl rfl
  have h1 : bits _ 6 5 = 0 := bits_field f 1 rfl rfl rfl
  have h2 : bits _ 11 3 = mb.val := bits_field f 2 rfl rfl rfl
  have h3 : bits _ 14 2 = 0 := bits_field f 3 rfl rfl rfl
  have h4 : bits _ 16 3 = ma.val := bits_field f 4 rfl rfl rfl
  have h5 : bits _ 19 2 = 0 := bits_field f 5 rfl rfl rfl
  have h6 : bits _ 21 3 = md.val := bits_field f 6 rfl rfl rfl
  have h7 : bits _ 24 2 = 0 := bits_field f 7 rfl rfl rfl
  have h8 : bits _ 26 6 = 35 := bits_field f 8 rfl rfl rfl
  generalize mkWord _ = w at *
  rw [decodeWord_23 h8]
  simp only [decodeOp23, h0, h1, h3, h5, h7, and_self, if_true]
  simp only [fin8_of h2, fin8_of h4, fin8_of h6]
theorem RoundTrip.mnot (md : MaskReg) (ma : MaskReg) : RoundTrip.Statement (.mnot md ma) := by
  have f : Fits [(3, 6), (0, 10), (ma.val, 3), (0, 2), (md.val, 3), (0, 2), (35, 6)] := ⟨by decide, by decide, ma.isLt, by decide, md.isLt, by decide, by decide, trivial⟩
  refine roundTrip_of [(3, 6), (0, 10), (ma.val, 3), (0, 2), (md.val, 3), (0, 2), (35, 6)] _ rfl (by simp only [pack, mkWord]; omega) f rfl fun hl => ?_
  have h0 : bits _ 0 6 = 3 := bits_field f 0 rfl rfl rfl
  have h1 : bits _ 6 10 = 0 := bits_field f 1 rfl rfl rfl
  have h2 : bits _ 16 3 = ma.val := bits_field f 2 rfl rfl rfl
  have h3 : bits _ 19 2 = 0 := bits_field f 3 rfl rfl rfl
  have h4 : bits _ 21 3 = md.val := bits_field f 4 rfl rfl rfl
  have h5 : bits _ 24 2 = 0 := bits_field f 5 rfl rfl rfl
  have h6 : bits _ 26 6 = 35 := bits_field f 6 rfl rfl rfl
  generalize mkWord _ = w at *
  rw [decodeWord_23 h6]
  simp only [decodeOp23, h0, h1, h3, h5, and_self, if_true]
  simp only [fin8_of h2, fin8_of h4]
theorem RoundTrip.mlist (md : MaskReg) : RoundTrip.Statement (.mlist md) := by
  have f : Fits [(4, 6), (0, 15), (md.val, 3), (0, 2), (35, 6)] := ⟨by decide, by decide, md.isLt, by decide, by decide, trivial⟩
  refine roundTrip_of [(4, 6), (0, 15), (md.val, 3), (0, 2), (35, 6)] _ rfl (by simp only [pack, mkWord]; omega) f rfl fun hl => ?_
  have h0 : bits _ 0 6 = 4 := bits_field f 0 rfl rfl rfl
  have h1 : bits _ 6 15 = 0 := bits_field f 1 rfl rfl rfl
  have h2 : bits _ 21 3 = md.val := bits_field f 2 rfl rfl rfl
  have h3 : bits _ 24 2 = 0 := bits_field f 3 rfl rfl rfl
  have h4 : bits _ 26 6 = 35 := bits_field f 4 rfl rfl rfl
  generalize mkWord _ = w at *
  rw [decodeWord_23 h4]
  simp only [decodeOp23, h0, h1, h3, and_self, if_true]
  simp only [fin8_of h2]
theorem RoundTrip.mbits (md : MaskReg) : RoundTrip.Statement (.mbits md) := by
  have f : Fits [(5, 6), (0, 15), (md.val, 3), (0, 2), (35, 6)] := ⟨by decide, by decide, md.isLt, by decide, by decide, trivial⟩
  refine roundTrip_of [(5, 6), (0, 15), (md.val, 3), (0, 2), (35, 6)] _ rfl (by simp only [pack, mkWord]; omega) f rfl fun hl => ?_
  have h0 : bits _ 0 6 = 5 := bits_field f 0 rfl rfl rfl
  have h1 : bits _ 6 15 = 0 := bits_field f 1 rfl rfl rfl
  have h2 : bits _ 21 3 = md.val := bits_field f 2 rfl rfl rfl
  have h3 : bits _ 24 2 = 0 := bits_field f 3 rfl rfl rfl
  have h4 : bits _ 26 6 = 35 := bits_field f 4 rfl rfl rfl
  generalize mkWord _ = w at *
  rw [decodeWord_23 h4]
  simp only [decodeOp23, h0, h1, h3, and_self, if_true]
  simp only [fin8_of h2]
theorem RoundTrip.mpop (vd : Reg) (ma : MaskReg) : RoundTrip.Statement (.mpop vd ma) := by
  have f : Fits [(6, 6), (0, 10), (ma.val, 3), (0, 2), (vd.val, 5), (35, 6)] := ⟨by decide, by decide, ma.isLt, by decide, vd.isLt, by decide, trivial⟩
  refine roundTrip_of [(6, 6), (0, 10), (ma.val, 3), (0, 2), (vd.val, 5), (35, 6)] _ rfl (by simp only [pack, mkWord]; omega) f rfl fun hl => ?_
  have h0 : bits _ 0 6 = 6 := bits_field f 0 rfl rfl rfl
  have h1 : bits _ 6 10 = 0 := bits_field f 1 rfl rfl rfl
  have h2 : bits _ 16 3 = ma.val := bits_field f 2 rfl rfl rfl
  have h3 : bits _ 19 2 = 0 := bits_field f 3 rfl rfl rfl
  have h4 : bits _ 21 5 = vd.val := bits_field f 4 rfl rfl rfl
  have h5 : bits _ 26 6 = 35 := bits_field f 5 rfl rfl rfl
  generalize mkWord _ = w at *
  rw [decodeWord_23 h5]
  simp only [decodeOp23, h0, h1, h3, and_self, if_true]
  simp only [fin8_of h2, fin32_of h4]
theorem RoundTrip.mfirst (vd : Reg) (ma : MaskReg) : RoundTrip.Statement (.mfirst vd ma) := by
  have f : Fits [(7, 6), (0, 10), (ma.val, 3), (0, 2), (vd.val, 5), (35, 6)] := ⟨by decide, by decide, ma.isLt, by decide, vd.isLt, by decide, trivial⟩
  refine roundTrip_of [(7, 6), (0, 10), (ma.val, 3), (0, 2), (vd.val, 5), (35, 6)] _ rfl (by simp only [pack, mkWord]; omega) f rfl fun hl => ?_
  have h0 : bits _ 0 6 = 7 := bits_field f 0 rfl rfl rfl
  have h1 : bits _ 6 10 = 0 := bits_field f 1 rfl rfl rfl
  have h2 : bits _ 16 3 = ma.val := bits_field f 2 rfl rfl rfl
  have h3 : bits _ 19 2 = 0 := bits_field f 3 rfl rfl rfl
  have h4 : bits _ 21 5 = vd.val := bits_field f 4 rfl rfl rfl
  have h5 : bits _ 26 6 = 35 := bits_field f 5 rfl rfl rfl
  generalize mkWord _ = w at *
  rw [decodeWord_23 h5]
  simp only [decodeOp23, h0, h1, h3, and_self, if_true]
  simp only [fin8_of h2, fin32_of h4]
theorem RoundTrip.vpopx (vd : Reg) (src : Src) (m : MaskReg) : RoundTrip.Statement (.vpopx vd src m) := by
  have f : Fits [(8, 6), (src.kind, 2), (m.val, 3), (src.field, 5), (0, 5), (vd.val, 5), (35, 6)] := ⟨by decide, Src_kind_lt src, m.isLt, Src_field_lt src, by decide, vd.isLt, by decide, trivial⟩
  refine roundTrip_of [(8, 6), (src.kind, 2), (m.val, 3), (src.field, 5), (0, 5), (vd.val, 5), (35, 6)] _ rfl (by simp only [pack, mkWord]; omega) f rfl fun hl => ?_
  have h0 : bits _ 0 6 = 8 := bits_field f 0 rfl rfl rfl
  have h1 : bits _ 6 2 = src.kind := bits_field f 1 rfl rfl rfl
  have h2 : bits _ 8 3 = m.val := bits_field f 2 rfl rfl rfl
  have h3 : bits _ 11 5 = src.field := bits_field f 3 rfl rfl rfl
  have h4 : bits _ 16 5 = 0 := bits_field f 4 rfl rfl rfl
  have h5 : bits _ 21 5 = vd.val := bits_field f 5 rfl rfl rfl
  have h6 : bits _ 26 6 = 35 := bits_field f 6 rfl rfl rfl
  generalize mkWord _ = w at *
  rw [decodeWord_23 h6]
  simp only [decodeOp23, h0, h4, and_self, if_true]
  simp only [h1, fin8_of h2, h3, Src_code, fin32_of h5, Option.bind_some, Option.map_some]
theorem RoundTrip.vxsect (vd : Reg) (va : Reg) (src : Src) (m : MaskReg) : RoundTrip.Statement (.vxsect vd va src m) := by
  have f : Fits [(9, 6), (src.kind, 2), (m.val, 3), (src.field, 5), (va.val, 5), (vd.val, 5), (35, 6)] := ⟨by decide, Src_kind_lt src, m.isLt, Src_field_lt src, va.isLt, vd.isLt, by decide, trivial⟩
  refine roundTrip_of [(9, 6), (src.kind, 2), (m.val, 3), (src.field, 5), (va.val, 5), (vd.val, 5), (35, 6)] _ rfl (by simp only [pack, mkWord]; omega) f rfl fun hl => ?_
  have h0 : bits _ 0 6 = 9 := bits_field f 0 rfl rfl rfl
  have h1 : bits _ 6 2 = src.kind := bits_field f 1 rfl rfl rfl
  have h2 : bits _ 8 3 = m.val := bits_field f 2 rfl rfl rfl
  have h3 : bits _ 11 5 = src.field := bits_field f 3 rfl rfl rfl
  have h4 : bits _ 16 5 = va.val := bits_field f 4 rfl rfl rfl
  have h5 : bits _ 21 5 = vd.val := bits_field f 5 rfl rfl rfl
  have h6 : bits _ 26 6 = 35 := bits_field f 6 rfl rfl rfl
  generalize mkWord _ = w at *
  rw [decodeWord_23 h6]
  simp only [decodeOp23, h0]
  simp only [h1, fin8_of h2, h3, Src_code, fin32_of h4, fin32_of h5, Option.bind_some, Option.map_some]
theorem RoundTrip.vsegl (vd : Reg) (src : Src) (m : MaskReg) : RoundTrip.Statement (.vsegl vd src m) := by
  have f : Fits [(10, 6), (src.kind, 2), (m.val, 3), (src.field, 5), (0, 5), (vd.val, 5), (35, 6)] := ⟨by decide, Src_kind_lt src, m.isLt, Src_field_lt src, by decide, vd.isLt, by decide, trivial⟩
  refine roundTrip_of [(10, 6), (src.kind, 2), (m.val, 3), (src.field, 5), (0, 5), (vd.val, 5), (35, 6)] _ rfl (by simp only [pack, mkWord]; omega) f rfl fun hl => ?_
  have h0 : bits _ 0 6 = 10 := bits_field f 0 rfl rfl rfl
  have h1 : bits _ 6 2 = src.kind := bits_field f 1 rfl rfl rfl
  have h2 : bits _ 8 3 = m.val := bits_field f 2 rfl rfl rfl
  have h3 : bits _ 11 5 = src.field := bits_field f 3 rfl rfl rfl
  have h4 : bits _ 16 5 = 0 := bits_field f 4 rfl rfl rfl
  have h5 : bits _ 21 5 = vd.val := bits_field f 5 rfl rfl rfl
  have h6 : bits _ 26 6 = 35 := bits_field f 6 rfl rfl rfl
  generalize mkWord _ = w at *
  rw [decodeWord_23 h6]
  simp only [decodeOp23, h0, h4, and_self, if_true]
  simp only [h1, fin8_of h2, h3, Src_code, fin32_of h5, Option.bind_some, Option.map_some]
theorem RoundTrip.vslup (vd : Reg) (va : Reg) (src : Src) (m : MaskReg) : RoundTrip.Statement (.vslup vd va src m) := by
  have f : Fits [(0, 6), (src.kind, 2), (m.val, 3), (src.field, 5), (va.val, 5), (vd.val, 5), (36, 6)] := ⟨by decide, Src_kind_lt src, m.isLt, Src_field_lt src, va.isLt, vd.isLt, by decide, trivial⟩
  refine roundTrip_of [(0, 6), (src.kind, 2), (m.val, 3), (src.field, 5), (va.val, 5), (vd.val, 5), (36, 6)] _ rfl (by simp only [pack, mkWord]; omega) f rfl fun hl => ?_
  have h0 : bits _ 0 6 = 0 := bits_field f 0 rfl rfl rfl
  have h1 : bits _ 6 2 = src.kind := bits_field f 1 rfl rfl rfl
  have h2 : bits _ 8 3 = m.val := bits_field f 2 rfl rfl rfl
  have h3 : bits _ 11 5 = src.field := bits_field f 3 rfl rfl rfl
  have h4 : bits _ 16 5 = va.val := bits_field f 4 rfl rfl rfl
  have h5 : bits _ 21 5 = vd.val := bits_field f 5 rfl rfl rfl
  have h6 : bits _ 26 6 = 36 := bits_field f 6 rfl rfl rfl
  generalize mkWord _ = w at *
  rw [decodeWord_24 h6]
  simp only [decodeOp24, h0]
  simp only [h1, fin8_of h2, h3, Src_code, fin32_of h4, fin32_of h5, Option.bind_some, Option.map_some]
theorem RoundTrip.vsldn (vd : Reg) (va : Reg) (src : Src) (m : MaskReg) : RoundTrip.Statement (.vsldn vd va src m) := by
  have f : Fits [(1, 6), (src.kind, 2), (m.val, 3), (src.field, 5), (va.val, 5), (vd.val, 5), (36, 6)] := ⟨by decide, Src_kind_lt src, m.isLt, Src_field_lt src, va.isLt, vd.isLt, by decide, trivial⟩
  refine roundTrip_of [(1, 6), (src.kind, 2), (m.val, 3), (src.field, 5), (va.val, 5), (vd.val, 5), (36, 6)] _ rfl (by simp only [pack, mkWord]; omega) f rfl fun hl => ?_
  have h0 : bits _ 0 6 = 1 := bits_field f 0 rfl rfl rfl
  have h1 : bits _ 6 2 = src.kind := bits_field f 1 rfl rfl rfl
  have h2 : bits _ 8 3 = m.val := bits_field f 2 rfl rfl rfl
  have h3 : bits _ 11 5 = src.field := bits_field f 3 rfl rfl rfl
  have h4 : bits _ 16 5 = va.val := bits_field f 4 rfl rfl rfl
  have h5 : bits _ 21 5 = vd.val := bits_field f 5 rfl rfl rfl
  have h6 : bits _ 26 6 = 36 := bits_field f 6 rfl rfl rfl
  generalize mkWord _ = w at *
  rw [decodeWord_24 h6]
  simp only [decodeOp24, h0]
  simp only [h1, fin8_of h2, h3, Src_code, fin32_of h4, fin32_of h5, Option.bind_some, Option.map_some]
theorem RoundTrip.vperm (vd : Reg) (va : Reg) (src : Src) (m : MaskReg) : RoundTrip.Statement (.vperm vd va src m) := by
  have f : Fits [(2, 6), (src.kind, 2), (m.val, 3), (src.field, 5), (va.val, 5), (vd.val, 5), (36, 6)] := ⟨by decide, Src_kind_lt src, m.isLt, Src_field_lt src, va.isLt, vd.isLt, by decide, trivial⟩
  refine roundTrip_of [(2, 6), (src.kind, 2), (m.val, 3), (src.field, 5), (va.val, 5), (vd.val, 5), (36, 6)] _ rfl (by simp only [pack, mkWord]; omega) f rfl fun hl => ?_
  have h0 : bits _ 0 6 = 2 := bits_field f 0 rfl rfl rfl
  have h1 : bits _ 6 2 = src.kind := bits_field f 1 rfl rfl rfl
  have h2 : bits _ 8 3 = m.val := bits_field f 2 rfl rfl rfl
  have h3 : bits _ 11 5 = src.field := bits_field f 3 rfl rfl rfl
  have h4 : bits _ 16 5 = va.val := bits_field f 4 rfl rfl rfl
  have h5 : bits _ 21 5 = vd.val := bits_field f 5 rfl rfl rfl
  have h6 : bits _ 26 6 = 36 := bits_field f 6 rfl rfl rfl
  generalize mkWord _ = w at *
  rw [decodeWord_24 h6]
  simp only [decodeOp24, h0]
  simp only [h1, fin8_of h2, h3, Src_code, fin32_of h4, fin32_of h5, Option.bind_some, Option.map_some]
theorem RoundTrip.vcompress (vd : Reg) (va : Reg) (m : MaskReg) : RoundTrip.Statement (.vcompress vd va m) := by
  have f : Fits [(3, 6), (0, 2), (m.val, 3), (0, 5), (va.val, 5), (vd.val, 5), (36, 6)] := ⟨by decide, by decide, m.isLt, by decide, va.isLt, vd.isLt, by decide, trivial⟩
  refine roundTrip_of [(3, 6), (0, 2), (m.val, 3), (0, 5), (va.val, 5), (vd.val, 5), (36, 6)] _ rfl (by simp only [pack, mkWord]; omega) f rfl fun hl => ?_
  have h0 : bits _ 0 6 = 3 := bits_field f 0 rfl rfl rfl
  have h1 : bits _ 6 2 = 0 := bits_field f 1 rfl rfl rfl
  have h2 : bits _ 8 3 = m.val := bits_field f 2 rfl rfl rfl
  have h3 : bits _ 11 5 = 0 := bits_field f 3 rfl rfl rfl
  have h4 : bits _ 16 5 = va.val := bits_field f 4 rfl rfl rfl
  have h5 : bits _ 21 5 = vd.val := bits_field f 5 rfl rfl rfl
  have h6 : bits _ 26 6 = 36 := bits_field f 6 rfl rfl rfl
  generalize mkWord _ = w at *
  rw [decodeWord_24 h6]
  simp only [decodeOp24, h0, h1, h3, and_self, if_true]
  simp only [fin8_of h2, fin32_of h4, fin32_of h5]
theorem RoundTrip.vexpand (vd : Reg) (va : Reg) (m : MaskReg) : RoundTrip.Statement (.vexpand vd va m) := by
  have f : Fits [(4, 6), (0, 2), (m.val, 3), (0, 5), (va.val, 5), (vd.val, 5), (36, 6)] := ⟨by decide, by decide, m.isLt, by decide, va.isLt, vd.isLt, by decide, trivial⟩
  refine roundTrip_of [(4, 6), (0, 2), (m.val, 3), (0, 5), (va.val, 5), (vd.val, 5), (36, 6)] _ rfl (by simp only [pack, mkWord]; omega) f rfl fun hl => ?_
  have h0 : bits _ 0 6 = 4 := bits_field f 0 rfl rfl rfl
  have h1 : bits _ 6 2 = 0 := bits_field f 1 rfl rfl rfl
  have h2 : bits _ 8 3 = m.val := bits_field f 2 rfl rfl rfl
  have h3 : bits _ 11 5 = 0 := bits_field f 3 rfl rfl rfl
  have h4 : bits _ 16 5 = va.val := bits_field f 4 rfl rfl rfl
  have h5 : bits _ 21 5 = vd.val := bits_field f 5 rfl rfl rfl
  have h6 : bits _ 26 6 = 36 := bits_field f 6 rfl rfl rfl
  generalize mkWord _ = w at *
  rw [decodeWord_24 h6]
  simp only [decodeOp24, h0, h1, h3, and_self, if_true]
  simp only [fin8_of h2, fin32_of h4, fin32_of h5]
theorem RoundTrip.vmatch (vd : Reg) (va : Reg) (src : Src) (m : MaskReg) : RoundTrip.Statement (.vmatch vd va src m) := by
  have f : Fits [(5, 6), (src.kind, 2), (m.val, 3), (src.field, 5), (va.val, 5), (vd.val, 5), (36, 6)] := ⟨by decide, Src_kind_lt src, m.isLt, Src_field_lt src, va.isLt, vd.isLt, by decide, trivial⟩
  refine roundTrip_of [(5, 6), (src.kind, 2), (m.val, 3), (src.field, 5), (va.val, 5), (vd.val, 5), (36, 6)] _ rfl (by simp only [pack, mkWord]; omega) f rfl fun hl => ?_
  have h0 : bits _ 0 6 = 5 := bits_field f 0 rfl rfl rfl
  have h1 : bits _ 6 2 = src.kind := bits_field f 1 rfl rfl rfl
  have h2 : bits _ 8 3 = m.val := bits_field f 2 rfl rfl rfl
  have h3 : bits _ 11 5 = src.field := bits_field f 3 rfl rfl rfl
  have h4 : bits _ 16 5 = va.val := bits_field f 4 rfl rfl rfl
  have h5 : bits _ 21 5 = vd.val := bits_field f 5 rfl rfl rfl
  have h6 : bits _ 26 6 = 36 := bits_field f 6 rfl rfl rfl
  generalize mkWord _ = w at *
  rw [decodeWord_24 h6]
  simp only [decodeOp24, h0]
  simp only [h1, fin8_of h2, h3, Src_code, fin32_of h4, fin32_of h5, Option.bind_some, Option.map_some]
theorem RoundTrip.vredsum (vd : Reg) (va : Reg) (src : Src) (m : MaskReg) : RoundTrip.Statement (.vredsum vd va src m) := by
  have f : Fits [(6, 6), (src.kind, 2), (m.val, 3), (src.field, 5), (va.val, 5), (vd.val, 5), (36, 6)] := ⟨by decide, Src_kind_lt src, m.isLt, Src_field_lt src, va.isLt, vd.isLt, by decide, trivial⟩
  refine roundTrip_of [(6, 6), (src.kind, 2), (m.val, 3), (src.field, 5), (va.val, 5), (vd.val, 5), (36, 6)] _ rfl (by simp only [pack, mkWord]; omega) f rfl fun hl => ?_
  have h0 : bits _ 0 6 = 6 := bits_field f 0 rfl rfl rfl
  have h1 : bits _ 6 2 = src.kind := bits_field f 1 rfl rfl rfl
  have h2 : bits _ 8 3 = m.val := bits_field f 2 rfl rfl rfl
  have h3 : bits _ 11 5 = src.field := bits_field f 3 rfl rfl rfl
  have h4 : bits _ 16 5 = va.val := bits_field f 4 rfl rfl rfl
  have h5 : bits _ 21 5 = vd.val := bits_field f 5 rfl rfl rfl
  have h6 : bits _ 26 6 = 36 := bits_field f 6 rfl rfl rfl
  generalize mkWord _ = w at *
  rw [decodeWord_24 h6]
  simp only [decodeOp24, h0]
  simp only [h1, fin8_of h2, h3, Src_code, fin32_of h4, fin32_of h5, Option.bind_some, Option.map_some]
theorem RoundTrip.vredmax (vd : Reg) (va : Reg) (src : Src) (m : MaskReg) : RoundTrip.Statement (.vredmax vd va src m) := by
  have f : Fits [(7, 6), (src.kind, 2), (m.val, 3), (src.field, 5), (va.val, 5), (vd.val, 5), (36, 6)] := ⟨by decide, Src_kind_lt src, m.isLt, Src_field_lt src, va.isLt, vd.isLt, by decide, trivial⟩
  refine roundTrip_of [(7, 6), (src.kind, 2), (m.val, 3), (src.field, 5), (va.val, 5), (vd.val, 5), (36, 6)] _ rfl (by simp only [pack, mkWord]; omega) f rfl fun hl => ?_
  have h0 : bits _ 0 6 = 7 := bits_field f 0 rfl rfl rfl
  have h1 : bits _ 6 2 = src.kind := bits_field f 1 rfl rfl rfl
  have h2 : bits _ 8 3 = m.val := bits_field f 2 rfl rfl rfl
  have h3 : bits _ 11 5 = src.field := bits_field f 3 rfl rfl rfl
  have h4 : bits _ 16 5 = va.val := bits_field f 4 rfl rfl rfl
  have h5 : bits _ 21 5 = vd.val := bits_field f 5 rfl rfl rfl
  have h6 : bits _ 26 6 = 36 := bits_field f 6 rfl rfl rfl
  generalize mkWord _ = w at *
  rw [decodeWord_24 h6]
  simp only [decodeOp24, h0]
  simp only [h1, fin8_of h2, h3, Src_code, fin32_of h4, fin32_of h5, Option.bind_some, Option.map_some]
theorem RoundTrip.vredmin (vd : Reg) (va : Reg) (src : Src) (m : MaskReg) : RoundTrip.Statement (.vredmin vd va src m) := by
  have f : Fits [(8, 6), (src.kind, 2), (m.val, 3), (src.field, 5), (va.val, 5), (vd.val, 5), (36, 6)] := ⟨by decide, Src_kind_lt src, m.isLt, Src_field_lt src, va.isLt, vd.isLt, by decide, trivial⟩
  refine roundTrip_of [(8, 6), (src.kind, 2), (m.val, 3), (src.field, 5), (va.val, 5), (vd.val, 5), (36, 6)] _ rfl (by simp only [pack, mkWord]; omega) f rfl fun hl => ?_
  have h0 : bits _ 0 6 = 8 := bits_field f 0 rfl rfl rfl
  have h1 : bits _ 6 2 = src.kind := bits_field f 1 rfl rfl rfl
  have h2 : bits _ 8 3 = m.val := bits_field f 2 rfl rfl rfl
  have h3 : bits _ 11 5 = src.field := bits_field f 3 rfl rfl rfl
  have h4 : bits _ 16 5 = va.val := bits_field f 4 rfl rfl rfl
  have h5 : bits _ 21 5 = vd.val := bits_field f 5 rfl rfl rfl
  have h6 : bits _ 26 6 = 36 := bits_field f 6 rfl rfl rfl
  generalize mkWord _ = w at *
  rw [decodeWord_24 h6]
  simp only [decodeOp24, h0]
  simp only [h1, fin8_of h2, h3, Src_code, fin32_of h4, fin32_of h5, Option.bind_some, Option.map_some]
theorem RoundTrip.vscan (vd : Reg) (src : Src) (m : MaskReg) : RoundTrip.Statement (.vscan vd src m) := by
  have f : Fits [(9, 6), (src.kind, 2), (m.val, 3), (src.field, 5), (0, 5), (vd.val, 5), (36, 6)] := ⟨by decide, Src_kind_lt src, m.isLt, Src_field_lt src, by decide, vd.isLt, by decide, trivial⟩
  refine roundTrip_of [(9, 6), (src.kind, 2), (m.val, 3), (src.field, 5), (0, 5), (vd.val, 5), (36, 6)] _ rfl (by simp only [pack, mkWord]; omega) f rfl fun hl => ?_
  have h0 : bits _ 0 6 = 9 := bits_field f 0 rfl rfl rfl
  have h1 : bits _ 6 2 = src.kind := bits_field f 1 rfl rfl rfl
  have h2 : bits _ 8 3 = m.val := bits_field f 2 rfl rfl rfl
  have h3 : bits _ 11 5 = src.field := bits_field f 3 rfl rfl rfl
  have h4 : bits _ 16 5 = 0 := bits_field f 4 rfl rfl rfl
  have h5 : bits _ 21 5 = vd.val := bits_field f 5 rfl rfl rfl
  have h6 : bits _ 26 6 = 36 := bits_field f 6 rfl rfl rfl
  generalize mkWord _ = w at *
  rw [decodeWord_24 h6]
  simp only [decodeOp24, h0, h4, and_self, if_true]
  simp only [h1, fin8_of h2, h3, Src_code, fin32_of h5, Option.bind_some, Option.map_some]
theorem RoundTrip.qswpH (vd : Reg) (vs : Reg) (m : MaskReg) : RoundTrip.Statement (.qswpH vd vs m) := by
  have f : Fits [(0, 6), (0, 2), (m.val, 3), (vs.val, 5), (0, 5), (vd.val, 5), (37, 6)] := ⟨by decide, by decide, m.isLt, vs.isLt, by decide, vd.isLt, by decide, trivial⟩
  refine roundTrip_of [(0, 6), (0, 2), (m.val, 3), (vs.val, 5), (0, 5), (vd.val, 5), (37, 6)] _ rfl (by simp only [pack, mkWord]; omega) f rfl fun hl => ?_
  have h0 : bits _ 0 6 = 0 := bits_field f 0 rfl rfl rfl
  have h1 : bits _ 6 2 = 0 := bits_field f 1 rfl rfl rfl
  have h2 : bits _ 8 3 = m.val := bits_field f 2 rfl rfl rfl
  have h3 : bits _ 11 5 = vs.val := bits_field f 3 rfl rfl rfl
  have h4 : bits _ 16 5 = 0 := bits_field f 4 rfl rfl rfl
  have h5 : bits _ 21 5 = vd.val := bits_field f 5 rfl rfl rfl
  have h6 : bits _ 26 6 = 37 := bits_field f 6 rfl rfl rfl
  generalize mkWord _ = w at *
  rw [decodeWord_25 h6]
  simp only [decodeOp25, h0, h1, h4, and_self, if_true]
  simp only [fin8_of h2, fin32_of h3, fin32_of h5]
theorem RoundTrip.qswpV (vd : Reg) (vs : Reg) (m : MaskReg) : RoundTrip.Statement (.qswpV vd vs m) := by
  have f : Fits [(1, 6), (0, 2), (m.val, 3), (vs.val, 5), (0, 5), (vd.val, 5), (37, 6)] := ⟨by decide, by decide, m.isLt, vs.isLt, by decide, vd.isLt, by decide, trivial⟩
  refine roundTrip_of [(1, 6), (0, 2), (m.val, 3), (vs.val, 5), (0, 5), (vd.val, 5), (37, 6)] _ rfl (by simp only [pack, mkWord]; omega) f rfl fun hl => ?_
  have h0 : bits _ 0 6 = 1 := bits_field f 0 rfl rfl rfl
  have h1 : bits _ 6 2 = 0 := bits_field f 1 rfl rfl rfl
  have h2 : bits _ 8 3 = m.val := bits_field f 2 rfl rfl rfl
  have h3 : bits _ 11 5 = vs.val := bits_field f 3 rfl rfl rfl
  have h4 : bits _ 16 5 = 0 := bits_field f 4 rfl rfl rfl
  have h5 : bits _ 21 5 = vd.val := bits_field f 5 rfl rfl rfl
  have h6 : bits _ 26 6 = 37 := bits_field f 6 rfl rfl rfl
  generalize mkWord _ = w at *
  rw [decodeWord_25 h6]
  simp only [decodeOp25, h0, h1, h4, and_self, if_true]
  simp only [fin8_of h2, fin32_of h3, fin32_of h5]
theorem RoundTrip.qswpD (vd : Reg) (vs : Reg) (m : MaskReg) : RoundTrip.Statement (.qswpD vd vs m) := by
  have f : Fits [(2, 6), (0, 2), (m.val, 3), (vs.val, 5), (0, 5), (vd.val, 5), (37, 6)] := ⟨by decide, by decide, m.isLt, vs.isLt, by decide, vd.isLt, by decide, trivial⟩
  refine roundTrip_of [(2, 6), (0, 2), (m.val, 3), (vs.val, 5), (0, 5), (vd.val, 5), (37, 6)] _ rfl (by simp only [pack, mkWord]; omega) f rfl fun hl => ?_
  have h0 : bits _ 0 6 = 2 := bits_field f 0 rfl rfl rfl
  have h1 : bits _ 6 2 = 0 := bits_field f 1 rfl rfl rfl
  have h2 : bits _ 8 3 = m.val := bits_field f 2 rfl rfl rfl
  have h3 : bits _ 11 5 = vs.val := bits_field f 3 rfl rfl rfl
  have h4 : bits _ 16 5 = 0 := bits_field f 4 rfl rfl rfl
  have h5 : bits _ 21 5 = vd.val := bits_field f 5 rfl rfl rfl
  have h6 : bits _ 26 6 = 37 := bits_field f 6 rfl rfl rfl
  generalize mkWord _ = w at *
  rw [decodeWord_25 h6]
  simp only [decodeOp25, h0, h1, h4, and_self, if_true]
  simp only [fin8_of h2, fin32_of h3, fin32_of h5]
theorem RoundTrip.qbc (vd : Reg) (va : Reg) (i : BitVec 5) (m : MaskReg) : RoundTrip.Statement (.qbc vd va i m) := by
  have f : Fits [(3, 6), (2, 2), (m.val, 3), (i.toNat, 5), (va.val, 5), (vd.val, 5), (37, 6)] := ⟨by decide, by decide, m.isLt, i.isLt, va.isLt, vd.isLt, by decide, trivial⟩
  refine roundTrip_of [(3, 6), (2, 2), (m.val, 3), (i.toNat, 5), (va.val, 5), (vd.val, 5), (37, 6)] _ rfl (by simp only [pack, mkWord]; omega) f rfl fun hl => ?_
  have h0 : bits _ 0 6 = 3 := bits_field f 0 rfl rfl rfl
  have h1 : bits _ 6 2 = 2 := bits_field f 1 rfl rfl rfl
  have h2 : bits _ 8 3 = m.val := bits_field f 2 rfl rfl rfl
  have h3 : bits _ 11 5 = i.toNat := bits_field f 3 rfl rfl rfl
  have h4 : bits _ 16 5 = va.val := bits_field f 4 rfl rfl rfl
  have h5 : bits _ 21 5 = vd.val := bits_field f 5 rfl rfl rfl
  have h6 : bits _ 26 6 = 37 := bits_field f 6 rfl rfl rfl
  generalize mkWord _ = w at *
  rw [decodeWord_25 h6]
  simp only [decodeOp25, h0, h1, and_self, if_true]
  simp only [fin8_of h2, bv_of h3, fin32_of h4, fin32_of h5]
theorem RoundTrip.qsnd (src : Src) (m : MaskReg) : RoundTrip.Statement (.qsnd src m) := by
  have f : Fits [(4, 6), (src.kind, 2), (m.val, 3), (src.field, 5), (0, 10), (37, 6)] := ⟨by decide, Src_kind_lt src, m.isLt, Src_field_lt src, by decide, by decide, trivial⟩
  refine roundTrip_of [(4, 6), (src.kind, 2), (m.val, 3), (src.field, 5), (0, 10), (37, 6)] _ rfl (by simp only [pack, mkWord]; omega) f rfl fun hl => ?_
  have h0 : bits _ 0 6 = 4 := bits_field f 0 rfl rfl rfl
  have h1 : bits _ 6 2 = src.kind := bits_field f 1 rfl rfl rfl
  have h2 : bits _ 8 3 = m.val := bits_field f 2 rfl rfl rfl
  have h3 : bits _ 11 5 = src.field := bits_field f 3 rfl rfl rfl
  have h4 : bits _ 16 10 = 0 := bits_field f 4 rfl rfl rfl
  have h5 : bits _ 26 6 = 37 := bits_field f 5 rfl rfl rfl
  generalize mkWord _ = w at *
  rw [decodeWord_25 h5]
  simp only [decodeOp25, h0, h4, and_self, if_true]
  simp only [h1, fin8_of h2, h3, Src_code, Option.bind_some, Option.map_some]
theorem RoundTrip.qrcv (vd : Reg) (m : MaskReg) : RoundTrip.Statement (.qrcv vd m) := by
  have f : Fits [(5, 6), (0, 2), (m.val, 3), (0, 10), (vd.val, 5), (37, 6)] := ⟨by decide, by decide, m.isLt, by decide, vd.isLt, by decide, trivial⟩
  refine roundTrip_of [(5, 6), (0, 2), (m.val, 3), (0, 10), (vd.val, 5), (37, 6)] _ rfl (by simp only [pack, mkWord]; omega) f rfl fun hl => ?_
  have h0 : bits _ 0 6 = 5 := bits_field f 0 rfl rfl rfl
  have h1 : bits _ 6 2 = 0 := bits_field f 1 rfl rfl rfl
  have h2 : bits _ 8 3 = m.val := bits_field f 2 rfl rfl rfl
  have h3 : bits _ 11 10 = 0 := bits_field f 3 rfl rfl rfl
  have h4 : bits _ 21 5 = vd.val := bits_field f 4 rfl rfl rfl
  have h5 : bits _ 26 6 = 37 := bits_field f 5 rfl rfl rfl
  generalize mkWord _ = w at *
  rw [decodeWord_25 h5]
  simp only [decodeOp25, h0, h1, h3, and_self, if_true]
  simp only [fin8_of h2, fin32_of h4]
theorem RoundTrip.tf (disp : BitVec 15) : RoundTrip.Statement (.tf disp) := by
  have f : Fits [(0, 3), (0, 8), (disp.toNat, 15), (38, 6)] := ⟨by decide, by decide, disp.isLt, by decide, trivial⟩
  refine roundTrip_of [(0, 3), (0, 8), (disp.toNat, 15), (38, 6)] _ rfl (by simp only [pack, mkWord]; omega) f rfl fun hl => ?_
  have h0 : bits _ 0 3 = 0 := bits_field f 0 rfl rfl rfl
  have h1 : bits _ 3 8 = 0 := bits_field f 1 rfl rfl rfl
  have h2 : bits _ 11 15 = disp.toNat := bits_field f 2 rfl rfl rfl
  have h3 : bits _ 26 6 = 38 := bits_field f 3 rfl rfl rfl
  generalize mkWord _ = w at *
  rw [decodeWord_26 h3]
  simp only [decodeOp26, h0, h1, and_self, if_true]
  simp only [bv_of h2]
theorem RoundTrip.tfc (disp : BitVec 15) (m : MaskReg) : RoundTrip.Statement (.tfc disp m) := by
  have f : Fits [(1, 3), (0, 5), (m.val, 3), (disp.toNat, 15), (38, 6)] := ⟨by decide, by decide, m.isLt, disp.isLt, by decide, trivial⟩
  refine roundTrip_of [(1, 3), (0, 5), (m.val, 3), (disp.toNat, 15), (38, 6)] _ rfl (by simp only [pack, mkWord]; omega) f rfl fun hl => ?_
  have h0 : bits _ 0 3 = 1 := bits_field f 0 rfl rfl rfl
  have h1 : bits _ 3 5 = 0 := bits_field f 1 rfl rfl rfl
  have h2 : bits _ 8 3 = m.val := bits_field f 2 rfl rfl rfl
  have h3 : bits _ 11 15 = disp.toNat := bits_field f 3 rfl rfl rfl
  have h4 : bits _ 26 6 = 38 := bits_field f 4 rfl rfl rfl
  generalize mkWord _ = w at *
  rw [decodeWord_26 h4]
  simp only [decodeOp26, h0, h1, and_self, if_true]
  simp only [fin8_of h2, bv_of h3]
theorem RoundTrip.tsetf (n : FlagNo) : RoundTrip.Statement (.tsetf n) := by
  have f : Fits [(3, 3), (0, 18), (n.code, 5), (38, 6)] := ⟨by decide, by decide, FlagNo_lt5 n, by decide, trivial⟩
  refine roundTrip_of [(3, 3), (0, 18), (n.code, 5), (38, 6)] _ rfl (by simp only [pack, mkWord]; omega) f rfl fun hl => ?_
  have h0 : bits _ 0 3 = 3 := bits_field f 0 rfl rfl rfl
  have h1 : bits _ 3 18 = 0 := bits_field f 1 rfl rfl rfl
  have h2 : bits _ 21 5 = n.code := bits_field f 2 rfl rfl rfl
  have h3 : bits _ 26 6 = 38 := bits_field f 3 rfl rfl rfl
  generalize mkWord _ = w at *
  rw [decodeWord_26 h3]
  simp only [decodeOp26, h0, h1, and_self, if_true]
  simp only [h2, FlagNo_code, Option.bind_some, Option.map_some]
theorem RoundTrip.vpld (vd : Reg) (va : Reg) (src : Src) (m : MaskReg) : RoundTrip.Statement (.vpld vd va src m) := by
  have f : Fits [(4, 3), (0, 3), (src.kind, 2), (m.val, 3), (src.field, 5), (va.val, 5), (vd.val, 5), (38, 6)] := ⟨by decide, by decide, Src_kind_lt src, m.isLt, Src_field_lt src, va.isLt, vd.isLt, by decide, trivial⟩
  refine roundTrip_of [(4, 3), (0, 3), (src.kind, 2), (m.val, 3), (src.field, 5), (va.val, 5), (vd.val, 5), (38, 6)] _ rfl (by simp only [pack, mkWord]; omega) f rfl fun hl => ?_
  have h0 : bits _ 0 3 = 4 := bits_field f 0 rfl rfl rfl
  have h1 : bits _ 3 3 = 0 := bits_field f 1 rfl rfl rfl
  have h2 : bits _ 6 2 = src.kind := bits_field f 2 rfl rfl rfl
  have h3 : bits _ 8 3 = m.val := bits_field f 3 rfl rfl rfl
  have h4 : bits _ 11 5 = src.field := bits_field f 4 rfl rfl rfl
  have h5 : bits _ 16 5 = va.val := bits_field f 5 rfl rfl rfl
  have h6 : bits _ 21 5 = vd.val := bits_field f 6 rfl rfl rfl
  have h7 : bits _ 26 6 = 38 := bits_field f 7 rfl rfl rfl
  generalize mkWord _ = w at *
  rw [decodeWord_26 h7]
  simp only [decodeOp26, h0, h1, and_self, if_true]
  simp only [h2, fin8_of h3, h4, Src_code, fin32_of h5, fin32_of h6, Option.bind_some, Option.map_some]
theorem RoundTrip.vpst (vd : Reg) (va : Reg) (src : Src) (m : MaskReg) : RoundTrip.Statement (.vpst vd va src m) := by
  have f : Fits [(5, 3), (0, 3), (src.kind, 2), (m.val, 3), (src.field, 5), (va.val, 5), (vd.val, 5), (38, 6)] := ⟨by decide, by decide, Src_kind_lt src, m.isLt, Src_field_lt src, va.isLt, vd.isLt, by decide, trivial⟩
  refine roundTrip_of [(5, 3), (0, 3), (src.kind, 2), (m.val, 3), (src.field, 5), (va.val, 5), (vd.val, 5), (38, 6)] _ rfl (by simp only [pack, mkWord]; omega) f rfl fun hl => ?_
  have h0 : bits _ 0 3 = 5 := bits_field f 0 rfl rfl rfl
  have h1 : bits _ 3 3 = 0 := bits_field f 1 rfl rfl rfl
  have h2 : bits _ 6 2 = src.kind := bits_field f 2 rfl rfl rfl
  have h3 : bits _ 8 3 = m.val := bits_field f 3 rfl rfl rfl
  have h4 : bits _ 11 5 = src.field := bits_field f 4 rfl rfl rfl
  have h5 : bits _ 16 5 = va.val := bits_field f 5 rfl rfl rfl
  have h6 : bits _ 21 5 = vd.val := bits_field f 6 rfl rfl rfl
  have h7 : bits _ 26 6 = 38 := bits_field f 7 rfl rfl rfl
  generalize mkWord _ = w at *
  rw [decodeWord_26 h7]
  simp only [decodeOp26, h0, h1, and_self, if_true]
  simp only [h2, fin8_of h3, h4, Src_code, fin32_of h5, fin32_of h6, Option.bind_some, Option.map_some]
theorem RoundTrip.vpamo (vd : Reg) (va : Reg) (op : AmoOp) (sc : Scope) (od : Order) (m : MaskReg) : RoundTrip.Statement (.vpamo vd va op sc od m) := by
  have f : Fits [(6, 3), (sc.code, 3), (od.code, 2), (m.val, 3), (op.code, 5), (va.val, 5), (vd.val, 5), (38, 6)] := ⟨by decide, Scope_lt3 sc, Order_lt2 od, m.isLt, AmoOp_lt5 op, va.isLt, vd.isLt, by decide, trivial⟩
  refine roundTrip_of [(6, 3), (sc.code, 3), (od.code, 2), (m.val, 3), (op.code, 5), (va.val, 5), (vd.val, 5), (38, 6)] _ rfl (by simp only [pack, mkWord]; omega) f rfl fun hl => ?_
  have h0 : bits _ 0 3 = 6 := bits_field f 0 rfl rfl rfl
  have h1 : bits _ 3 3 = sc.code := bits_field f 1 rfl rfl rfl
  have h2 : bits _ 6 2 = od.code := bits_field f 2 rfl rfl rfl
  have h3 : bits _ 8 3 = m.val := bits_field f 3 rfl rfl rfl
  have h4 : bits _ 11 5 = op.code := bits_field f 4 rfl rfl rfl
  have h5 : bits _ 16 5 = va.val := bits_field f 5 rfl rfl rfl
  have h6 : bits _ 21 5 = vd.val := bits_field f 6 rfl rfl rfl
  have h7 : bits _ 26 6 = 38 := bits_field f 7 rfl rfl rfl
  generalize mkWord _ = w at *
  rw [decodeWord_26 h7]
  simp only [decodeOp26, h0]
  simp only [h1, Scope_code, h2, Order_code, fin8_of h3, h4, AmoOp_code, fin32_of h5, fin32_of h6, Option.bind_some, Option.map_some]
theorem RoundTrip.mlat (side : Bool) (half : Bool) (xa : Reg) (xs : Reg) (fmt : Fmt) : RoundTrip.Statement (.mlat side half xa xs fmt) := by
  have f : Fits [(0, 5), (fmt.code, 5), (xs.val, 5), (xa.val, 5), (half.toNat, 1), (side.toNat, 1), (1, 4), (44, 6)] := ⟨by decide, Fmt_lt5 fmt, xs.isLt, xa.isLt, Bool_lt1 half, Bool_lt1 side, by decide, by decide, trivial⟩
  refine roundTrip_of [(0, 5), (fmt.code, 5), (xs.val, 5), (xa.val, 5), (half.toNat, 1), (side.toNat, 1), (1, 4), (44, 6)] _ rfl (by simp only [pack, mkWord]; omega) f rfl fun hl => ?_
  have h0 : bits _ 0 5 = 0 := bits_field f 0 rfl rfl rfl
  have h1 : bits _ 5 5 = fmt.code := bits_field f 1 rfl rfl rfl
  have h2 : bits _ 10 5 = xs.val := bits_field f 2 rfl rfl rfl
  have h3 : bits _ 15 5 = xa.val := bits_field f 3 rfl rfl rfl
  have h4 : bits _ 20 1 = half.toNat := bits_field f 4 rfl rfl rfl
  have h5 : bits _ 21 1 = side.toNat := bits_field f 5 rfl rfl rfl
  have h6 : bits _ 22 4 = 1 := bits_field f 6 rfl rfl rfl
  have h7 : bits _ 26 6 = 44 := bits_field f 7 rfl rfl rfl
  generalize mkWord _ = w at *
  rw [decodeWord_2C h7]
  simp only [decodeOp2C, h0, h6, and_self, if_true]
  simp only [h1, Fmt_code, fin32_of h2, fin32_of h3, bit_of h4, bit_of h5, Option.bind_some, Option.map_some]
theorem RoundTrip.mlatg (half : Bool) (xa : Reg) (vi : Reg) (fmt : Fmt) : RoundTrip.Statement (.mlatg half xa vi fmt) := by
  have f : Fits [(0, 5), (fmt.code, 5), (vi.val, 5), (xa.val, 5), (half.toNat, 1), (0, 1), (2, 4), (44, 6)] := ⟨by decide, Fmt_lt5 fmt, vi.isLt, xa.isLt, Bool_lt1 half, by decide, by decide, by decide, trivial⟩
  refine roundTrip_of [(0, 5), (fmt.code, 5), (vi.val, 5), (xa.val, 5), (half.toNat, 1), (0, 1), (2, 4), (44, 6)] _ rfl (by simp only [pack, mkWord]; omega) f rfl fun hl => ?_
  have h0 : bits _ 0 5 = 0 := bits_field f 0 rfl rfl rfl
  have h1 : bits _ 5 5 = fmt.code := bits_field f 1 rfl rfl rfl
  have h2 : bits _ 10 5 = vi.val := bits_field f 2 rfl rfl rfl
  have h3 : bits _ 15 5 = xa.val := bits_field f 3 rfl rfl rfl
  have h4 : bits _ 20 1 = half.toNat := bits_field f 4 rfl rfl rfl
  have h5 : bits _ 21 1 = 0 := bits_field f 5 rfl rfl rfl
  have h6 : bits _ 22 4 = 2 := bits_field f 6 rfl rfl rfl
  have h7 : bits _ 26 6 = 44 := bits_field f 7 rfl rfl rfl
  generalize mkWord _ = w at *
  rw [decodeWord_2C h7]
  simp only [decodeOp2C, h0, h5, h6, and_self, if_true]
  simp only [h1, Fmt_code, fin32_of h2, fin32_of h3, bit_of h4, Option.bind_some, Option.map_some]
theorem RoundTrip.mlatv (side : Bool) (half : Bool) (vs : Reg) : RoundTrip.Statement (.mlatv side half vs) := by
  have f : Fits [(0, 15), (vs.val, 5), (half.toNat, 1), (side.toNat, 1), (3, 4), (44, 6)] := ⟨by decide, vs.isLt, Bool_lt1 half, Bool_lt1 side, by decide, by decide, trivial⟩
  refine roundTrip_of [(0, 15), (vs.val, 5), (half.toNat, 1), (side.toNat, 1), (3, 4), (44, 6)] _ rfl (by simp only [pack, mkWord]; omega) f rfl fun hl => ?_
  have h0 : bits _ 0 15 = 0 := bits_field f 0 rfl rfl rfl
  have h1 : bits _ 15 5 = vs.val := bits_field f 1 rfl rfl rfl
  have h2 : bits _ 20 1 = half.toNat := bits_field f 2 rfl rfl rfl
  have h3 : bits _ 21 1 = side.toNat := bits_field f 3 rfl rfl rfl
  have h4 : bits _ 22 4 = 3 := bits_field f 4 rfl rfl rfl
  have h5 : bits _ 26 6 = 44 := bits_field f 5 rfl rfl rfl
  generalize mkWord _ = w at *
  rw [decodeWord_2C h5]
  simp only [decodeOp2C, h0, h4, and_self, if_true]
  simp only [fin32_of h1, bit_of h2, bit_of h3]
theorem RoundTrip.mlut (vc : Reg) : RoundTrip.Statement (.mlut vc) := by
  have f : Fits [(0, 15), (vc.val, 5), (0, 2), (4, 4), (44, 6)] := ⟨by decide, vc.isLt, by decide, by decide, by decide, trivial⟩
  refine roundTrip_of [(0, 15), (vc.val, 5), (0, 2), (4, 4), (44, 6)] _ rfl (by simp only [pack, mkWord]; omega) f rfl fun hl => ?_
  have h0 : bits _ 0 15 = 0 := bits_field f 0 rfl rfl rfl
  have h1 : bits _ 15 5 = vc.val := bits_field f 1 rfl rfl rfl
  have h2 : bits _ 20 2 = 0 := bits_field f 2 rfl rfl rfl
  have h3 : bits _ 22 4 = 4 := bits_field f 3 rfl rfl rfl
  have h4 : bits _ 26 6 = 44 := bits_field f 4 rfl rfl rfl
  generalize mkWord _ = w at *
  rw [decodeWord_2C h4]
  simp only [decodeOp2C, h0, h2, h3, and_self, if_true]
  simp only [fin32_of h1]
theorem RoundTrip.mop (ha : Bool) (hb : Bool) (k : BitVec 7) : RoundTrip.Statement (.mop ha hb k) := by
  have f : Fits [(k.toNat, 7), (0, 13), (hb.toNat, 1), (ha.toNat, 1), (5, 4), (44, 6)] := ⟨k.isLt, by decide, Bool_lt1 hb, Bool_lt1 ha, by decide, by decide, trivial⟩
  refine roundTrip_of [(k.toNat, 7), (0, 13), (hb.toNat, 1), (ha.toNat, 1), (5, 4), (44, 6)] _ rfl (by simp only [pack, mkWord]; omega) f rfl fun hl => ?_
  have h0 : bits _ 0 7 = k.toNat := bits_field f 0 rfl rfl rfl
  have h1 : bits _ 7 13 = 0 := bits_field f 1 rfl rfl rfl
  have h2 : bits _ 20 1 = hb.toNat := bits_field f 2 rfl rfl rfl
  have h3 : bits _ 21 1 = ha.toNat := bits_field f 3 rfl rfl rfl
  have h4 : bits _ 22 4 = 5 := bits_field f 4 rfl rfl rfl
  have h5 : bits _ 26 6 = 44 := bits_field f 5 rfl rfl rfl
  generalize mkWord _ = w at *
  rw [decodeWord_2C h5]
  simp only [decodeOp2C, h1, h4, and_self, if_true]
  simp only [bv_of h0, bit_of h2, bit_of h3]
theorem RoundTrip.mopz (ha : Bool) (hb : Bool) (k : BitVec 7) : RoundTrip.Statement (.mopz ha hb k) := by
  have f : Fits [(k.toNat, 7), (0, 13), (hb.toNat, 1), (ha.toNat, 1), (6, 4), (44, 6)] := ⟨k.isLt, by decide, Bool_lt1 hb, Bool_lt1 ha, by decide, by decide, trivial⟩
  refine roundTrip_of [(k.toNat, 7), (0, 13), (hb.toNat, 1), (ha.toNat, 1), (6, 4), (44, 6)] _ rfl (by simp only [pack, mkWord]; omega) f rfl fun hl => ?_
  have h0 : bits _ 0 7 = k.toNat := bits_field f 0 rfl rfl rfl
  have h1 : bits _ 7 13 = 0 := bits_field f 1 rfl rfl rfl
  have h2 : bits _ 20 1 = hb.toNat := bits_field f 2 rfl rfl rfl
  have h3 : bits _ 21 1 = ha.toNat := bits_field f 3 rfl rfl rfl
  have h4 : bits _ 22 4 = 6 := bits_field f 4 rfl rfl rfl
  have h5 : bits _ 26 6 = 44 := bits_field f 5 rfl rfl rfl
  generalize mkWord _ = w at *
  rw [decodeWord_2C h5]
  simp only [decodeOp2C, h1, h4, and_self, if_true]
  simp only [bv_of h0, bit_of h2, bit_of h3]
theorem RoundTrip.mband (side : Bool) (vs : Reg) : RoundTrip.Statement (.mband side vs) := by
  have f : Fits [(0, 15), (vs.val, 5), (0, 1), (side.toNat, 1), (7, 4), (44, 6)] := ⟨by decide, vs.isLt, by decide, Bool_lt1 side, by decide, by decide, trivial⟩
  refine roundTrip_of [(0, 15), (vs.val, 5), (0, 1), (side.toNat, 1), (7, 4), (44, 6)] _ rfl (by simp only [pack, mkWord]; omega) f rfl fun hl => ?_
  have h0 : bits _ 0 15 = 0 := bits_field f 0 rfl rfl rfl
  have h1 : bits _ 15 5 = vs.val := bits_field f 1 rfl rfl rfl
  have h2 : bits _ 20 1 = 0 := bits_field f 2 rfl rfl rfl
  have h3 : bits _ 21 1 = side.toNat := bits_field f 3 rfl rfl rfl
  have h4 : bits _ 22 4 = 7 := bits_field f 4 rfl rfl rfl
  have h5 : bits _ 26 6 = 44 := bits_field f 5 rfl rfl rfl
  generalize mkWord _ = w at *
  rw [decodeWord_2C h5]
  simp only [decodeOp2C, h0, h2, h4, and_self, if_true]
  simp only [fin32_of h1, bit_of h3]
theorem RoundTrip.mdrain (n : BitVec 6) : RoundTrip.Statement (.mdrain n) := by
  have f : Fits [(n.toNat, 6), (0, 16), (9, 4), (44, 6)] := ⟨n.isLt, by decide, by decide, by decide, trivial⟩
  refine roundTrip_of [(n.toNat, 6), (0, 16), (9, 4), (44, 6)] _ rfl (by simp only [pack, mkWord]; omega) f rfl fun hl => ?_
  have h0 : bits _ 0 6 = n.toNat := bits_field f 0 rfl rfl rfl
  have h1 : bits _ 6 16 = 0 := bits_field f 1 rfl rfl rfl
  have h2 : bits _ 22 4 = 9 := bits_field f 2 rfl rfl rfl
  have h3 : bits _ 26 6 = 44 := bits_field f 3 rfl rfl rfl
  generalize mkWord _ = w at *
  rw [decodeWord_2C h3]
  simp only [decodeOp2C, h1, h2, and_self, if_true]
  simp only [bv_of h0]
theorem RoundTrip.mdrainSz (vs : Reg) (vz : Reg) (n : BitVec 6) : RoundTrip.Statement (.mdrainSz vs vz n) := by
  have f : Fits [(n.toNat, 6), (0, 4), (vz.val, 5), (vs.val, 5), (0, 2), (10, 4), (44, 6)] := ⟨n.isLt, by decide, vz.isLt, vs.isLt, by decide, by decide, by decide, trivial⟩
  refine roundTrip_of [(n.toNat, 6), (0, 4), (vz.val, 5), (vs.val, 5), (0, 2), (10, 4), (44, 6)] _ rfl (by simp only [pack, mkWord]; omega) f rfl fun hl => ?_
  have h0 : bits _ 0 6 = n.toNat := bits_field f 0 rfl rfl rfl
  have h1 : bits _ 6 4 = 0 := bits_field f 1 rfl rfl rfl
  have h2 : bits _ 10 5 = vz.val := bits_field f 2 rfl rfl rfl
  have h3 : bits _ 15 5 = vs.val := bits_field f 3 rfl rfl rfl
  have h4 : bits _ 20 2 = 0 := bits_field f 4 rfl rfl rfl
  have h5 : bits _ 22 4 = 10 := bits_field f 5 rfl rfl rfl
  have h6 : bits _ 26 6 = 44 := bits_field f 6 rfl rfl rfl
  generalize mkWord _ = w at *
  rw [decodeWord_2C h6]
  simp only [decodeOp2C, h1, h4, h5, and_self, if_true]
  simp only [bv_of h0, fin32_of h2, fin32_of h3]
theorem RoundTrip.mrow (n : BitVec 6) : RoundTrip.Statement (.mrow n) := by
  have f : Fits [(n.toNat, 6), (0, 16), (11, 4), (44, 6)] := ⟨n.isLt, by decide, by decide, by decide, trivial⟩
  refine roundTrip_of [(n.toNat, 6), (0, 16), (11, 4), (44, 6)] _ rfl (by simp only [pack, mkWord]; omega) f rfl fun hl => ?_
  have h0 : bits _ 0 6 = n.toNat := bits_field f 0 rfl rfl rfl
  have h1 : bits _ 6 16 = 0 := bits_field f 1 rfl rfl rfl
  have h2 : bits _ 22 4 = 11 := bits_field f 2 rfl rfl rfl
  have h3 : bits _ 26 6 = 44 := bits_field f 3 rfl rfl rfl
  generalize mkWord _ = w at *
  rw [decodeWord_2C h3]
  simp only [decodeOp2C, h1, h2, and_self, if_true]
  simp only [bv_of h0]
theorem RoundTrip.mstat (d : Reg) : RoundTrip.Statement (.mstat d) := by
  have f : Fits [(0, 15), (d.val, 5), (0, 2), (12, 4), (44, 6)] := ⟨by decide, d.isLt, by decide, by decide, by decide, trivial⟩
  refine roundTrip_of [(0, 15), (d.val, 5), (0, 2), (12, 4), (44, 6)] _ rfl (by simp only [pack, mkWord]; omega) f rfl fun hl => ?_
  have h0 : bits _ 0 15 = 0 := bits_field f 0 rfl rfl rfl
  have h1 : bits _ 15 5 = d.val := bits_field f 1 rfl rfl rfl
  have h2 : bits _ 20 2 = 0 := bits_field f 2 rfl rfl rfl
  have h3 : bits _ 22 4 = 12 := bits_field f 3 rfl rfl rfl
  have h4 : bits _ 26 6 = 44 := bits_field f 4 rfl rfl rfl
  generalize mkWord _ = w at *
  rw [decodeWord_2C h4]
  simp only [decodeOp2C, h0, h2, h3, and_self, if_true]
  simp only [fin32_of h1]
theorem RoundTrip.barInit (a : Reg) (b : Reg) (cls : Cls) : RoundTrip.Statement (.barInit a b cls) := by
  have f : Fits [(0, 6), (cls.code, 2), (0, 3), (b.val, 5), (a.val, 5), (0, 5), (50, 6)] := ⟨by decide, Cls_lt2 cls, by decide, b.isLt, a.isLt, by decide, by decide, trivial⟩
  refine roundTrip_of [(0, 6), (cls.code, 2), (0, 3), (b.val, 5), (a.val, 5), (0, 5), (50, 6)] _ rfl (by simp only [pack, mkWord]; omega) f rfl fun hl => ?_
  have h0 : bits _ 0 6 = 0 := bits_field f 0 rfl rfl rfl
  have h1 : bits _ 6 2 = cls.code := bits_field f 1 rfl rfl rfl
  have h2 : bits _ 8 3 = 0 := bits_field f 2 rfl rfl rfl
  have h3 : bits _ 11 5 = b.val := bits_field f 3 rfl rfl rfl
  have h4 : bits _ 16 5 = a.val := bits_field f 4 rfl rfl rfl
  have h5 : bits _ 21 5 = 0 := bits_field f 5 rfl rfl rfl
  have h6 : bits _ 26 6 = 50 := bits_field f 6 rfl rfl rfl
  generalize mkWord _ = w at *
  rw [decodeWord_32 h6]
  simp only [decodeOp32, h0, h2, h5, and_self, if_true]
  simp only [h1, Cls_code, fin32_of h3, fin32_of h4, Option.bind_some, Option.map_some]
theorem RoundTrip.barArrive (a : Reg) : RoundTrip.Statement (.barArrive a) := by
  have f : Fits [(1, 6), (0, 10), (a.val, 5), (0, 5), (50, 6)] := ⟨by decide, by decide, a.isLt, by decide, by decide, trivial⟩
  refine roundTrip_of [(1, 6), (0, 10), (a.val, 5), (0, 5), (50, 6)] _ rfl (by simp only [pack, mkWord]; omega) f rfl fun hl => ?_
  have h0 : bits _ 0 6 = 1 := bits_field f 0 rfl rfl rfl
  have h1 : bits _ 6 10 = 0 := bits_field f 1 rfl rfl rfl
  have h2 : bits _ 16 5 = a.val := bits_field f 2 rfl rfl rfl
  have h3 : bits _ 21 5 = 0 := bits_field f 3 rfl rfl rfl
  have h4 : bits _ 26 6 = 50 := bits_field f 4 rfl rfl rfl
  generalize mkWord _ = w at *
  rw [decodeWord_32 h4]
  simp only [decodeOp32, h0, h1, h3, and_self, if_true]
  simp only [fin32_of h2]
theorem RoundTrip.barArriveCap (a : Reg) (k : Fin 4) : RoundTrip.Statement (.barArriveCap a k) := by
  have f : Fits [(1, 6), (16, 5), (k.val, 2), (0, 3), (a.val, 5), (0, 5), (50, 6)] := ⟨by decide, by decide, k.isLt, by decide, a.isLt, by decide, by decide, trivial⟩
  refine roundTrip_of [(1, 6), (16, 5), (k.val, 2), (0, 3), (a.val, 5), (0, 5), (50, 6)] _ rfl (by simp only [pack, mkWord]; omega) f rfl fun hl => ?_
  have h0 : bits _ 0 6 = 1 := bits_field f 0 rfl rfl rfl
  have h1 : bits _ 6 5 = 16 := bits_field f 1 rfl rfl rfl
  have h2 : bits _ 11 2 = k.val := bits_field f 2 rfl rfl rfl
  have h3 : bits _ 13 3 = 0 := bits_field f 3 rfl rfl rfl
  have h4 : bits _ 16 5 = a.val := bits_field f 4 rfl rfl rfl
  have h5 : bits _ 21 5 = 0 := bits_field f 5 rfl rfl rfl
  have h6 : bits _ 26 6 = 50 := bits_field f 6 rfl rfl rfl
  generalize mkWord _ = w at *
  rw [decodeWord_32 h6]
  have x : bits w 6 10 ≠ 0 := by simp only [bits] at *; omega
  simp only [decodeOp32, x, and_false, if_false, h0, h1, h3, h5, and_self, if_true]
  simp only [fin4_of h2, fin32_of h4]
theorem RoundTrip.barWait (a : Reg) : RoundTrip.Statement (.barWait a) := by
  have f : Fits [(2, 6), (0, 10), (a.val, 5), (0, 5), (50, 6)] := ⟨by decide, by decide, a.isLt, by decide, by decide, trivial⟩
  refine roundTrip_of [(2, 6), (0, 10), (a.val, 5), (0, 5), (50, 6)] _ rfl (by simp only [pack, mkWord]; omega) f rfl fun hl => ?_
  have h0 : bits _ 0 6 = 2 := bits_field f 0 rfl rfl rfl
  have h1 : bits _ 6 10 = 0 := bits_field f 1 rfl rfl rfl
  have h2 : bits _ 16 5 = a.val := bits_field f 2 rfl rfl rfl
  have h3 : bits _ 21 5 = 0 := bits_field f 3 rfl rfl rfl
  have h4 : bits _ 26 6 = 50 := bits_field f 4 rfl rfl rfl
  generalize mkWord _ = w at *
  rw [decodeWord_32 h4]
  simp only [decodeOp32, h0, h1, h3, and_self, if_true]
  simp only [fin32_of h2]
theorem RoundTrip.barBytes (a : Reg) (b : Reg) : RoundTrip.Statement (.barBytes a b) := by
  have f : Fits [(3, 6), (0, 5), (b.val, 5), (a.val, 5), (0, 5), (50, 6)] := ⟨by decide, by decide, b.isLt, a.isLt, by decide, by decide, trivial⟩
  refine roundTrip_of [(3, 6), (0, 5), (b.val, 5), (a.val, 5), (0, 5), (50, 6)] _ rfl (by simp only [pack, mkWord]; omega) f rfl fun hl => ?_
  have h0 : bits _ 0 6 = 3 := bits_field f 0 rfl rfl rfl
  have h1 : bits _ 6 5 = 0 := bits_field f 1 rfl rfl rfl
  have h2 : bits _ 11 5 = b.val := bits_field f 2 rfl rfl rfl
  have h3 : bits _ 16 5 = a.val := bits_field f 3 rfl rfl rfl
  have h4 : bits _ 21 5 = 0 := bits_field f 4 rfl rfl rfl
  have h5 : bits _ 26 6 = 50 := bits_field f 5 rfl rfl rfl
  generalize mkWord _ = w at *
  rw [decodeWord_32 h5]
  simp only [decodeOp32, h0, h1, h4, and_self, if_true]
  simp only [fin32_of h2, fin32_of h3]
theorem RoundTrip.lkacq (d : Reg) (a : Reg) (cls : Cls) : RoundTrip.Statement (.lkacq d a cls) := by
  have f : Fits [(4, 6), (cls.code, 2), (0, 8), (a.val, 5), (d.val, 5), (50, 6)] := ⟨by decide, Cls_lt2 cls, by decide, a.isLt, d.isLt, by decide, trivial⟩
  refine roundTrip_of [(4, 6), (cls.code, 2), (0, 8), (a.val, 5), (d.val, 5), (50, 6)] _ rfl (by simp only [pack, mkWord]; omega) f rfl fun hl => ?_
  have h0 : bits _ 0 6 = 4 := bits_field f 0 rfl rfl rfl
  have h1 : bits _ 6 2 = cls.code := bits_field f 1 rfl rfl rfl
  have h2 : bits _ 8 8 = 0 := bits_field f 2 rfl rfl rfl
  have h3 : bits _ 16 5 = a.val := bits_field f 3 rfl rfl rfl
  have h4 : bits _ 21 5 = d.val := bits_field f 4 rfl rfl rfl
  have h5 : bits _ 26 6 = 50 := bits_field f 5 rfl rfl rfl
  generalize mkWord _ = w at *
  rw [decodeWord_32 h5]
  simp only [decodeOp32, h0, h2, and_self, if_true]
  simp only [h1, Cls_code, fin32_of h3, fin32_of h4, Option.bind_some, Option.map_some]
theorem RoundTrip.lkrel (a : Reg) : RoundTrip.Statement (.lkrel a) := by
  have f : Fits [(5, 6), (0, 10), (a.val, 5), (0, 5), (50, 6)] := ⟨by decide, by decide, a.isLt, by decide, by decide, trivial⟩
  refine roundTrip_of [(5, 6), (0, 10), (a.val, 5), (0, 5), (50, 6)] _ rfl (by simp only [pack, mkWord]; omega) f rfl fun hl => ?_
  have h0 : bits _ 0 6 = 5 := bits_field f 0 rfl rfl rfl
  have h1 : bits _ 6 10 = 0 := bits_field f 1 rfl rfl rfl
  have h2 : bits _ 16 5 = a.val := bits_field f 2 rfl rfl rfl
  have h3 : bits _ 21 5 = 0 := bits_field f 3 rfl rfl rfl
  have h4 : bits _ 26 6 = 50 := bits_field f 4 rfl rfl rfl
  generalize mkWord _ = w at *
  rw [decodeWord_32 h4]
  simp only [decodeOp32, h0, h1, h3, and_self, if_true]
  simp only [fin32_of h2]
theorem RoundTrip.waitm (d : Reg) (a : Reg) (b : Reg) (cls : Cls) : RoundTrip.Statement (.waitm d a b cls) := by
  have f : Fits [(6, 6), (cls.code, 2), (0, 3), (b.val, 5), (a.val, 5), (d.val, 5), (50, 6)] := ⟨by decide, Cls_lt2 cls, by decide, b.isLt, a.isLt, d.isLt, by decide, trivial⟩
  refine roundTrip_of [(6, 6), (cls.code, 2), (0, 3), (b.val, 5), (a.val, 5), (d.val, 5), (50, 6)] _ rfl (by simp only [pack, mkWord]; omega) f rfl fun hl => ?_
  have h0 : bits _ 0 6 = 6 := bits_field f 0 rfl rfl rfl
  have h1 : bits _ 6 2 = cls.code := bits_field f 1 rfl rfl rfl
  have h2 : bits _ 8 3 = 0 := bits_field f 2 rfl rfl rfl
  have h3 : bits _ 11 5 = b.val := bits_field f 3 rfl rfl rfl
  have h4 : bits _ 16 5 = a.val := bits_field f 4 rfl rfl rfl
  have h5 : bits _ 21 5 = d.val := bits_field f 5 rfl rfl rfl
  have h6 : bits _ 26 6 = 50 := bits_field f 6 rfl rfl rfl
  generalize mkWord _ = w at *
  rw [decodeWord_32 h6]
  simp only [decodeOp32, h0, h2, and_self, if_true]
  simp only [h1, Cls_code, fin32_of h3, fin32_of h4, fin32_of h5, Option.bind_some, Option.map_some]
theorem RoundTrip.cvinit (n : Fin 8) (a : Reg) (b : Reg) (cls : Cls) : RoundTrip.Statement (.cvinit n a b cls) := by
  have f : Fits [(7, 6), (cls.code, 2), (0, 3), (b.val, 5), (a.val, 5), (n.val, 3), (0, 2), (50, 6)] := ⟨by decide, Cls_lt2 cls, by decide, b.isLt, a.isLt, n.isLt, by decide, by decide, trivial⟩
  refine roundTrip_of [(7, 6), (cls.code, 2), (0, 3), (b.val, 5), (a.val, 5), (n.val, 3), (0, 2), (50, 6)] _ rfl (by simp only [pack, mkWord]; omega) f rfl fun hl => ?_
  have h0 : bits _ 0 6 = 7 := bits_field f 0 rfl rfl rfl
  have h1 : bits _ 6 2 = cls.code := bits_field f 1 rfl rfl rfl
  have h2 : bits _ 8 3 = 0 := bits_field f 2 rfl rfl rfl
  have h3 : bits _ 11 5 = b.val := bits_field f 3 rfl rfl rfl
  have h4 : bits _ 16 5 = a.val := bits_field f 4 rfl rfl rfl
  have h5 : bits _ 21 3 = n.val := bits_field f 5 rfl rfl rfl
  have h6 : bits _ 24 2 = 0 := bits_field f 6 rfl rfl rfl
  have h7 : bits _ 26 6 = 50 := bits_field f 7 rfl rfl rfl
  generalize mkWord _ = w at *
  rw [decodeWord_32 h7]
  simp only [decodeOp32, h0, h2, h6, and_self, if_true]
  simp only [h1, Cls_code, fin32_of h3, fin32_of h4, fin8_of h5, Option.bind_some, Option.map_some]
theorem RoundTrip.cvsign (n : Fin 8) : RoundTrip.Statement (.cvsign n) := by
  have f : Fits [(8, 6), (0, 15), (n.val, 3), (0, 2), (50, 6)] := ⟨by decide, by decide, n.isLt, by decide, by decide, trivial⟩
  refine roundTrip_of [(8, 6), (0, 15), (n.val, 3), (0, 2), (50, 6)] _ rfl (by simp only [pack, mkWord]; omega) f rfl fun hl => ?_
  have h0 : bits _ 0 6 = 8 := bits_field f 0 rfl rfl rfl
  have h1 : bits _ 6 15 = 0 := bits_field f 1 rfl rfl rfl
  have h2 : bits _ 21 3 = n.val := bits_field f 2 rfl rfl rfl
  have h3 : bits _ 24 2 = 0 := bits_field f 3 rfl rfl rfl
  have h4 : bits _ 26 6 = 50 := bits_field f 4 rfl rfl rfl
  generalize mkWord _ = w at *
  rw [decodeWord_32 h4]
  simp only [decodeOp32, h0, h1, h3, and_self, if_true]
  simp only [fin8_of h2]
theorem RoundTrip.clsq (d : Reg) (a : Reg) : RoundTrip.Statement (.clsq d a) := by
  have f : Fits [(9, 6), (0, 10), (a.val, 5), (d.val, 5), (50, 6)] := ⟨by decide, by decide, a.isLt, d.isLt, by decide, trivial⟩
  refine roundTrip_of [(9, 6), (0, 10), (a.val, 5), (d.val, 5), (50, 6)] _ rfl (by simp only [pack, mkWord]; omega) f rfl fun hl => ?_
  have h0 : bits _ 0 6 = 9 := bits_field f 0 rfl rfl rfl
  have h1 : bits _ 6 10 = 0 := bits_field f 1 rfl rfl rfl
  have h2 : bits _ 16 5 = a.val := bits_field f 2 rfl rfl rfl
  have h3 : bits _ 21 5 = d.val := bits_field f 3 rfl rfl rfl
  have h4 : bits _ 26 6 = 50 := bits_field f 4 rfl rfl rfl
  generalize mkWord _ = w at *
  rw [decodeWord_32 h4]
  simp only [decodeOp32, h0, h1, and_self, if_true]
  simp only [fin32_of h2, fin32_of h3]
theorem RoundTrip.fsnap (d : Reg) (k : Fin 4) : RoundTrip.Statement (.fsnap d k) := by
  have f : Fits [(0, 6), (0, 10), (k.val, 2), (0, 3), (d.val, 5), (51, 6)] := ⟨by decide, by decide, k.isLt, by decide, d.isLt, by decide, trivial⟩
  refine roundTrip_of [(0, 6), (0, 10), (k.val, 2), (0, 3), (d.val, 5), (51, 6)] _ rfl (by simp only [pack, mkWord]; omega) f rfl fun hl => ?_
  have h0 : bits _ 0 6 = 0 := bits_field f 0 rfl rfl rfl
  have h1 : bits _ 6 10 = 0 := bits_field f 1 rfl rfl rfl
  have h2 : bits _ 16 2 = k.val := bits_field f 2 rfl rfl rfl
  have h3 : bits _ 18 3 = 0 := bits_field f 3 rfl rfl rfl
  have h4 : bits _ 21 5 = d.val := bits_field f 4 rfl rfl rfl
  have h5 : bits _ 26 6 = 51 := bits_field f 5 rfl rfl rfl
  generalize mkWord _ = w at *
  rw [decodeWord_33 h5]
  simp only [decodeOp33, h0, h1, h3, and_self, if_true]
  simp only [fin4_of h2, fin32_of h4]
theorem RoundTrip.frdx (d : Reg) (k : Fin 4) (n : Reg) : RoundTrip.Statement (.frdx d k n) := by
  have f : Fits [(1, 6), (0, 5), (n.val, 5), (k.val, 2), (0, 3), (d.val, 5), (51, 6)] := ⟨by decide, by decide, n.isLt, k.isLt, by decide, d.isLt, by decide, trivial⟩
  refine roundTrip_of [(1, 6), (0, 5), (n.val, 5), (k.val, 2), (0, 3), (d.val, 5), (51, 6)] _ rfl (by simp only [pack, mkWord]; omega) f rfl fun hl => ?_
  have h0 : bits _ 0 6 = 1 := bits_field f 0 rfl rfl rfl
  have h1 : bits _ 6 5 = 0 := bits_field f 1 rfl rfl rfl
  have h2 : bits _ 11 5 = n.val := bits_field f 2 rfl rfl rfl
  have h3 : bits _ 16 2 = k.val := bits_field f 3 rfl rfl rfl
  have h4 : bits _ 18 3 = 0 := bits_field f 4 rfl rfl rfl
  have h5 : bits _ 21 5 = d.val := bits_field f 5 rfl rfl rfl
  have h6 : bits _ 26 6 = 51 := bits_field f 6 rfl rfl rfl
  generalize mkWord _ = w at *
  rw [decodeWord_33 h6]
  simp only [decodeOp33, h0, h1, h4, and_self, if_true]
  simp only [fin32_of h2, fin4_of h3, fin32_of h5]
theorem RoundTrip.fwrx (d : Reg) (k : Fin 4) (n : Reg) : RoundTrip.Statement (.fwrx d k n) := by
  have f : Fits [(2, 6), (0, 5), (n.val, 5), (k.val, 2), (0, 3), (d.val, 5), (51, 6)] := ⟨by decide, by decide, n.isLt, k.isLt, by decide, d.isLt, by decide, trivial⟩
  refine roundTrip_of [(2, 6), (0, 5), (n.val, 5), (k.val, 2), (0, 3), (d.val, 5), (51, 6)] _ rfl (by simp only [pack, mkWord]; omega) f rfl fun hl => ?_
  have h0 : bits _ 0 6 = 2 := bits_field f 0 rfl rfl rfl
  have h1 : bits _ 6 5 = 0 := bits_field f 1 rfl rfl rfl
  have h2 : bits _ 11 5 = n.val := bits_field f 2 rfl rfl rfl
  have h3 : bits _ 16 2 = k.val := bits_field f 3 rfl rfl rfl
  have h4 : bits _ 18 3 = 0 := bits_field f 4 rfl rfl rfl
  have h5 : bits _ 21 5 = d.val := bits_field f 5 rfl rfl rfl
  have h6 : bits _ 26 6 = 51 := bits_field f 6 rfl rfl rfl
  generalize mkWord _ = w at *
  rw [decodeWord_33 h6]
  simp only [decodeOp33, h0, h1, h4, and_self, if_true]
  simp only [fin32_of h2, fin4_of h3, fin32_of h5]
theorem RoundTrip.frdv (d : Reg) (k : Fin 4) (n : Reg) : RoundTrip.Statement (.frdv d k n) := by
  have f : Fits [(3, 6), (0, 5), (n.val, 5), (k.val, 2), (0, 3), (d.val, 5), (51, 6)] := ⟨by decide, by decide, n.isLt, k.isLt, by decide, d.isLt, by decide, trivial⟩
  refine roundTrip_of [(3, 6), (0, 5), (n.val, 5), (k.val, 2), (0, 3), (d.val, 5), (51, 6)] _ rfl (by simp only [pack, mkWord]; omega) f rfl fun hl => ?_
  have h0 : bits _ 0 6 = 3 := bits_field f 0 rfl rfl rfl
  have h1 : bits _ 6 5 = 0 := bits_field f 1 rfl rfl rfl
  have h2 : bits _ 11 5 = n.val := bits_field f 2 rfl rfl rfl
  have h3 : bits _ 16 2 = k.val := bits_field f 3 rfl rfl rfl
  have h4 : bits _ 18 3 = 0 := bits_field f 4 rfl rfl rfl
  have h5 : bits _ 21 5 = d.val := bits_field f 5 rfl rfl rfl
  have h6 : bits _ 26 6 = 51 := bits_field f 6 rfl rfl rfl
  generalize mkWord _ = w at *
  rw [decodeWord_33 h6]
  simp only [decodeOp33, h0, h1, h4, and_self, if_true]
  simp only [fin32_of h2, fin4_of h3, fin32_of h5]
theorem RoundTrip.fwrv (d : Reg) (k : Fin 4) (n : Reg) : RoundTrip.Statement (.fwrv d k n) := by
  have f : Fits [(4, 6), (0, 5), (n.val, 5), (k.val, 2), (0, 3), (d.val, 5), (51, 6)] := ⟨by decide, by decide, n.isLt, k.isLt, by decide, d.isLt, by decide, trivial⟩
  refine roundTrip_of [(4, 6), (0, 5), (n.val, 5), (k.val, 2), (0, 3), (d.val, 5), (51, 6)] _ rfl (by simp only [pack, mkWord]; omega) f rfl fun hl => ?_
  have h0 : bits _ 0 6 = 4 := bits_field f 0 rfl rfl rfl
  have h1 : bits _ 6 5 = 0 := bits_field f 1 rfl rfl rfl
  have h2 : bits _ 11 5 = n.val := bits_field f 2 rfl rfl rfl
  have h3 : bits _ 16 2 = k.val := bits_field f 3 rfl rfl rfl
  have h4 : bits _ 18 3 = 0 := bits_field f 4 rfl rfl rfl
  have h5 : bits _ 21 5 = d.val := bits_field f 5 rfl rfl rfl
  have h6 : bits _ 26 6 = 51 := bits_field f 6 rfl rfl rfl
  generalize mkWord _ = w at *
  rw [decodeWord_33 h6]
  simp only [decodeOp33, h0, h1, h4, and_self, if_true]
  simp only [fin32_of h2, fin4_of h3, fin32_of h5]
theorem RoundTrip.frdm (d : Reg) (k : Fin 4) (n : Reg) : RoundTrip.Statement (.frdm d k n) := by
  have f : Fits [(5, 6), (0, 5), (n.val, 5), (k.val, 2), (0, 3), (d.val, 5), (51, 6)] := ⟨by decide, by decide, n.isLt, k.isLt, by decide, d.isLt, by decide, trivial⟩
  refine roundTrip_of [(5, 6), (0, 5), (n.val, 5), (k.val, 2), (0, 3), (d.val, 5), (51, 6)] _ rfl (by simp only [pack, mkWord]; omega) f rfl fun hl => ?_
  have h0 : bits _ 0 6 = 5 := bits_field f 0 rfl rfl rfl
  have h1 : bits _ 6 5 = 0 := bits_field f 1 rfl rfl rfl
  have h2 : bits _ 11 5 = n.val := bits_field f 2 rfl rfl rfl
  have h3 : bits _ 16 2 = k.val := bits_field f 3 rfl rfl rfl
  have h4 : bits _ 18 3 = 0 := bits_field f 4 rfl rfl rfl
  have h5 : bits _ 21 5 = d.val := bits_field f 5 rfl rfl rfl
  have h6 : bits _ 26 6 = 51 := bits_field f 6 rfl rfl rfl
  generalize mkWord _ = w at *
  rw [decodeWord_33 h6]
  simp only [decodeOp33, h0, h1, h4, and_self, if_true]
  simp only [fin32_of h2, fin4_of h3, fin32_of h5]
theorem RoundTrip.fresume (k : Fin 4) : RoundTrip.Statement (.fresume k) := by
  have f : Fits [(6, 6), (0, 10), (k.val, 2), (0, 8), (51, 6)] := ⟨by decide, by decide, k.isLt, by decide, by decide, trivial⟩
  refine roundTrip_of [(6, 6), (0, 10), (k.val, 2), (0, 8), (51, 6)] _ rfl (by simp only [pack, mkWord]; omega) f rfl fun hl => ?_
  have h0 : bits _ 0 6 = 6 := bits_field f 0 rfl rfl rfl
  have h1 : bits _ 6 10 = 0 := bits_field f 1 rfl rfl rfl
  have h2 : bits _ 16 2 = k.val := bits_field f 2 rfl rfl rfl
  have h3 : bits _ 18 8 = 0 := bits_field f 3 rfl rfl rfl
  have h4 : bits _ 26 6 = 51 := bits_field f 4 rfl rfl rfl
  generalize mkWord _ = w at *
  rw [decodeWord_33 h4]
  simp only [decodeOp33, h0, h1, h3, and_self, if_true]
  simp only [fin4_of h2]
theorem RoundTrip.fresumeT (k : Fin 4) : RoundTrip.Statement (.fresumeT k) := by
  have f : Fits [(7, 6), (0, 10), (k.val, 2), (0, 8), (51, 6)] := ⟨by decide, by decide, k.isLt, by decide, by decide, trivial⟩
  refine roundTrip_of [(7, 6), (0, 10), (k.val, 2), (0, 8), (51, 6)] _ rfl (by simp only [pack, mkWord]; omega) f rfl fun hl => ?_
  have h0 : bits _ 0 6 = 7 := bits_field f 0 rfl rfl rfl
  have h1 : bits _ 6 10 = 0 := bits_field f 1 rfl rfl rfl
  have h2 : bits _ 16 2 = k.val := bits_field f 2 rfl rfl rfl
  have h3 : bits _ 18 8 = 0 := bits_field f 3 rfl rfl rfl
  have h4 : bits _ 26 6 = 51 := bits_field f 4 rfl rfl rfl
  generalize mkWord _ = w at *
  rw [decodeWord_33 h4]
  simp only [decodeOp33, h0, h1, h3, and_self, if_true]
  simp only [fin4_of h2]
theorem RoundTrip.fkill (k : Fin 4) : RoundTrip.Statement (.fkill k) := by
  have f : Fits [(8, 6), (0, 10), (k.val, 2), (0, 8), (51, 6)] := ⟨by decide, by decide, k.isLt, by decide, by decide, trivial⟩
  refine roundTrip_of [(8, 6), (0, 10), (k.val, 2), (0, 8), (51, 6)] _ rfl (by simp only [pack, mkWord]; omega) f rfl fun hl => ?_
  have h0 : bits _ 0 6 = 8 := bits_field f 0 rfl rfl rfl
  have h1 : bits _ 6 10 = 0 := bits_field f 1 rfl rfl rfl
  have h2 : bits _ 16 2 = k.val := bits_field f 2 rfl rfl rfl
  have h3 : bits _ 18 8 = 0 := bits_field f 3 rfl rfl rfl
  have h4 : bits _ 26 6 = 51 := bits_field f 4 rfl rfl rfl
  generalize mkWord _ = w at *
  rw [decodeWord_33 h4]
  simp only [decodeOp33, h0, h1, h3, and_self, if_true]
  simp only [fin4_of h2]
theorem RoundTrip.fstep (k : Fin 4) : RoundTrip.Statement (.fstep k) := by
  have f : Fits [(9, 6), (0, 10), (k.val, 2), (0, 8), (51, 6)] := ⟨by decide, by decide, k.isLt, by decide, by decide, trivial⟩
  refine roundTrip_of [(9, 6), (0, 10), (k.val, 2), (0, 8), (51, 6)] _ rfl (by simp only [pack, mkWord]; omega) f rfl fun hl => ?_
  have h0 : bits _ 0 6 = 9 := bits_field f 0 rfl rfl rfl
  have h1 : bits _ 6 10 = 0 := bits_field f 1 rfl rfl rfl
  have h2 : bits _ 16 2 = k.val := bits_field f 2 rfl rfl rfl
  have h3 : bits _ 18 8 = 0 := bits_field f 3 rfl rfl rfl
  have h4 : bits _ 26 6 = 51 := bits_field f 4 rfl rfl rfl
  generalize mkWord _ = w at *
  rw [decodeWord_33 h4]
  simp only [decodeOp33, h0, h1, h3, and_self, if_true]
  simp only [fin4_of h2]
theorem RoundTrip.capdrop (k : Fin 4) : RoundTrip.Statement (.capdrop k) := by
  have f : Fits [(11, 6), (0, 10), (k.val, 2), (0, 8), (51, 6)] := ⟨by decide, by decide, k.isLt, by decide, by decide, trivial⟩
  refine roundTrip_of [(11, 6), (0, 10), (k.val, 2), (0, 8), (51, 6)] _ rfl (by simp only [pack, mkWord]; omega) f rfl fun hl => ?_
  have h0 : bits _ 0 6 = 11 := bits_field f 0 rfl rfl rfl
  have h1 : bits _ 6 10 = 0 := bits_field f 1 rfl rfl rfl
  have h2 : bits _ 16 2 = k.val := bits_field f 2 rfl rfl rfl
  have h3 : bits _ 18 8 = 0 := bits_field f 3 rfl rfl rfl
  have h4 : bits _ 26 6 = 51 := bits_field f 4 rfl rfl rfl
  generalize mkWord _ = w at *
  rw [decodeWord_33 h4]
  simp only [decodeOp33, h0, h1, h3, and_self, if_true]
  simp only [fin4_of h2]
theorem RoundTrip.ecall : RoundTrip.Statement (.ecall) := by
  have f : Fits [(0, 26), (14, 6)] := ⟨by decide, by decide, trivial⟩
  refine roundTrip_of [(0, 26), (14, 6)] _ rfl (by simp only [pack, mkWord]; omega) f rfl fun hl => ?_
  have h0 : bits _ 0 26 = 0 := bits_field f 0 rfl rfl rfl
  have h1 : bits _ 26 6 = 14 := bits_field f 1 rfl rfl rfl
  generalize mkWord _ = w at *
  rw [decodeWord_0E h1]
  simp only [decodeOp0E, h0]
theorem RoundTrip.ebreak : RoundTrip.Statement (.ebreak) := by
  have f : Fits [(1, 26), (14, 6)] := ⟨by decide, by decide, trivial⟩
  refine roundTrip_of [(1, 26), (14, 6)] _ rfl (by simp only [pack, mkWord]; omega) f rfl fun hl => ?_
  have h0 : bits _ 0 26 = 1 := bits_field f 0 rfl rfl rfl
  have h1 : bits _ 26 6 = 14 := bits_field f 1 rfl rfl rfl
  generalize mkWord _ = w at *
  rw [decodeWord_0E h1]
  simp only [decodeOp0E, h0]
theorem RoundTrip.yield : RoundTrip.Statement (.yield) := by
  have f : Fits [(2, 26), (14, 6)] := ⟨by decide, by decide, trivial⟩
  refine roundTrip_of [(2, 26), (14, 6)] _ rfl (by simp only [pack, mkWord]; omega) f rfl fun hl => ?_
  have h0 : bits _ 0 26 = 2 := bits_field f 0 rfl rfl rfl
  have h1 : bits _ 26 6 = 14 := bits_field f 1 rfl rfl rfl
  generalize mkWord _ = w at *
  rw [decodeWord_0E h1]
  simp only [decodeOp0E, h0]
theorem RoundTrip.halt : RoundTrip.Statement (.halt) := by
  have f : Fits [(3, 26), (14, 6)] := ⟨by decide, by decide, trivial⟩
  refine roundTrip_of [(3, 26), (14, 6)] _ rfl (by simp only [pack, mkWord]; omega) f rfl fun hl => ?_
  have h0 : bits _ 0 26 = 3 := bits_field f 0 rfl rfl rfl
  have h1 : bits _ 26 6 = 14 := bits_field f 1 rfl rfl rfl
  generalize mkWord _ = w at *
  rw [decodeWord_0E h1]
  simp only [decodeOp0E, h0]
theorem RoundTrip.fenceOv : RoundTrip.Statement (.fenceOv) := by
  have f : Fits [(1, 8), (0, 18), (18, 6)] := ⟨by decide, by decide, by decide, trivial⟩
  refine roundTrip_of [(1, 8), (0, 18), (18, 6)] _ rfl (by simp only [pack, mkWord]; omega) f rfl fun hl => ?_
  have h0 : bits _ 0 8 = 1 := bits_field f 0 rfl rfl rfl
  have h1 : bits _ 8 18 = 0 := bits_field f 1 rfl rfl rfl
  have h2 : bits _ 26 6 = 18 := bits_field f 2 rfl rfl rfl
  generalize mkWord _ = w at *
  rw [decodeWord_12 h2]
  simp only [decodeOp12, h0, h1, and_self, if_true]
theorem RoundTrip.vcommit : RoundTrip.Statement (.vcommit) := by
  have f : Fits [(0, 17), (6, 4), (0, 5), (19, 6)] := ⟨by decide, by decide, by decide, by decide, trivial⟩
  refine roundTrip_of [(0, 17), (6, 4), (0, 5), (19, 6)] _ rfl (by simp only [pack, mkWord]; omega) f rfl fun hl => ?_
  have h0 : bits _ 0 17 = 0 := bits_field f 0 rfl rfl rfl
  have h1 : bits _ 17 4 = 6 := bits_field f 1 rfl rfl rfl
  have h2 : bits _ 21 5 = 0 := bits_field f 2 rfl rfl rfl
  have h3 : bits _ 26 6 = 19 := bits_field f 3 rfl rfl rfl
  generalize mkWord _ = w at *
  rw [decodeWord_13 h3]
  simp only [decodeOp13, h0, h1, h2, and_self, if_true]
theorem RoundTrip.mxoff : RoundTrip.Statement (.mxoff) := by
  have f : Fits [(0, 17), (8, 4), (0, 5), (21, 6)] := ⟨by decide, by decide, by decide, by decide, trivial⟩
  refine roundTrip_of [(0, 17), (8, 4), (0, 5), (21, 6)] _ rfl (by simp only [pack, mkWord]; omega) f rfl fun hl => ?_
  have h0 : bits _ 0 17 = 0 := bits_field f 0 rfl rfl rfl
  have h1 : bits _ 17 4 = 8 := bits_field f 1 rfl rfl rfl
  have h2 : bits _ 21 5 = 0 := bits_field f 2 rfl rfl rfl
  have h3 : bits _ 26 6 = 21 := bits_field f 3 rfl rfl rfl
  generalize mkWord _ = w at *
  rw [decodeWord_15 h3]
  simp only [decodeOp15, h0, h1, h2, and_self, if_true]
theorem RoundTrip.tstop : RoundTrip.Statement (.tstop) := by
  have f : Fits [(2, 3), (0, 23), (38, 6)] := ⟨by decide, by decide, by decide, trivial⟩
  refine roundTrip_of [(2, 3), (0, 23), (38, 6)] _ rfl (by simp only [pack, mkWord]; omega) f rfl fun hl => ?_
  have h0 : bits _ 0 3 = 2 := bits_field f 0 rfl rfl rfl
  have h1 : bits _ 3 23 = 0 := bits_field f 1 rfl rfl rfl
  have h2 : bits _ 26 6 = 38 := bits_field f 2 rfl rfl rfl
  generalize mkWord _ = w at *
  rw [decodeWord_26 h2]
  simp only [decodeOp26, h0, h1, and_self, if_true]
theorem RoundTrip.mzero : RoundTrip.Statement (.mzero) := by
  have f : Fits [(0, 22), (0, 4), (44, 6)] := ⟨by decide, by decide, by decide, trivial⟩
  refine roundTrip_of [(0, 22), (0, 4), (44, 6)] _ rfl (by simp only [pack, mkWord]; omega) f rfl fun hl => ?_
  have h0 : bits _ 0 22 = 0 := bits_field f 0 rfl rfl rfl
  have h1 : bits _ 22 4 = 0 := bits_field f 1 rfl rfl rfl
  have h2 : bits _ 26 6 = 44 := bits_field f 2 rfl rfl rfl
  generalize mkWord _ = w at *
  rw [decodeWord_2C h2]
  simp only [decodeOp2C, h0, h1, and_self, if_true]
theorem RoundTrip.mfold : RoundTrip.Statement (.mfold) := by
  have f : Fits [(0, 22), (8, 4), (44, 6)] := ⟨by decide, by decide, by decide, trivial⟩
  refine roundTrip_of [(0, 22), (8, 4), (44, 6)] _ rfl (by simp only [pack, mkWord]; omega) f rfl fun hl => ?_
  have h0 : bits _ 0 22 = 0 := bits_field f 0 rfl rfl rfl
  have h1 : bits _ 22 4 = 8 := bits_field f 1 rfl rfl rfl
  have h2 : bits _ 26 6 = 44 := bits_field f 2 rfl rfl rfl
  generalize mkWord _ = w at *
  rw [decodeWord_2C h2]
  simp only [decodeOp2C, h0, h1, and_self, if_true]
theorem RoundTrip.hdone : RoundTrip.Statement (.hdone) := by
  have f : Fits [(10, 6), (0, 20), (51, 6)] := ⟨by decide, by decide, by decide, trivial⟩
  refine roundTrip_of [(10, 6), (0, 20), (51, 6)] _ rfl (by simp only [pack, mkWord]; omega) f rfl fun hl => ?_
  have h0 : bits _ 0 6 = 10 := bits_field f 0 rfl rfl rfl
  have h1 : bits _ 6 20 = 0 := bits_field f 1 rfl rfl rfl
  have h2 : bits _ 26 6 = 51 := bits_field f 2 rfl rfl rfl
  generalize mkWord _ = w at *
  rw [decodeWord_33 h2]
  simp only [decodeOp33, h0, h1, and_self, if_true]
theorem RoundTrip.escapementTick : RoundTrip.Statement .escapementTick := roundTrip_event rfl
theorem RoundTrip.vfBlockStart : RoundTrip.Statement .vfBlockStart := roundTrip_event rfl
theorem RoundTrip.vectorSequencerCycle : RoundTrip.Statement .vectorSequencerCycle := roundTrip_event rfl
theorem RoundTrip.tfHeldElementRelease : RoundTrip.Statement .tfHeldElementRelease := roundTrip_event rfl
theorem RoundTrip.tffullTimeout : RoundTrip.Statement .tffullTimeout := roundTrip_event rfl
theorem RoundTrip.regrouping : RoundTrip.Statement .regrouping := roundTrip_event rfl
theorem RoundTrip.vjoinArrival : RoundTrip.Statement .vjoinArrival := roundTrip_event rfl
theorem RoundTrip.vjoinTimeout : RoundTrip.Statement .vjoinTimeout := roundTrip_event rfl
theorem RoundTrip.threadQueueStallRelease : RoundTrip.Statement .threadQueueStallRelease := roundTrip_event rfl
theorem RoundTrip.quadExchangeThreadComplete : RoundTrip.Statement .quadExchangeThreadComplete := roundTrip_event rfl
theorem RoundTrip.operationComplete : RoundTrip.Statement .operationComplete := roundTrip_event rfl
theorem RoundTrip.homeWriteApply : RoundTrip.Statement .homeWriteApply := roundTrip_event rfl
theorem RoundTrip.barexitGroupReady : RoundTrip.Statement .barexitGroupReady := roundTrip_event rfl
theorem RoundTrip.byteLands : RoundTrip.Statement .byteLands := roundTrip_event rfl
theorem RoundTrip.evwaitGrant : RoundTrip.Statement .evwaitGrant := roundTrip_event rfl
theorem RoundTrip.setvlwRelease : RoundTrip.Statement .setvlwRelease := roundTrip_event rfl
theorem RoundTrip.wmpubPerform : RoundTrip.Statement .wmpubPerform := roundTrip_event rfl
theorem RoundTrip.fenceReleaseStallEnd : RoundTrip.Statement .fenceReleaseStallEnd := roundTrip_event rfl
theorem RoundTrip.streamEntryFetch : RoundTrip.Statement .streamEntryFetch := roundTrip_event rfl
theorem RoundTrip.gatherUnitRequest : RoundTrip.Statement .gatherUnitRequest := roundTrip_event rfl
theorem RoundTrip.vfgComplete : RoundTrip.Statement .vfgComplete := roundTrip_event rfl
theorem RoundTrip.engineOpComplete : RoundTrip.Statement .engineOpComplete := roundTrip_event rfl
theorem RoundTrip.engineAsyncFault : RoundTrip.Statement .engineAsyncFault := roundTrip_event rfl
theorem RoundTrip.pageWalkComplete : RoundTrip.Statement .pageWalkComplete := roundTrip_event rfl
theorem RoundTrip.matrixUnitGrant : RoundTrip.Statement .matrixUnitGrant := roundTrip_event rfl
theorem RoundTrip.matrixOpStart : RoundTrip.Statement .matrixOpStart := roundTrip_event rfl
theorem RoundTrip.matrixOpComplete : RoundTrip.Statement .matrixOpComplete := roundTrip_event rfl
theorem RoundTrip.handlerSpawn : RoundTrip.Statement .handlerSpawn := roundTrip_event rfl
theorem RoundTrip.faultQueueEntryFree : RoundTrip.Statement .faultQueueEntryFree := roundTrip_event rfl
theorem RoundTrip.preemptionRequest : RoundTrip.Statement .preemptionRequest := roundTrip_event rfl
theorem RoundTrip.preemptStripTimeout : RoundTrip.Statement .preemptStripTimeout := roundTrip_event rfl
theorem RoundTrip.rowResume : RoundTrip.Statement .rowResume := roundTrip_event rfl
theorem RoundTrip.scalarIssueCycle : RoundTrip.Statement .scalarIssueCycle := roundTrip_event rfl
theorem RoundTrip.starvePromotion : RoundTrip.Statement .starvePromotion := roundTrip_event rfl
theorem RoundTrip.promotionEnd : RoundTrip.Statement .promotionEnd := roundTrip_event rfl
theorem RoundTrip.promotedRowPlacement : RoundTrip.Statement .promotedRowPlacement := roundTrip_event rfl
theorem RoundTrip.laneRetirement : RoundTrip.Statement .laneRetirement := roundTrip_event rfl
theorem RoundTrip.inFieldTest : RoundTrip.Statement .inFieldTest := roundTrip_event rfl
theorem RoundTrip.hostDoorbell : RoundTrip.Statement .hostDoorbell := roundTrip_event rfl
theorem RoundTrip.launchStart : RoundTrip.Statement .launchStart := roundTrip_event rfl
theorem RoundTrip.launchEngineSelection : RoundTrip.Statement .launchEngineSelection := roundTrip_event rfl
theorem RoundTrip.teamBlockingTimeout : RoundTrip.Statement .teamBlockingTimeout := roundTrip_event rfl
theorem RoundTrip.completionRecordWrite : RoundTrip.Statement .completionRecordWrite := roundTrip_event rfl
theorem RoundTrip.hostMemRead : RoundTrip.Statement .hostMemRead := roundTrip_event rfl
theorem RoundTrip.hostMemWrite : RoundTrip.Statement .hostMemWrite := roundTrip_event rfl
theorem RoundTrip.remoteRequestArrival : RoundTrip.Statement .remoteRequestArrival := roundTrip_event rfl
theorem RoundTrip.remoteAcknowledgement : RoundTrip.Statement .remoteAcknowledgement := roundTrip_event rfl
theorem RoundTrip.remoteOpTimeout : RoundTrip.Statement .remoteOpTimeout := roundTrip_event rfl
theorem RoundTrip.collectiveComplete : RoundTrip.Statement .collectiveComplete := roundTrip_event rfl
theorem RoundTrip.deviceFailureDetected : RoundTrip.Statement .deviceFailureDetected := roundTrip_event rfl
theorem RoundTrip.tlbinvPage : RoundTrip.Statement .tlbinvPage := roundTrip_event rfl
theorem RoundTrip.tlbinvAll : RoundTrip.Statement .tlbinvAll := roundTrip_event rfl
theorem RoundTrip.tlbinvFlush : RoundTrip.Statement .tlbinvFlush := roundTrip_event rfl
theorem RoundTrip.tlbInvalidationComplete : RoundTrip.Statement .tlbInvalidationComplete := roundTrip_event rfl
theorem RoundTrip.partitionEnable : RoundTrip.Statement .partitionEnable := roundTrip_event rfl
theorem RoundTrip.partitionDisable : RoundTrip.Statement .partitionDisable := roundTrip_event rfl
theorem RoundTrip.snapshot : RoundTrip.Statement .snapshot := roundTrip_event rfl
theorem RoundTrip.restoreOwn : RoundTrip.Statement .restoreOwn := roundTrip_event rfl
theorem RoundTrip.restoreBuddy : RoundTrip.Statement .restoreBuddy := roundTrip_event rfl
theorem RoundTrip.capwWrite : RoundTrip.Statement .capwWrite := roundTrip_event rfl
theorem RoundTrip.capwForceWrite : RoundTrip.Statement .capwForceWrite := roundTrip_event rfl
theorem RoundTrip.floorwWrite : RoundTrip.Statement .floorwWrite := roundTrip_event rfl
theorem RoundTrip.registerWrite : RoundTrip.Statement .registerWrite := roundTrip_event rfl
theorem RoundTrip.powerControlTick : RoundTrip.Statement .powerControlTick := roundTrip_event rfl
theorem RoundTrip.matrixThrottle : RoundTrip.Statement .matrixThrottle := roundTrip_event rfl
theorem RoundTrip.idleFloorMeasure : RoundTrip.Statement .idleFloorMeasure := roundTrip_event rfl
theorem RoundTrip.sensorSample : RoundTrip.Statement .sensorSample := roundTrip_event rfl
theorem RoundTrip.currentSlewWindow : RoundTrip.Statement .currentSlewWindow := roundTrip_event rfl
theorem RoundTrip.patrolScrub : RoundTrip.Statement .patrolScrub := roundTrip_event rfl
theorem RoundTrip.firmwareUpdate : RoundTrip.Statement .firmwareUpdate := roundTrip_event rfl
theorem RoundTrip.deviceReset : RoundTrip.Statement .deviceReset := roundTrip_event rfl
theorem RoundTrip.getVersion : RoundTrip.Statement .getVersion := roundTrip_event rfl
theorem RoundTrip.getCapabilities : RoundTrip.Statement .getCapabilities := roundTrip_event rfl
theorem RoundTrip.negotiateAlgorithms : RoundTrip.Statement .negotiateAlgorithms := roundTrip_event rfl
theorem RoundTrip.getDigests : RoundTrip.Statement .getDigests := roundTrip_event rfl
theorem RoundTrip.getCertificate : RoundTrip.Statement .getCertificate := roundTrip_event rfl
theorem RoundTrip.challenge : RoundTrip.Statement .challenge := roundTrip_event rfl
theorem RoundTrip.getMeasurements : RoundTrip.Statement .getMeasurements := roundTrip_event rfl
theorem RoundTrip.keyExchange : RoundTrip.Statement .keyExchange := roundTrip_event rfl
theorem RoundTrip.finish : RoundTrip.Statement .finish := roundTrip_event rfl
theorem RoundTrip.keyRelease : RoundTrip.Statement .keyRelease := roundTrip_event rfl
theorem RoundTrip.nonInstructionWord : RoundTrip.Statement .nonInstructionWord := roundTrip_event rfl
theorem RoundTrip.partitionCreation : RoundTrip.Statement .partitionCreation := roundTrip_event rfl
theorem RoundTrip.partitionDestruction : RoundTrip.Statement .partitionDestruction := roundTrip_event rfl
theorem RoundTrip.felokLinkReplay : RoundTrip.Statement .felokLinkReplay := roundTrip_event rfl
theorem RoundTrip.heartbeat : RoundTrip.Statement .heartbeat := roundTrip_event rfl
theorem RoundTrip.peerSnapshotWrite : RoundTrip.Statement .peerSnapshotWrite := roundTrip_event rfl

end Sys2Proof.Laws
end

