-- ==== Sys2Proof/Laws/Slices.lean ====
section
/-! SUPPORT. Slices and strips: what an update of a row's slices reads back as, what committing the store buffer and closing a strip leave of the
row, and what opening one sets. -/

set_option Elab.async false

namespace Sys2Proof.Machine

/-- A finite map at the key just set. -/
theorem FMap.get?_set_self {α : Type} (m : FMap α) (k : Nat) (a : α) : FMap.get? (FMap.set m k a) k = some a := by
  induction m with
  | nil => simp [FMap.set, FMap.get?]
  | cons p t ih =>
    obtain ⟨j, b⟩ := p
    simp only [FMap.set]
    split
    · simp [FMap.get?]
    · split
      · simp [FMap.get?, *]
      · simp only [FMap.get?]
        rename_i h1 h2
        rw [if_neg h2, if_neg h1, ih]

/-- The slices of a row after their update. -/
theorem State.slice_modSlice (s : State) (r : Row) (f : Slice → Slice) : (s.modSlice r f).slice r = f (s.slice r) := by
  simp only [State.modSlice, State.setSlice, State.slice, FMap.getD, FMap.get?_set_self]; rfl

/-- The same for a row of the same context. -/
theorem State.slice_modSlice_ctx (s : State) (r q : Row) (f : Slice → Slice) (h1 : r.cluster = q.cluster) (h2 : r.ctx = q.ctx) :
    (s.modSlice r f).slice q = f (s.slice q) := by
  have e : ∀ u : State, u.slice q = u.slice r := fun u => by simp only [State.slice, h1, h2]
  rw [e, State.slice_modSlice, e]

/-- Committing the store buffer empties it and leaves the rest of the row's record but its byte counts. -/
theorem State.commitBuf_row {s : State} {r : Row} (h : s.row? r.id = some r) :
    ∃ q, (s.commitBuf r.id).row? r.id = some q ∧ q.buf = [] ∧ q.rind = r.rind ∧ q.th = r.th ∧ q.vps = r.vps ∧
      q.cluster = r.cluster ∧ q.ctx = r.ctx ∧ q.id = r.id ∧ q.w = r.w ∧ q.part = r.part := by
  unfold State.commitBuf
  rw [h]; dsimp only
  split
  · rename_i hbuf
    exact ⟨r, h, List.isEmpty_iff.1 hbuf, rfl, rfl, rfl, rfl, rfl, rfl, rfl, rfl⟩
  · refine ⟨{ r with buf := [], bufCnt := [] }, ?_, rfl, rfl, rfl, rfl, rfl, rfl, rfl, rfl, rfl⟩
    have := State.row?_modRow_self (s := s.newId.2) (f := fun q => { q with buf := [], bufCnt := [] }) (x := r) (r := r.id) h (fun _ => rfl)
    exact this

/-- Closing a strip empties the store buffer, ends the rind, and leaves the row's thread, VPs and place. -/
theorem State.closeStrip_row {s : State} {r : Row} (h : s.row? r.id = some r) :
    ∃ x, (s.closeStrip r.id).row? r.id = some x ∧ x.rind = none ∧ x.buf = [] ∧ x.th = r.th ∧ x.vps = r.vps ∧ x.cluster = r.cluster ∧
      x.ctx = r.ctx := by
  obtain ⟨q, hq, q1, q2, q3, q4, q5, q6, q7, q8, q9⟩ := State.commitBuf_row h
  refine ⟨{ q with rind := none, srd := [], swr := []
                   streams := q.streams.map fun o => o.map fun st => { st with got := st.got.filter fun p => st.pos ≤ p.1 } }, ?_, rfl, q1, q3, q4, q5, q6⟩
  have := State.row?_modRow_self (f := fun q : Row =>
    { q with rind := none, srd := [], swr := []
             streams := q.streams.map fun o => o.map fun st => { st with got := st.got.filter fun p => st.pos ≤ p.1 } }) hq (fun _ => rfl)
  unfold State.closeStrip
  dsimp only
  rw [this]; exact this

/-- Opening a strip: VL, VESTART and STRIP of the slices, and the rind of the row. -/
theorem State.openStrip_sets {s : State} {r x : Row} (hx : s.row? r.id = some x) (h1 : x.cluster = r.cluster) (h2 : x.ctx = r.ctx) (vl : Nat)
    (pc : Word) :
   let u := s.openStrip r.id vl pc
   (u.slice r).vl = vl ∧ (u.slice r).vestart = 0 ∧ (u.slice r).strip = { opn := true, nr := false, cause := 0 } ∧
      ∃ q k, u.row? r.id = some q ∧ q.rind = some k ∧ k.pc = pc ∧ k.x = x.th.x ∧ k.vl = vl ∧ q.srd = [] ∧ q.swr = [] := by
  have hid : x.id = r.id := State.row?_id hx
  unfold State.openStrip
  rw [hx]
  dsimp only
  have e : ∀ f, (State.modRow (s.modSlice x fun sl => { sl with vl := vl, vestart := 0, strip := { opn := true, nr := false, cause := 0 } }) r.id f).slice r = (s.modSlice x fun sl => { sl with vl := vl, vestart := 0, strip := { opn := true, nr := false, cause := 0 } }).slice r := fun f => rfl
  refine ⟨?_, ?_, ?_, ?_⟩
  · rw [e, State.slice_modSlice_ctx _ _ _ _ h1 h2]
  · rw [e, State.slice_modSlice_ctx _ _ _ _ h1 h2]
  · rw [e, State.slice_modSlice_ctx _ _ _ _ h1 h2]
  · exact ⟨_, _, State.row?_modRow_self (x := x) hx (fun _ => rfl), rfl, rfl, rfl, rfl, rfl, rfl⟩

end Sys2Proof.Machine
end

