-- ==== Sys2Proof/Tests/Slice0.lean ====
section
/-! SUPPORT. The model's own tests: ill-formed terms that WellFormed refuses, words of the spec's encodings decoded, one step of instructions
on small states, and for each statement a state and operands that meet its hypotheses. -/

namespace Sys2Proof.Tests

open Sys2Proof.Machine Sys2Proof.Claims

set_option Elab.async false

/-! Small states: one row on cluster 0, whose partition 0 is enabled and maps its first 64 MiB of addresses to the same places, for the hub too. -/

/-- The mapping, readable and writable, with A and D set. -/
def page : TlbEnt := { part := 0, base := 0, size := 2 ^ 26, leaf := 0xD3, entry := 0 }

/-- The device with partition 0 enabled: HBM whole, every cluster. -/
def device : State :=
  { State.reset with
    mem := { State.reset.mem with tlbC := [(0, [page]), (128, [page])] }
    parts := State.reset.parts.setIfInBounds 0 { Part.reset with
      desc := ((((Part.reset.desc.setIfInBounds 2 (BitVec.ofNat 64 (2 ^ 39))).setIfInBounds 5 (-1)).setIfInBounds 6 (-1)).setIfInBounds 15
        (BitVec.ofNat 64 (2 ^ 63))), keyCreated := true } }

/-- Registers with small values: x1 = 7, x2 = 5, x3 = 4096, x4 = 3, x5 = −1, x6 = the smallest integer. -/
def regs : Vector Word 32 := (((((Vector.replicate 32 0).set 1 7).set 2 5).set 3 4096).set 4 3 |>.set 5 (-1)).set 6 (BitVec.ofNat 64 (2 ^ 63))

/-- The row, with its thread at address 0. -/
def row : Row := { probeRow State.reset 0 with nregCode := 3, th := { (probeRow State.reset 0).th with x := regs }, sb := (Vector.replicate 8 0).set 2 9 }

/-- The row's slices: 32-bit elements, 512 of them in a register group of one, 16 of them asked for. -/
def slice : Slice := { Slice.fresh 0 with owner := row.owner, w := 32, nreg := 3, vl := 16 }

/-- The slices with a strip open. -/
def opened : Slice := { slice with strip := { opn := true, nr := false, cause := 0 } }

/-- The device about to issue a word of the row. -/
def st (r : Row) (sl : Slice) (f : State → State := id) : State :=
  f { device with rows := [r], slices := [(0, sl)], clock := { device.clock with et := 10, issue := [.ctl r.id] }
                  engine := { device.engine with nextRow := 1 } }

/-- The device about to issue a word of the row, its strip closed. -/
def s0 : State := st row slice
/-- The same with a strip open. -/
def s1 : State := st row opened

/-- A handler thread of cluster 0. -/
def handler : HThread := { probeHandler State.reset with th := { (probeHandler State.reset).th with x := regs } }
/-- The device about to issue a word of the handler. -/
def sh (f : State → State := id) : State :=
  f { s0 with handlers := [handler], clock := { s0.clock with issue := [.hnd 0] } }

/-- A block of one word of the row, running. -/
def blk : LaneRun :=
  { vfpc := 0, header := 64, hd := probeHeader, words := [0], idx := 0, started := true, x := regs, sb := row.sb, xs := regs, ops := []
    flagged := [], sends := [], rcvd := [], late := false, since := 0 }
/-- The row with the block. -/
def lrow : Row := { row with blocks := [blk] }
/-- The device about to issue the block's word. -/
def sl0 (r : Row := lrow) (sl : Slice := opened) : State := { st r sl with clock := { device.clock with et := 10, issue := [.lanes r.id] } }

/-- A bundle of one VP, element 3. -/
def bund : Bundle := { header := 64, hd := probeHeader, words := [0], mem := [{ e := 3, idx := 0, fin := false, ops := [] }], since := 0 }
/-- The row with the bundle. -/
def vrow : Row := { row with vps := [(3, { VP.fresh with st := .thr, fetch := 64 })], bundles := [bund] }
/-- The device about to issue the VP's word. -/
def sv (r : Row := vrow) (sl : Slice := slice) : State := { st r sl with clock := { device.clock with et := 10, issue := [.bundle r.id 0] } }

/-- The next state of a step. -/
def nx : Out → Option State
  | .next s => some s
  | _ => none

/-- The answer is a value that passes the test. -/
def okAnd {ε α : Type} (x : Except ε α) (p : α → Bool) : Bool := match x with | .ok a => p a | .error _ => false

/-- The answer is an error. -/
def errs {ε α : Type} (x : Except ε α) : Bool := match x with | .ok _ => false | .error _ => true

/-- The control thread of the row issues, by evaluation. -/
def rowOk (s : State) (ahead vec : Bool) (r : Row) : Bool :=
  decide (s.ctlActor = some (.ctl r.id)) && decide (s.row? r.id = some r) && !s.mustWait (.ctl r.id) ahead vec && !(vec && s.vownBad (.ctl r.id))

theorem rowOk_issues {s : State} {ahead vec : Bool} {r : Row} (h : rowOk s ahead vec r = true) : s.RowIssues ahead vec r := by
  simp only [rowOk, Bool.and_eq_true, decide_eq_true_eq, Bool.not_eq_true'] at h
  exact ⟨h.1.1.1, h.1.1.2, h.1.2, h.2⟩

theorem rowOk_thread {s : State} {ahead vec : Bool} {r : Row} (h : rowOk s ahead vec r = true) : s.Issues ahead vec (.ctl r.id) r.th := by
  have k := rowOk_issues h
  exact ⟨k.actor, by simp [State.thread?, k.row], k.free, k.own⟩

theorem handler_issues : (sh).HandlerIssues handler := ⟨by decide, by rfl⟩
theorem handler_thread : (sh).Issues true false (.hnd 0) handler.th := ⟨by decide, by rfl, by decide, by decide⟩
theorem lanes_issue : (sl0).LanesIssue lrow blk := ⟨by decide, by rfl, by rfl, by rfl⟩
theorem vp_issues : (sv).VpIssues vrow 0 bund { e := 3, idx := 0, fin := false, ops := [] } := ⟨by decide, by rfl, by rfl, by rfl⟩

/-- The bytes can be accessed at their homes, and the places, the bytes and the state after that pass the test. -/
def seen (s : State) (t : Tid) (va n : Nat) (wr obj : Bool) (p : List Loc × List Byte × State → Bool) : Bool :=
  okAnd (xlateN s (s.acc t) va n wr obj) fun q =>
    let v := q.2.force t (q.1.map (·.key))
    (v.poisoned q.1).isNone && p (q.1, v.homeBytes (s.partOf t) q.1, fetchedBy s v t q.1)

theorem seen_reads {s : State} {t : Tid} {va n : Nat} {wr obj : Bool} {p : List Loc × List Byte × State → Bool} (h : seen s t va n wr obj p = true) :
    ∃ ls v, Reads s t va n wr obj ls v ∧ p (ls, v.homeBytes (s.partOf t) ls, fetchedBy s v t ls) = true := by
  unfold seen okAnd at h
  split at h
  · rename_i q e
    simp only [Bool.and_eq_true, Option.isNone_iff_eq_none] at h
    exact ⟨q.1, _, ⟨q.2, e, rfl, h.1⟩, h.2⟩
  · cases h

theorem storeRuns_stores {s : State} {t : Tid} {l : List (Nat × List Byte)} {u : State} (h : s.storeRuns t l = .ok u) : Stores s t l u := by
  simp only [State.storeRuns] at h
  split at h
  · cases h
  · rename_i ls v e
    exact ⟨ls, v, e, (Except.ok.inj h).symm⟩
theorem loadRuns_loads {t : Tid} : ∀ (l : List (Nat × Nat)) {s : State} {bs : List Byte} {u : State}, s.loadRuns t l = .ok (bs, u) → Loads t l s bs u
  | [], _, _, _, h => by cases h; exact ⟨rfl, rfl⟩
  | (_, _) :: l, _, _, _, h => by
    simp only [State.loadRuns] at h
    split at h
    · cases h
    · rename_i b v e
      split at h
      · cases h
      · rename_i c w k
        cases h
        exact ⟨b, v, c, e, loadRuns_loads l k, rfl⟩
theorem collRead_reads {o : Op} {x : Shape} : ∀ (n e : Nat) {s : State} {vs : List Nat} {u : State}, collRead o x n e s = .ok (vs, u) → ReadsRun o x n e s vs u
  | 0, _, _, _, _, h => by cases h; exact ⟨rfl, rfl⟩
  | n + 1, e, _, _, _, h => by
    simp only [collRead, engineRead] at h
    split at h
    · cases h
    · rename_i ls v w k
      split at h
      · cases h
      · rename_i rest u j
        cases h
        split at k
        · cases k
        · split at k
          · cases k
          · rename_i a _ ls v f
            split at k
            · cases k
            · rename_i g
              cases k
              exact ⟨by simpa using a, ls, v, rest, f, g, collRead_reads n (e + 1) j, rfl⟩
theorem collWrite_writes {o : Op} {x : Shape} : ∀ (l : List Nat) (e : Nat) {s u : State}, collWrite o x l e s = (u, none) → WritesRun o x l e s u
  | [], _, _, _, h => by cases h; rfl
  | y :: l, e, s, u, h => by
    simp only [collWrite, engineDest] at h
    cases k : spotLocs s o.acc true false (x.spot e).pieces with
    | error f => simp [k] at h
    | ok q => rw [k] at h; exact ⟨q.1, q.2, k, collWrite_writes l (e + 1) h⟩
theorem flushRun_flushes {o : Op} {x : Shape} : ∀ (n e : Nat) {s u : State} {f : Nat}, flushRun o x n e s = (u, f, none) → Flushes o x n e s u
  | 0, _, _, _, _, h => by cases h; rfl
  | n + 1, e, s, u, f, h => by
    cases a : x.aligned e with
    | false => simp [flushRun, a] at h
    | true =>
      cases k : spotLocs s { part := o.part, cluster := o.cluster, hnd := false } false false (x.spot e).pieces with
      | error g => simp [flushRun, a, k] at h
      | ok q => simp only [flushRun, a, k, if_true] at h; exact ⟨a, q.1, q.2, k, flushRun_flushes n (e + 1) h⟩
theorem okAnd_ok {ε α : Type} {x : Except ε α} {p : α → Bool} (h : okAnd x p = true) : ∃ a, x = .ok a ∧ p a = true := by
  cases x with
  | ok a => exact ⟨a, rfl, h⟩
  | error _ => cases h

/-! WellFormed refuses the ill-formed term of each of its checks. -/

theorem smoke_tags : ¬ (Instr.vtagw 1 .macc).wellFormed ∧ ¬ (Instr.vretag 1 .macc).wellFormed := by decide
theorem smoke_ramo : ¬ (Instr.ramo 1 2 3 { op := .fadd, word := false } .rlx).wellFormed := by decide
theorem smoke_loads : ¬ (Instr.vld 1 2 3 .i8 0).wellFormed ∧ ¬ (Instr.vlds 1 2 3 .i4 0).wellFormed ∧ ¬ (Instr.vldx 1 2 3 .b1 0).wellFormed ∧
    ¬ (Instr.vfg 1 2 3 .fp4b 0).wellFormed ∧ ¬ (Instr.vldseg 1 2 1 .q4l 0).wellFormed ∧ ¬ (Instr.vldseg 1 2 0 .i8 0).wellFormed ∧
    ¬ (Instr.vldseg 1 2 8 .i8 0).wellFormed := by decide
theorem smoke_stores : ¬ (Instr.vst 1 2 0 .e4m3b 0).wellFormed ∧ ¬ (Instr.vst 1 2 1 .i8 0).wellFormed ∧ ¬ (Instr.vsts 1 2 3 .i4 0).wellFormed ∧
    ¬ (Instr.vstx 1 2 3 .b1 0).wellFormed ∧ ¬ (Instr.vstseg 1 2 1 .i4 0).wellFormed ∧ ¬ (Instr.vstseg 1 2 0 .i8 0).wellFormed ∧
    ¬ (Instr.vstxa 1 2 3 .i8 0).wellFormed := by decide
theorem smoke_masks : ¬ (Instr.vcmpEq 0 1 (.vec 2) 0).wellFormed ∧ ¬ (Instr.vcmpNe 0 1 (.vec 2) 0).wellFormed ∧
    ¬ (Instr.vcmpLtS 0 1 (.vec 2) 0).wellFormed ∧ ¬ (Instr.vcmpLtN 0 1 (.vec 2) 0).wellFormed ∧ ¬ (Instr.vcmpLeS 0 1 (.vec 2) 0).wellFormed ∧
    ¬ (Instr.vcmpLeN 0 1 (.vec 2) 0).wellFormed ∧ ¬ (Instr.vfcmpEq 0 1 (.vec 2) 0).wellFormed ∧ ¬ (Instr.vfcmpLt 0 1 (.vec 2) 0).wellFormed ∧
    ¬ (Instr.vfcmpLe 0 1 (.vec 2) 0).wellFormed ∧ ¬ (Instr.mand 0 1 2).wellFormed ∧ ¬ (Instr.mor 0 1 2).wellFormed ∧
    ¬ (Instr.mxor 0 1 2).wellFormed ∧ ¬ (Instr.mnot 0 1).wellFormed ∧ ¬ (Instr.mlist 0).wellFormed ∧ ¬ (Instr.mbits 0).wellFormed ∧
    ¬ (Instr.vsel 1 2 (.vec 3) 0).wellFormed := by decide
theorem smoke_operands : ¬ (Instr.vslup 1 2 (.vec 3) 0).wellFormed ∧ ¬ (Instr.vsldn 1 2 (.vec 3) 0).wellFormed ∧ ¬ (Instr.qbc 1 2 4 0).wellFormed ∧
    ¬ (Instr.vpld 1 2 (.stream 0) 0).wellFormed ∧ ¬ (Instr.vpst 1 2 (.stream 0) 0).wellFormed ∧ ¬ (Instr.mlat true true 1 2 .i16).wellFormed ∧
    ¬ (Instr.mlatg true 1 2 .f32).wellFormed ∧ ¬ (Instr.frdm 1 0 0).wellFormed ∧ ¬ (Instr.frdm 1 0 8).wellFormed := by decide

/-! Decoding: words written out field by field from the tables of 07 (R89 to R102). -/

/-- Fields: value and lowest bit. -/
def fields (l : List (Nat × Nat)) : Nat := (l.map fun p => p.1 * 2 ^ p.2).sum

theorem decode_scalar :
    decodeTableWord 32 (fields [(0x01, 26), (3, 21), (1, 16), (2, 11), (12, 0)]) = some (.divN 3 1 2) ∧
    decodeTableWord 32 (fields [(0x01, 26), (3, 21), (1, 16), (24, 0)]) = some (.bswap 3 1) ∧
    decodeTableWord 32 (fields [(0x02, 26), (3, 21), (1, 16), (0xFFFF, 0)]) = some (.addi 3 1 (-1)) ∧
    decodeTableWord 32 (fields [(0x07, 26), (3, 21), (1, 16), (2, 6), (63, 0)]) = some (.srai 3 1 63) ∧
    decodeTableWord 32 (fields [(0x07, 26), (3, 21), (1, 16), (3, 6), (1, 0)]) = none ∧
    decodeTableWord 32 (fields [(0x08, 26), (3, 21), (0x1FFFFF, 0)]) = some (.lui 3 (-1)) ∧
    decodeTableWord 32 (fields [(0x09, 26), (3, 21), (5, 0)]) = some (.addpc 3 5) := by decide
theorem decode_control :
    decodeTableWord 32 (fields [(0x0A, 26), (1, 21), (2, 16), (4, 13), (0x1FFE, 0)]) = some (.bltN 1 2 (-2)) ∧
    decodeTableWord 32 (fields [(0x0A, 26), (1, 21), (2, 16), (6, 13)]) = none ∧
    decodeTableWord 32 (fields [(0x0B, 26), (1, 21), (8, 0)]) = some (.jal 1 8) ∧
    decodeTableWord 32 (fields [(0x0C, 26), (1, 21), (2, 16), (4, 0)]) = some (.jalr 1 2 4) ∧
    decodeTableWord 32 (fields [(0x0D, 26), (3, 21), (0, 14), (0x800, 0)]) = some (.csrr 3 0x800) ∧
    decodeTableWord 32 (fields [(0x0D, 26), (1, 16), (3, 14), (0x812, 0)]) = some (.csrc 0x812 1) ∧
    decodeTableWord 32 (fields [(0x0E, 26), (1, 0)]) = some .ebreak ∧
    decodeTableWord 32 (fields [(0x15, 26), (1, 17), (5, 0)]) = some (.waitf 5) := by decide
theorem decode_memory :
    decodeTableWord 32 (fields [(0x0F, 26), (3, 21), (1, 16), (6, 13), (8, 0)]) = some (.ldD 3 1 8) ∧
    decodeTableWord 32 (fields [(0x10, 26), (3, 21), (1, 16), (2, 13), (0x1FFC, 0)]) = some (.stW 3 1 (-4)) ∧
    decodeTableWord 32 (fields [(0x11, 26), (3, 21), (1, 16), (2, 11), (4, 8), (2, 5), (1, 4), (8, 0)]) = some (.amoSwap 3 1 2 .dev .rel true) ∧
    decodeTableWord 32 (fields [(0x12, 26), (4, 8), (2, 6)]) = some (.fenceRel .dev) ∧
    decodeTableWord 32 (fields [(0x12, 26), (1, 0)]) = some .fenceOv ∧
    decodeTableWord 32 0x4CC25002 = some (.setvlw 6 5 2) := by decide
theorem decode_spec_examples :
    decodeTableWord 32 0x44A73479 = some (.amoCas 5 7 6 .dev .ar true) ∧ decodeTableWord 32 0x54040001 = some (.waitc 0 1) ∧
    decodeTableWord 32 0x80222940 = some (.vadd 1 2 (.scal 5) 1) ∧ decodeTableWord 32 0x85044085 = some (.vnsr 8 4 (.imm 8) 0) ∧
    decodeTableWord 32 0x98860026 = some (.vpamo 4 6 .add .dev .rlx 0) ∧ decodeTableWord 32 0x5D0CA01C = some (.vstxa 8 12 20 .native 3) ∧
    decodeTableWord 32 0x64A47343 = some (.ramo 5 7 6 { op := .add, word := true } .ar) ∧
    decodeTableWord 32 0xB284103F = some (.mdrainSz 8 4 63) ∧ decodeTableWord 32 0xC8AA3046 = some (.waitm 5 10 6 .par) ∧
    decodeTableWord 32 0xCCA13801 = some (.frdx 5 1 7) ∧ decodeTableWord 32 0x60866000 = some (.cpy 4 6) ∧
    decodeTableWord 32 0x50000004 = some (.vf 4) := by decide
theorem decode_places :
    decodeAt .handler 0x4CC25002 = .error .wrongstream ∧ decodeAt .control 0xCCA13801 = .error .priv ∧ decodeAt .control 0 = .error .illop ∧
    decodeAt .control 0xB0000000 = .error .wrongstream ∧ decodeAt .matrix 0xB0000000 = .ok .mzero := by decide

/-! Scalar words and control transfers. -/

/-- x[n] of the row's thread in the next state. -/
def xAfter (o : Out) (n : Reg) : Option Word := (nx o).bind fun s => (s.thread? (.ctl 0)).map (·.getX n)
/-- The PC of the row's thread in the next state. -/
def pcAfter (o : Out) : Option Word := (nx o).bind fun s => (s.thread? (.ctl 0)).map (·.pc)

theorem wit_scalar_words : s0.Issues true false (.ctl 0) row.th ∧ (sh).Issues true false (.hnd 0) handler.th ∧ s0.steppingOf (.ctl 0) = none ∧
    regReg row.th (.divS 7 6 5) = some (7, BitVec.ofNat 64 (2 ^ 63)) ∧ regReg row.th (.divN 7 1 0) = some (7, -1) ∧
    regReg row.th (.remS 7 1 0) = some (7, 7) ∧ regReg row.th (.mulhN 7 5 5) = some (7, -2) ∧ regReg row.th (.mulhS 7 5 5) = some (7, 0) ∧
    regUnary row.th (.clz 7 0) = some (7, 64) ∧ regUnary row.th (.ctz 7 6) = some (7, 63) ∧ regUnary row.th (.pop 0 5) = some (0, 64) ∧
    regUnary row.th (.bswap 7 1) = some (7, BitVec.ofNat 64 (7 * 2 ^ 56)) ∧ regImm row.th (.srai 7 6 63) = some (7, -1) ∧
    regImm row.th (.lui 7 (-1)) = some (7, -65536) ∧ regImm row.th (.andi 7 5 0xFFFF) = some (7, 0xFFFF) :=
  ⟨rowOk_thread (r := row) (by decide), handler_thread, by decide, by decide, by decide, by decide, by decide, by decide, by decide, by decide, by decide,
    by decide, by decide, by decide, by decide⟩
theorem wit_scalar_reserved : scalarPlace .control ∧ bits 0x0400A815 26 6 = 0x01 ∧ 21 ≤ bits 0x0400A815 0 6 ∧ bits 0x0400A815 0 6 ≤ 24 ∧
    bits 0x0400A815 11 5 ≠ 0 ∧ bits 0x1C0000C0 26 6 = 0x07 ∧ bits 0x1C0000C0 6 2 = 3 ∧ bits 0x1C008000 26 6 = 0x07 ∧ bits 0x1C008000 8 8 ≠ 0 ∧
    bits 0x2800E000 26 6 = 0x0A ∧ 6 ≤ bits 0x2800E000 13 3 :=
  ⟨.inl rfl, by decide⟩
theorem test_div_overflow : xAfter (exec (.divS 7 6 5) s0) 7 = some (BitVec.ofNat 64 (2 ^ 63)) := by decide
theorem test_rem_by_zero : xAfter (exec (.remN 7 1 0) s0) 7 = some 7 := by decide
theorem test_add_x0 : (nx (exec (.add 0 1 2) s0)).map (fun s => (s.thread? (.ctl 0)).map (fun t => (t.getX 0, t.pc))) = some (some (0, 4)) := by decide
theorem test_sra_negative : xAfter (exec (.sra 7 6 5) s0) 7 = some (-1) := by decide

theorem wit_branches : branchTest row.th (.bltS 5 1 (-2)) = some (true, -2) ∧ branchTest row.th (.bltN 5 1 4) = some (false, 4) := by decide
theorem wit_jumps : s0.blocksRun (.ctl 0) = false ∧
    (row.th.getX 3 + (4 : BitVec 16).signExtend 64).extractLsb' 0 2 = 0 ∧ canonical (row.th.getX 3 + (4 : BitVec 16).signExtend 64).toNat = true ∧
    (row.th.getX 3 + (2 : BitVec 16).signExtend 64).extractLsb' 0 2 ≠ 0 ∧
    (row.th.getX 6 + (4 : BitVec 16).signExtend 64).extractLsb' 0 2 = 0 ∧ canonical (row.th.getX 6 + (4 : BitVec 16).signExtend 64).toNat = false := by
  decide
theorem test_branch_back : pcAfter (exec (.bltS 5 1 (-2)) s0) = some (-8) := by decide
theorem test_jalr_link : xAfter (exec (.jalr 3 3 8) s0) 3 = some 4 ∧ pcAfter (exec (.jalr 3 3 8) s0) = some 4104 := by decide

/-! Control and status registers. -/

/-- A row in whose slices another row's registers are. -/
def lost : Row := { row with vvalid := false }

theorem wit_csr : s0.RowIssues false false row ∧ (st lrow opened).RowIssues (csrAhead 0x800) false lrow ∧ csrFree (st lrow opened) lrow 0x800 ∧
    csrValue s0 row 0x800 = some 16 ∧ csrValue s0 row 0xF00 = some 0x24000100 ∧ csrFree s0 row 0x813 ∧ csrFree s0 row 0x812 ∧ csrFree s0 row 0x807 ∧
    csrWrite row.th (.csrw 0x812 4) = some (0x812, fun _ => (row.th.getX 4).toNat, (row.th.getX 4).toNat) ∧
    (csrWritten s0.popIssue row 0x812 4 4).isSome = true ∧ (csrWritten s0.popIssue row 0x807 0 0).isSome = true ∧
    (csrWritten s0.popIssue row 0x800 1 1).isSome = true ∧ 5 ≤ (row.th.getX 1).toNat % 8 ∧ csrKnown 0x7FF = false :=
  ⟨rowOk_issues (by decide), rowOk_issues (by decide), by unfold csrFree matrixQuiet; decide, by decide, by decide, by unfold csrFree matrixQuiet; decide,
    by unfold csrFree matrixQuiet; decide, by unfold csrFree matrixQuiet; decide, by rfl, by decide, by decide, by decide, by decide, by decide⟩
theorem wit_csr_handler : (sh).HandlerIssues handler ∧ (0x840 : BitVec 14).toNat ∈ [0x840, 0x841, 0xF00, 0xF01, 0xF02] ∧
    (0x800 : BitVec 14).toNat ∉ [0x840, 0x841, 0xF00, 0xF01, 0xF02] := ⟨handler_issues, by decide, by decide⟩
theorem wit_csr_vector : (st { row with mxon := true } slice).RowIssues false false { row with mxon := true } ∧
    ({ row with vps := [(3, { VP.fresh with st := .thr })] } : Row).threadLive = true ∧
    csrWrite row.th (.csrw 0x802 2) = some (0x802, fun _ => (row.th.getX 2).toNat, (row.th.getX 2).toNat) ∧
    tagChanged slice 0 (row.th.getX 1).toNat 0 ∧ 7 ≤ (row.th.getX 1).toNat / 2 ^ (4 * 0) % 16 ∧ tagChanged slice 16 (row.th.getX 2).toNat 0 ∧
    ¬ (∃ i < 16, tagChanged slice 0 (row.th.getX 2).toNat i ∧ (7 ≤ (row.th.getX 2).toNat / 2 ^ (4 * i) % 16 ∨ row.mxon = true ∧ 15 ≤ 0 + i)) ∧
    512 * row.w * 2 ^ ((row.th.getX 6).toNat % 4) / (8 * 2 ^ ((row.th.getX 6).toNat / 4 % 4)) = 2048 ∧
    512 * row.w * 2 ^ 0 / (8 * 2 ^ 3) < ({ opened with vl := 257 } : Slice).vl ∧ (row.th.getX 2).toNat / 4 % 4 ≠ slice.ew :=
  ⟨rowOk_issues (by decide), by decide, by rfl, by unfold tagChanged; decide, by decide, by unfold tagChanged; decide,
    by unfold tagChanged; decide, by decide, by decide, by decide⟩
theorem wit_csr_handler_write : (sh).HandlerIssues handler ∧ (csrWrite handler.th (.csrw 0x840 1)).map (·.1) = some 0x840 ∧
    (csrWrite handler.th (.csrs 0x809 1)).map (·.1) = some 0x809 ∧ (csrWrite handler.th (.csrc 0x812 1)).map (·.1) = some 0x812 :=
  ⟨handler_issues, by decide, by decide, by decide⟩
theorem test_csrw_vtaglo : (nx (exec (.csrw 0x801 2) s0)).map (fun s => (((s.slice row).reg 0).tag.code, ((s.slice row).reg 1).tag, (s.slice row).vdirty)) =
    some (5, .none, 1) := by decide
theorem test_csrr_vlmax : xAfter (exec (.csrr 7 0x805) s0) 7 = some 512 := by decide
theorem test_csrw_frm_reserved : (nx (exec (.csrw 0x812 1) s0)).map (fun s => s.cave.recs.map (·.code)) = some [.illop] := by decide
theorem test_csrs_fflags : (nx (exec (.csrs 0x813 2) s0)).map (fun s => s.rows.map (·.fflags)) = some [5] := by decide

/-! Memory words. -/

theorem wit_loads : s0.Issues s0.blocksQuiet false (.ctl 0) row.th ∧ (st lrow opened).Issues (st lrow opened).blocksQuiet false (.ctl 0) lrow.th ∧
    (st lrow opened).blocksRun (.ctl 0) = true ∧ s0.blocksRun (.ctl 0) = false ∧ (loadForm (.ldHs 7 3 2)).isSome = true ∧ accessAddr row.th 3 2 % 2 = 0 ∧
    okAnd (s0.popIssue.scalarLoad (.ctl 0) (accessAddr row.th 3 2) 2) (fun _ => true) = true ∧ accessAddr row.th 3 1 % 2 ≠ 0 ∧
    accessAddr row.th 6 0 % 2 = 0 ∧ errs (s0.popIssue.scalarLoad (.ctl 0) (accessAddr row.th 6 0) 2) = true :=
  ⟨rowOk_thread (r := row) (by decide), rowOk_thread (r := lrow) (by decide +kernel), by decide, by decide, by decide, by decide, by decide, by decide,
    by decide, by decide⟩
theorem wit_stores : (storeForm (.stD 5 3 (-8))).isSome = true ∧ accessAddr row.th 3 (-8) % 8 = 0 ∧
    okAnd (xlateN s0.popIssue (s0.acc (.ctl 0)) (accessAddr row.th 3 (-8)) 8 true false) (fun _ => true) = true ∧
    accessAddr row.th 3 (-1) % 8 ≠ 0 := by decide
theorem wit_load_after_store : s0.mem.writes = [] ∧ (4096 : Nat) < 2 ^ 64 ∧ [1, 2, 3, (4 : Byte)].length ∈ [1, 2, 4, 8] ∧ 4096 % [1, 2, 3, (4 : Byte)].length = 0 ∧
    okAnd (s0.scalarStore (.ctl 0) 4096 [1, 2, 3, 4]) (fun _ => true) = true := by decide
/-- A copy of the line at 4096 in cluster 0's L1, valid until `t`. -/
def copied (t : Nat) : State := { s0 with mem := { s0.mem with l1 := [{ cluster := 0, line := 64, stop := t, bytes := List.replicate 64 7 }] } }
/-- The line at 4096 poisoned. -/
def spoiled : State := { s0 with mem := { s0.mem with poison := [64] } }
theorem wit_load_values : errs (xlateN s0 (s0.acc (.ctl 0)) (2 ^ 40) 8 false false) = true ∧ (∀ w ∈ spoiled.mem.writes, w.scalar = true) ∧
    okAnd (xlateN spoiled (spoiled.acc (.ctl 0)) 4096 8 false false) (fun q => (q.2.poisoned q.1).isSome && q.1.all (·.key < 2 ^ 54)) = true ∧
    okAnd (xlateN (copied 11) ((copied 11).acc (.ctl 0)) 4096 8 false false) (fun q => (q.2.poisoned q.1).isNone && q.1.all fun l =>
      FMap.getD q.2.mem.keys l.key 0 == l.enc) = true ∧
    ((copied 11).mem.l1.filter fun c => c.cluster == 0 && c.line == 4096 / 64 && decide ((copied 11).clock.et < c.stop)).length = 1 ∧
    ((copied 10).mem.l1.filter fun c => c.cluster == 0 && c.line == 4096 / 64 && decide ((copied 10).clock.et < c.stop)) = [] ∧
    errs (xlateN s0.popIssue (s0.acc (.ctl 0)) (accessAddr row.th 6 0) 8 true false) = true ∧ accessAddr row.th 6 0 % 8 = 0 := by decide
theorem test_load_copy : xAfter (exec (.ldBn 7 3 0) (copied 11)) 7 = some 7 ∧ xAfter (exec (.ldBn 7 3 0) (copied 10)) 7 = some 0 := by decide
theorem test_load_poisoned : (nx (exec (.ldBn 7 3 1) spoiled)).map (fun s => s.cave.recs.map fun k => (k.code, k.addr1)) = some [(.memerr, 4096)] := by decide
theorem test_store_load : ((nx (exec (.stW 5 3 0) s1)).bind fun s => nx (exec (.ldHs 7 3 2) { s with clock := { s.clock with issue := [.ctl 0] } })).map
    (fun s => ((s.thread? (.ctl 0)).map (·.getX 7), (s.slice row).strip)) = some (some (-1), { opn := true, nr := true, cause := 3 }) := by decide

/-- A partition whose tables lie in memory: root at 64 KiB, tables at 128 and 192 KiB and a 64 MiB leaf, A and D clear. -/
def walked : State :=
  let s := device.modPart 0 fun p => { p with desc := p.desc.setIfInBounds 0 (BitVec.ofNat 64 (2 ^ 16)) }
  let s := (s.pokeBytes (2 ^ 16) (leBytes 8 (2 ^ 17 + 1))).pokeBytes (2 ^ 17) (leBytes 8 0x13)
  { s with mem := { s.mem with tlbC := [] } }
theorem wit_translation : walked.MemOk ∧ okAnd (xlate walked { part := 0, cluster := 0, hnd := false } 4096 8 true false)
    (fun q => q.1.key == 4096 && q.2.byte (2 ^ 17) == 0xD3) = true := by unfold State.MemOk; decide

theorem wit_walk : walked.dwordAt (2 ^ 16 + 8 * walkIndex 4096 4) = 2 ^ 17 + 1 ∧ ¬ badPointer 4 (2 ^ 17 + 1) ∧ badPointer 1 (2 ^ 17 + 1) ∧
    badPointer 4 (2 ^ 8 + 1) ∧ walked.dwordAt (2 ^ 17 + 8 * walkIndex 4096 3) = 0x13 ∧ ¬ badLeaf 3 0x13 ∧ badLeaf 3 (2 ^ 16 + 0x13) ∧
    walked.dwordAt 0 % 2 = 0 ∧ 2 ^ 39 ≤ 2 ^ 39 + 8 * walkIndex 4096 4 ∧ (2 ^ 51 + 8 * walkIndex 4096 4) / 64 ∉ walked.mem.poison ∧
    (4096 : Nat) / 64 ∈ spoiled.mem.poison := by unfold badPointer badLeaf; decide
theorem wit_place : (leafFor walked { part := 0, cluster := 0, hnd := false } 4096).toOption = some (0x53, 2 ^ 26, 2 ^ 17) ∧
    placeUnder walked 0 4096 8 true false 0x53 (2 ^ 26) = some { key := 4096, enc := 0, home := 0 } ∧
    placeUnder walked 0 4096 8 true false 0x43 (2 ^ 26) = none ∧ errs (leafFor s0 { part := 0, cluster := 0, hnd := false } (2 ^ 27)) = true ∧
    (leafFor s0 { part := 0, cluster := 0, hnd := false } 4096).toOption = some (0xD3, 2 ^ 26, 0) ∧ 2 ^ 55 / 2 ^ 55 % 2 ^ 9 ≠ 511 ∧
    (placeUnder s0 0 4096 8 true false (2 ^ 45 * 3 + 2 ^ 26 + 0x17) (2 ^ 16)).map (·.home) = some 1 ∧
    placeUnder s0 0 4096 8 true false (2 ^ 45 * 3 + 2 ^ 26 + 0x17) (2 ^ 16) = some { key := 2 ^ 52 + 3 * 2 ^ 22 + 4096, enc := 0, home := 1 } := by decide
theorem wit_crossing : okAnd (xlate s0 { part := 0, cluster := 0, hnd := false } 65532 4 false false) (fun q =>
      okAnd (xlate q.2 { part := 0, cluster := 0, hnd := false } 65536 4 false false) fun _ => true) = true ∧
    okAnd (xlate s0 { part := 0, cluster := 0, hnd := false } (2 ^ 26 - 4) 4 false false) (fun q =>
      errs (xlate q.2 { part := 0, cluster := 0, hnd := false } (2 ^ 26) 4 false false)) = true ∧
    errs (xlate s0 { part := 0, cluster := 0, hnd := false } (2 ^ 27 - 4) 4 false false) = true ∧ 65532 % 2 ^ 16 + 4 = 2 ^ 16 := by decide

/-- A write of two bytes on its way. -/
def travelling : PWrite := { id := 7, thread := .ctl 0, cluster := 0, part := 0, scalar := true, op := none
                             items := ([{ key := 4096, enc := 0, home := 0 }, { key := 4097, enc := 0, home := 0 }].zip [1, (2 : Byte)]).map
                               fun p => .byte p.1 0xFF p.2 }
/-- The device with it. -/
def flying : State := { s0 with mem := { s0.mem with writes := [travelling] }, clock := { s0.clock with arg := { a := 7 } } }
theorem wit_home_write : flying.MemOk ∧ flying.mem.writes.find? (·.id == flying.clock.arg.a) = some travelling ∧
    flying.writeBlocked travelling = false ∧
    ([{ key := 4096, enc := 0, home := 0 }, { key := 4097, enc := 0, home := 0 }].map Loc.key).Nodup ∧ flying.waiters = [] ∧ flying.mem.lockQ = [] := by
  unfold State.MemOk; decide
theorem test_home_write : (nx (exec .homeWriteApply flying)).map (fun s => (s.bytesAt 4096 3, s.mem.writes.length, s.gwctOf (.ctl 0))) =
    some ([1, 2, 0], 0, 11) := by decide

/-- A thread whose writes have all returned, but in the future. -/
def late : Row := { row with th := { row.th with gwct := 50 } }
theorem wit_atomics : amoValue 32 .minS 0x80000000 1 0 = some 0x80000000 ∧ amoValue 64 .cas 3 4 3 = some 4 ∧
    (amoForm (.amoCas 7 3 2 .dev .ar true)).isSome = true ∧ (row.th.getX 3).toNat % (32 / 8) = 0 ∧ (row.th.getX 2).toNat % (64 / 8) ≠ 0 ∧
    s0.popIssue.releaseOk (.ctl 0) .dev = true ∧
    seen s0.popIssue (.ctl 0) 4096 4 true true (fun q => !q.1.isEmpty) = true ∧ s0.ramoOut (.ctl 0) = false ∧
    (st late slice).Issues false false (.ctl 0) late.th ∧ (st late slice).popIssue.releaseOk (.ctl 0) .dev = false ∧
    (st late slice).steppingOf (.ctl 0) = none :=
  ⟨by decide, by decide, by decide, by decide, by decide, by decide, by decide, by decide, rowOk_thread (r := late) (by decide), by decide, by decide⟩
theorem test_amo_min_signed : xAfter (exec (.amoMinS 7 3 5 .dev .rlx true) s0) 7 = some 0 ∧
    (nx (exec (.amoMinS 7 3 5 .dev .rlx true) s0)).map (·.dwordAt 4096) = some 0xFFFFFFFF := by decide
theorem test_amo_cas_old : xAfter (exec (.amoCas 7 3 1 .dev .rlx false) (s0.pokeBytes 4096 [9])) 7 = some 9 ∧
    (nx (exec (.amoCas 7 3 1 .dev .rlx false) (s0.pokeBytes 4096 [9]))).map (·.dwordAt 4096) = some 9 := by decide

theorem wit_fences : fenceForm (.fenceRel .dev) = some (true, .dev) ∧ s0.ramoOut (.ctl 0) = false ∧
    (sv).VpIssues vrow 0 bund { e := 3, idx := 0, fin := false, ops := [] } ∧ (sv).popIssue.releaseOk (.vp vrow.id 3) .vp = true ∧
    ((s0.row? 0).map Row.threadLive).getD false = false ∧ (∀ w ∈ s0.mem.writes, w.thread ≠ .ctl 0) :=
  ⟨by decide, by decide, vp_issues, by decide, by decide, by decide⟩
/-- The thread in a release stall, its arguments given. -/
def stalled : State :=
  { st { row with th := { row.th with wait := some (.fence .dev) } } slice with clock := { s0.clock with et := 11, arg := { t := .ctl 0 } } }
theorem wit_release_stall : stalled.clock.arg.t = .ctl 0 ∧ stalled.waitOf (.ctl 0) = some (.fence .dev) ∧ stalled.gwctOf (.ctl 0) < stalled.clock.et ∧
    (∀ w ∈ stalled.mem.writes, w.thread ≠ .ctl 0) ∧ stalled.ops = [] := by decide
theorem test_fence_waits : (nx (exec (.fenceRel .dev) (st late slice))).map (·.waitOf (.ctl 0)) = some (some (.fence .dev)) := by decide

/-! Strips and vector control. -/

/-- A row with a VP in thread mode. -/
def tlive : Row := { row with vps := [(3, { VP.fresh with st := .thr })] }
/-- A load of the row's strip that has not completed. -/
def loadOp : Op :=
  { id := 5, row := 0, part := 0, cluster := 0, kind := .vpld 8 .i64 0 [(0, 1)], cls := none, seq := 0, pc := 0, flags := [], vp := none, f := 0
    started := false, landing := none, since := 0, stopped := false }
/-- The device with it. -/
def busy : State := st row opened fun s => { s with ops := [loadOp] }
/-- The device with a remote atomic of the row outstanding. -/
def ramoS (r : Row) : State :=
  st r slice fun s => { s with ops := [{ loadOp with kind := .ramo 7 .add true .rlx (2 ^ 50 * 3 + 4096) 1 0 }] }
/-- A row with a watermark bound at 4096, its consumer position 3, of the given class. -/
def wrow (c : PubCls) : Row := { row with wm := row.wm.set 1 (some { addr := 4096, cls := c, cp := 3 }) }

theorem wit_setvl : s1.RowIssues false true row ∧ (st tlive slice).RowIssues false true tlive ∧ tlive.threadLive = true ∧
    busy.RowIssues false true row ∧ row.threadLive = false ∧ busy.stripBusy row = true ∧ row.stepping = none ∧ canClose s1 row ∧ canClose s0 row :=
  ⟨rowOk_issues (by decide), rowOk_issues (by decide), by decide, rowOk_issues (by decide), by decide, by decide, by decide,
    by unfold canClose; decide, by unfold canClose; decide⟩
theorem wit_setvlw : row.wm.getD 1 none = none ∧ (ramoS (wrow .par)).RowIssues false true (wrow .par) ∧ (wrow .par).wm.getD 1 none ≠ none ∧
    (ramoS (wrow .par)).ramoOut (.ctl 0) = true ∧ (wrow .par).stepping = none ∧ (st (wrow .par) slice).ramoOut (.ctl 0) = false ∧ (st (wrow .par) slice).RowIssues false true (wrow .par) ∧ canClose (st (wrow .par) slice) (wrow .par) ∧
    seen (stripClosed (st (wrow .par) slice).popIssue (wrow .par)) (.ctl 0) 4096 8 false true (fun q => leNat q.2.1 == 0) = true ∧
    seen (stripClosed ((st (wrow .par) slice).pokeBytes 4096 [10]).popIssue (wrow .par)) (.ctl 0) 4096 8 false true
      (fun q => leNat q.2.1 == 3 + min 7 512) = true ∧ wmWaitOk (wrow .outside).cls .outside = true ∧ wmWaitOk ({ wrow .par with cls := .weak } : Row).cls .par = false :=
  ⟨by decide, rowOk_issues (by decide), by decide, by decide, by decide, by decide, rowOk_issues (by decide), by unfold canClose; decide, by decide,
    by decide, by decide, by decide⟩
theorem test_setvl_grant : xAfter (exec (.setvl 7 3) s1) 7 = some 512 ∧ xAfter (exec (.setvl 7 1) s1) 7 = some 7 := by decide
theorem test_setvl_rind : ((nx (exec (.setvl 1 1) s0)).bind (fun s => (s.row? 0).bind (·.rind))).map (fun k => (k.pc, k.x[1], k.vl)) = some (4, 7, 7) := by
  decide

/-- The row with one buffered byte. -/
def brow : Row := { row with buf := [.byte { key := 4096, enc := 0, home := 0 } 0xFF 1] }
theorem wit_strip_close : s1.row? row.id = some row ∧ row.buf = [] ∧ (st brow opened).row? brow.id = some brow ∧ brow.buf ≠ [] := by decide
theorem test_vcommit_sends : (nx (exec .vcommit (st brow opened))).map (fun s => (s.mem.writes.map (·.items.length), (s.slice row).strip.opn, s.byte 4096)) =
    some ([1], false, 0) := by decide

/-- The row in matrix mode. -/
def mrow : Row := { row with mxon := true }
theorem wit_vcfg : (st mrow slice).RowIssues false true mrow ∧ ((3 : Fin 4).val ≠ slice.ew ∨ (0 : Fin 4).val ≠ slice.grp) ∧
    (mrow.mxon = true → (2 : Fin 4).val = slice.ew ∧ (0 : Fin 4).val = slice.grp) ∧ opened.strip.opn = true ∧
    512 * row.w * 2 ^ 0 / (8 * 2 ^ 3) < ({ opened with vl := 257 } : Slice).vl :=
  ⟨rowOk_issues (by decide), by decide, by decide, by decide, by decide⟩
/-- The row with 8 declared registers. -/
def row8 : Row := { row with nregCode := 0 }
theorem wit_tag_words : (st row8 slice).row? row8.id = some row8 ∧ 8 * (row8.nregCode % 4 + 1) ≤ (8 : Reg).val ∧ (7 : Reg).val < 8 * (row8.nregCode % 4 + 1) ∧ Tag.writable .macc = false ∧
    Tag.writable .f32 = true ∧ (∀ o ∈ s0.ops, o.row = row.id → o.kind.loads (s0.slice row).ew (s0.slice row).grp 7 = false) := by decide
theorem test_vcfg_vlmax : xAfter (exec (.vcfg 7 3 1) s0) 7 = some 512 := by decide
theorem wit_vtagw : s0.RowIssues false true row ∧ (2 : Reg).val < 8 * (row.nregCode % 4 + 1) ∧ row.threadLive = false ∧ tlive.threadLive = true :=
  ⟨rowOk_issues (by decide), by decide, by decide, by decide⟩
theorem test_vtagw : (nx (exec (.vtagw 2 .f32) (st row (slice.setElem 32 2 32 0 5)))).map (fun s =>
    (((s.slice row).reg 2).tag, ((s.slice row).reg 2).hwm, (s.slice row).vdirty, (s.slice row).elem 32 2 32 0)) = some (.f32, 0, 4, 5) := by decide

/-- A row whose VP 3 is in PARK(4). -/
def parked : Row := { row with vps := [(3, { VP.fresh with st := .park 4 })] }
theorem wit_vjoin : s0.RowIssues true false row ∧ joinForm row.th (.vjoin 7 4 0) = some (7, 4, 0) ∧ s0.missing row 4 = 0 ∧
    (st parked slice).RowIssues true false parked ∧ (st parked slice).missing parked 4 = 0 ∧ (st tlive slice).RowIssues true false tlive ∧
    (st tlive slice).missing tlive 4 ≠ 0 ∧ joinForm row.th (.vjoinReg 7 4 1) = some (7, 4, 7) ∧ tlive.stepping = none :=
  ⟨rowOk_issues (by decide), by decide, by decide, rowOk_issues (by decide), by decide, rowOk_issues (by decide), by decide, by decide, by decide⟩
theorem wit_vjoin_blocks : (st lrow { opened with vl := 0 }).RowIssues true false lrow ∧ (st lrow { opened with vl := 0 }).missing lrow 4 = 0 ∧ lrow.blocks ≠ [] ∧ lrow.stepping = none :=
  ⟨rowOk_issues (by decide), by decide, by decide, by decide⟩
theorem test_vjoin_moves : (nx (exec (.vjoin 7 4 0) (st parked slice))).map (fun s => (s.rows.map (·.vps.map (·.2.st)), s.rows.map (·.th.getX 7))) =
    some ([[.lock]], [0]) := by decide

/-- A row one of whose flags is up. -/
def flagged : Row := { row with cf := row.cf.set 2 1 }
/-- A row whose block may raise flag 2. -/
def setrow : Row := { row with blocks := [{ blk with hd := { probeHeader with seta := 2 } }] }
/-- Two copies outstanding. -/
def copyOp (k : Nat) : Op := { loadOp with id := k, kind := .cflush { base := 0, rank := 1, fmt := .i8, ext := [1], str := [1] }, cls := some 0, seq := k }
/-- The row that issued them. -/
def crow : Row := { row with seqs := [2, 0, 0, 0], cnt := [2, 0, 0, 0] }
/-- The device with them. -/
def copies : State := st crow slice fun s => { s with ops := [copyOp 0, copyOp 1] }
/-- Queues: the seed queue full, one drain entry. -/
def qrow : Row := { row with seedQ := List.replicate 4 { v := 0, tag := .i64 }, drainQ := [{ v := 0x80, tag := .i8 }] }
theorem wit_waits : s0.RowIssues true false row ∧ (∀ n < 12, (4 : BitVec 12).getLsbD n = true → row.cf.getD n 0 = 0 ∧ row.blockSets n = false) ∧
    (∃ n < 12, (4 : BitVec 12).getLsbD n = true ∧ (flagged.cf.getD n 0 ≠ 0 ∨ flagged.blockSets n = true)) ∧ row.blocks = [] ∧
    (st setrow opened).RowIssues true false setrow ∧ setrow.blockSets 2 = true ∧
    (∀ o ∈ copies.ops, o.row = crow.id → o.cls = some 0 → crow.seqs.getD 0 0 ≤ o.seq + 2) ∧
    (∃ o ∈ copies.ops, o.row = crow.id ∧ o.cls = some 0 ∧ o.seq + 1 < crow.seqs.getD 0 0) :=
  ⟨rowOk_issues (by decide), by decide, by decide, by decide, rowOk_issues (by decide), by decide, by decide, by decide⟩
theorem wit_queues : 4 ≤ qrow.seedQ.length ∧ row.seedQ.length < 4 ∧ row.drainQ = [] ∧ qrow.drainQ = { v := 0x80, tag := .i8 } :: [] := by decide
/-- The seed queue full behind a block; the block's words all run. -/
def seedrow (n : Nat) : Row := { lrow with seedQ := List.replicate n { v := 0, tag := .i64 }, blocks := [{ blk with idx := 1 }] }
theorem wit_queues_behind : (st (seedrow 4) opened).RowIssues true false (seedrow 4) ∧ (st (seedrow 3) opened).RowIssues true false (seedrow 3) ∧
    4 ≤ (seedrow 4).seedQ.length + ((seedrow 4).blocks.map fun k => k.seeded.length).sum ∧
    ¬ 4 ≤ (seedrow 3).seedQ.length + ((seedrow 3).blocks.map fun k => k.seeded.length).sum ∧ (seedrow 3).blocks = [] ++ [{ blk with idx := 1 }] ∧
    (st (seedrow 4) opened).RowIssues false false (seedrow 4) ∧ (seedrow 4).stepping = none :=
  ⟨rowOk_issues (by decide), rowOk_issues (by decide), by decide, by decide, by decide, rowOk_issues (by decide), by decide⟩
theorem test_qseed_behind : (nx (exec (.qseed 1) (st (seedrow 3) opened))).map (fun s => s.rows.map fun r =>
    (r.seedQ.length, r.blocks.map fun k => k.seeded.map (·.v))) = some [(3, [[7]])] := by decide
theorem test_qdrain_sign : xAfter (exec (.qdrain 7) (st qrow slice)) 7 = some (-128) := by decide
theorem test_sbget : xAfter (exec (.sbget 7 2) s0) 7 = some 9 := by decide

theorem wit_launch : (row.th.getX 3).toNat % 64 = 0 ∧ (row.th.getX 1).toNat % 64 ≠ 0 ∧ (row.th.getX 1).toNat % 8 ≠ 0 ∧
    (st late slice).popIssue.releaseOk (.ctl 0) .dev = false ∧ s0.popIssue.releaseOk (.ctl 0) .dev = true ∧
    seen s0.popIssue (.ctl 0) 4096 64 false false (fun _ => true) = true ∧
    seen s0.popIssue (.ctl 0) 4096 8 true true (fun q => leNat q.2.1 == 0) = true ∧
    seen (s0.pokeBytes 4096 (leBytes 8 (2 ^ 64 - 1))).popIssue (.ctl 0) 4096 8 true true (fun q => leNat q.2.1 == 2 ^ 64 - 1) = true ∧
    (∀ q ∈ s0.mem.eventQ, q.1 ≠ 4096) ∧ s0.ramoOut (.ctl 0) = false ∧ (ramoS row).ramoOut (.ctl 0) = true ∧ row.stepping = none := by decide
theorem test_evsig : (nx (exec (.evsig 3) (s0.pokeBytes 4096 [0xFF]))).map (·.dwordAt 4096) = some 256 := by decide
theorem test_evwait_queues : (nx (exec (.evwait 3) s0)).map (fun s => (s.mem.eventQ, s.waitOf (.ctl 0))) = some ([(4096, .ctl 0)], some (.event 4096)) := by decide

theorem wit_traps : s0.RowIssues false false row ∧ (s0.stripOf row).opn = false ∧ s1.RowIssues false false row ∧ (s1.stripOf row).opn = true ∧
    (s1.stripOf row).nr = false ∧ s1.stripBusy row = false ∧ (sh).HandlerIssues handler :=
  ⟨rowOk_issues (by decide), by decide, rowOk_issues (by decide), by decide, by decide, by decide, handler_issues⟩
theorem wit_halt : tlive.threadLive = true ∧ row.threadLive = false ∧ s0.stripBusy row = false ∧ s0.popIssue.rowQuiet row = true ∧
    (s1.popIssue.closeStrip row.id).rowQuiet row = true := by decide
theorem test_ecall_record : (nx (exec .ecall s0)).map (fun s => s.cave.recs.map (fun k => (k.code, k.course, k.pc, k.resume))) =
    some [(.ecall, 4, 0, 4)] := by decide
theorem test_halt_ends : (nx (exec .halt s1)).map (fun s => s.rows.length) = some 0 := by decide

/-! Synchronisation. -/

/-- A barrier record at 4096. -/
def withBar (s : State) (b : BarRec) : State := s.pokeBytes 4096 b.bytes
/-- Its record: two members of class concurrent. -/
def bar2 (arrived gen pending : Nat) : BarRec := { cls := .conc, arrived := arrived, count := 2, gen := gen, pending := pending, owner := 0 }
/-- The row's token. -/
def tok : Nat := (row.token none).toNat
/-- The row with an arrival register. -/
def arrived (gen : Nat) (proxy : Bool) : Row := { row with th := { row.th with arrival := some { addr := 4096, gen := gen, proxy := proxy } } }
/-- The slices with every register tagged i64 and element 3 of v8 holding the barrier's address. -/
def slice64 : Slice :=
  let sl : Slice := { slice with ew := 3, v := Vector.replicate 32 { VReg.fresh 0 with tag := .i64 } }
  (sl.setElem 32 8 64 3 4096).setElem 32 9 64 3 1

theorem sync_row (h : Bool) {s : State} {r : Row} (k : rowOk s false false r = true) (l : List Reg) :
    SyncIssues s h (.ctl r.id) r.cls (r.token none).toNat r.th.getX l := .inl ⟨r, rfl, rowOk_issues k, rfl, rfl, rfl⟩
theorem vp64_issues : (sv vrow slice64).VpIssues vrow 0 bund { e := 3, idx := 0, fin := false, ops := [] } := ⟨by decide, by rfl, by rfl, by rfl⟩
theorem vp64_regs : vpRegFault (sv vrow slice64) vrow [8, 9] = none := by decide +kernel
theorem wit_sync_vp : SyncIssues (sv vrow slice64) false (.vp vrow.id 3) vrow.cls (vrow.token (some 3)).toNat
    (fun v => BitVec.ofNat 64 (((sv vrow slice64).slice vrow).elem vrow.w v 64 3)) [8, 9] ∧ vrow.cls = .conc ∧
    ((sv vrow slice64).slice vrow).elem vrow.w 8 64 3 = 4096 :=
  ⟨.inr (.inl ⟨vrow, 0, bund, { e := 3, idx := 0, fin := false, ops := [] }, rfl, vp64_issues, rfl, rfl, vp64_regs, rfl⟩), by decide, by decide +kernel⟩
theorem wit_sync_handler : SyncIssues sh true (.hnd 0) .conc 0 handler.th.getX [3, 2] :=
  .inr (.inr ⟨handler, rfl, rfl, handler_issues, rfl, by decide, rfl⟩)

theorem wit_bar_init : SyncIssues s0 false (.ctl 0) .conc tok row.th.getX [3, 2] ∧ (row.th.getX 3).toNat % 32 = 0 ∧
    s0.popIssue.releaseOk (.ctl 0) .dev = true ∧ seen s0.popIssue (.ctl 0) 4096 32 true true
      (fun q => !q.1.isEmpty && (parseBar q.2.1).isNone && !q.2.2.barWaiters 4096) = true ∧
    1 ≤ (row.th.getX 2).toNat ∧ (row.th.getX 2).toNat < 2 ^ 20 ∧ (row.th.getX 0).toNat = 0 ∧ 2 ^ 20 ≤ (row.th.getX 5).toNat ∧
    seen (withBar s0 (bar2 1 0 0)).popIssue (.ctl 0) 4096 32 true true
      (fun q => decide (0 < ((parseBar q.2.1).map (·.arrived)).getD 0)) = true :=
  ⟨sync_row false (r := row) (by decide) _, by decide, by decide, by decide, by decide, by decide, by decide, by decide, by decide⟩
theorem wit_bar_bytes : seen (withBar s0 (bar2 2 0 4)).popIssue (.ctl 0) 4096 32 true true
      (fun q => parseBar q.2.1 == some (bar2 2 0 4)) = true ∧ row.th.getX 0 = 0 ∧ (4 : Nat) < 2 ^ 28 ∧
    ((3 : Nat) : Int) = (4 : Nat) + (row.th.getX 5).toInt ∧ row.th.getX 5 ≠ 0 ∧ (bar2 2 0 4).arrived = (bar2 2 0 4).count := by decide
theorem wit_bar_arrive : (st (arrived 0 true) slice).arrivalOf (.ctl 0) = some { addr := 4096, gen := 0, proxy := true } ∧
    s0.arrivalOf (.ctl 0) = none ∧ s0.popIssue.releaseOk (.ctl 0) .die = true ∧
    (bar2 1 0 0).cls = row.cls ∧ (bar2 1 0 0).arrived ≠ (bar2 1 0 0).count ∧
    seen (withBar s0 (bar2 1 0 0)).popIssue (.ctl 0) 4096 32 true true (fun q => parseBar q.2.1 == some (bar2 1 0 0)) = true ∧
    ({ bar2 1 0 0 with cls := .par, owner := tok / 2 ^ 22 * 2 ^ 22 } : BarRec).owner = tok / 2 ^ 22 * 2 ^ 22 :=
  by decide
theorem wit_bar_wait : (st (arrived 0 false) slice).arrivalOf (.ctl 0) = some { addr := 4096, gen := 0, proxy := false } ∧
    classWaitOk .conc .conc (0 == tok / 2 ^ 22 * 2 ^ 22) = true ∧
    seen (withBar (st (arrived 0 false) slice) (bar2 0 1 0)).popIssue (.ctl 0) 4096 32 false true
      (fun q => ((parseBar q.2.1).map (·.gen)) == some 1) = true ∧
    seen (withBar (st (arrived 0 false) slice) (bar2 1 0 0)).popIssue (.ctl 0) 4096 32 false true
      (fun q => ((parseBar q.2.1).map (·.gen)) == some 0 && (q.2.2.steppingOf (.ctl 0)).isNone) = true ∧
    s0.arrivalOf (.ctl 0) = none :=
  by decide
theorem test_bar_init : (nx (exec (.barInit 3 2 .par) s0)).map (fun s => (s.dwordAt 4096, s.dwordAt 4104)) =
    some (1 * 2 ^ 61 + 2 ^ 60 + 5, 0) := by decide
theorem test_bar_last_arrival : (nx (exec (.barArrive 3) (withBar s0 (bar2 1 0 0)))).map (fun s => (s.dwordAt 4096, s.dwordAt 4104)) =
    some (2 ^ 60 + 2, 2 ^ 32) := by decide

/-- A frozen record of the row's thread, named by capability k0 of the handler. -/
def frec : FRec :=
  { id := 9, who := .ctl 0, part := 0, cluster := 0, st := .handled 0, code := .illop, party := 0, course := 4, level := 0, token := row.token none
    pc := 0, resume := 4, header := 0, pos := 0, blk := false, unit := 0, strip := 0, field := 0, f := 16, addr1 := 0, addr2 := 0, vvalid := true
    sowner := row.owner, run := none, op := none }
/-- The row under it. -/
def frow : Row := { row with th := { row.th with frozen := some 9 } }
/-- The handler with the capability. -/
def chandler : HThread := { handler with k := [some 9, none, none, none] }
/-- The device, the handler about to issue. -/
def sc (fr : FRec := frec) (r : Row := frow) (sl : Slice := slice) : State :=
  let s := st r sl
  { s with handlers := [chandler], clock := { s.clock with issue := [.hnd 0] }, cave := { s.cave with recs := [fr], next := 10 } }
theorem sc_issues : (sc).HandlerIssues chandler := ⟨by decide, by rfl⟩

theorem wit_proxy : (sc).HandlerIssues chandler ∧ (sc).capOf chandler.slot 1 = none ∧ (sc).capOf chandler.slot 0 = some frec ∧
    (sc).popIssue.releaseOk (.hnd 0) .die = true ∧ (bar2 0 0 0).cls = (sc).classOf frec.who ∧
    seen (withBar sc (bar2 0 0 0)).popIssue (.hnd 0) 4096 32 true true
      (fun q => parseBar q.2.1 == some (bar2 0 0 0) && (q.2.2.arrivalOf frec.who).isNone) = true :=
  ⟨sc_issues, by decide, by decide, by decide, by decide, by decide⟩
theorem test_proxy_arrival : (nx (exec (.barArriveCap 3 0) (withBar sc (bar2 0 0 0)))).map (fun s => s.rows.map (·.th.arrival)) =
    some [some { addr := 4096, gen := 0, proxy := true }] := by decide

/-- A lock dword held by a token. -/
def held (n : Nat) : State := s0.pokeBytes 4096 (leBytes 8 (2 ^ 63 + 2 ^ 59 + n))
theorem wit_locks : SyncIssues s0 false (.ctl 0) .conc tok row.th.getX [7, 3] ∧ classWaitOk .conc .conc true = true ∧
    seen s0.popIssue (.ctl 0) 4096 8 true true (fun q => leNat q.2.1 == 0 && decide (q.2.2.lockCount (.ctl 0) < 255)) = true ∧
    seen (held tok).popIssue (.ctl 0) 4096 8 true true (fun q => parseLock (leNat q.2.1) == some (.conc, tok)) = true ∧
    seen (held (tok + 1)).popIssue (.ctl 0) 4096 8 true true (fun q => parseLock (leNat q.2.1) == some (.conc, tok + 1) &&
      (q.2.2.steppingOf (.ctl 0)).isNone) = true ∧ s0.popIssue.releaseOk (.ctl 0) .dev = true ∧ s0.ramoOut (.ctl 0) = false :=
  ⟨sync_row false (r := row) (by decide) _, by decide, by decide, by decide, by decide, by decide, by decide⟩
theorem test_lkacq_free : xAfter (exec (.lkacq 1 3 .conc) s0) 1 = some 0 ∧ (nx (exec (.lkacq 1 3 .conc) s0)).map (·.rows.map (·.locks)) = some [1] := by
  decide
theorem test_lkrel : (nx (exec (.lkrel 3) (held tok))).map (·.dwordAt 4096) = some 0 := by decide

theorem wit_monitor : SyncIssues s0 false (.ctl 0) .conc tok row.th.getX [7, 3, 2] ∧ SyncIssues s0 true (.ctl 0) .conc tok row.th.getX [7, 3] ∧
    seen s0.popIssue (.ctl 0) 4096 8 false true (fun q => BitVec.ofNat 64 (leNat q.2.1) != row.th.getX 2 &&
      BitVec.ofNat 64 (leNat q.2.1) == row.th.getX 0 && (q.2.2.steppingOf (.ctl 0)).isNone) = true ∧
    seen (withBar s0 (bar2 1 0 0)).popIssue (.ctl 0) 4096 8 false true (fun q => leNat q.2.1 != 0 && (parseLock (leNat q.2.1)).isNone &&
      barHead (leNat q.2.1) == some (.conc, 1, 2)) = true :=
  ⟨sync_row false (r := row) (by decide) _, sync_row true (r := row) (by decide) _, by decide, by decide⟩
theorem test_clsq : xAfter (exec (.clsq 7 3) s0) 7 = some (16 + 12) ∧ xAfter (exec (.clsq 7 3) (held tok)) 7 = some (128 + 64 + 16) := by decide
theorem test_waitm_differs : xAfter (exec (.waitm 7 3 2 .conc) (s0.pokeBytes 4096 [6])) 7 = some 6 := by decide

/-- The bundle's row with a convergence register of the given members. -/
def cvrow (l : List Nat) : Row := { vrow with cv := vrow.cv.set 1 (some { members := l, signed := [], cls := .conc, load := none }) }
/-- A latch-load record at 4096: mlat a.0 i8. -/
def record : State := s0.pokeBytes 4096 (leBytes 8 ((encode (.mlat false false 0 0 .i8)).getD 0) ++ leBytes 8 4096 ++ leBytes 8 64)
theorem wit_convergence : s0.RowIssues false true row ∧ (row.th.getX 2).toNat < 8 ∧ Cls.conc ≠ .weak ∧ row.cv.getD 1 none = none ∧
    (row.th.getX 0).toNat = 0 ∧ (row.th.getX 3).toNat ≠ 0 ∧ (row.th.getX 3).toNat % 32 = 0 ∧
    seen record.popIssue (.ctl 0) 4096 32 false false (fun q => (parseIssue (dwordsOf 4 q.2.1)).isSome) = true ∧
    (sv (cvrow [3])).VpIssues (cvrow [3]) 0 bund { e := 3, idx := 0, fin := false, ops := [] } ∧ ((cvrow [3]).vp 3).sign = none ∧ (3 ∈ [3] ∧ 3 ∈ [3, 4] ∧ 3 ∉ ([] : List Nat)) ∧ classWaitOk (cvrow [3]).cls .conc true = true ∧
    (∀ e ∈ [3], e = 3 ∨ e ∈ ([] : List Nat) ∨ ((cvrow [3]).vp e).st = .stop) ∧
    (¬ ∀ e ∈ [3, 4], e = 3 ∨ e ∈ ([] : List Nat) ∨ ((cvrow [3, 4]).vp e).st = .stop) ∧ ((cvrow [3, 4]).vp 3).stepping = none :=
  ⟨rowOk_issues (by decide), by decide, by decide, by decide, by decide, by decide, by decide, by decide, ⟨by decide, by rfl, by rfl, by rfl⟩, by decide,
    by decide, by decide, by decide, by decide, by decide⟩
theorem test_cvsign_last : (nx (exec (.cvsign 1) (sv (cvrow [3])))).map (fun s => s.rows.map (fun r => (r.cv.getD 1 none, (r.vp 3).wait))) =
    some [(none, none)] := by decide
theorem wit_handler_waits : (sh).HandlerIssues handler := handler_issues

/-! Engines and remote operations. -/

/-- The slices with a shape record of `n` elements of i32 at `base` in v(`v`). -/
def withRecord (sl : Slice) (v base n : Nat) : Slice :=
  let sl := { sl with v := sl.v.setIfInBounds v { tag := .i64, hwm := 16, fill := .val 0, bytes := [] } }
  [(0, base), (1, 1 + 3 * 256), (2, n), (7, 4)].foldl (fun sl p => sl.setElem 32 v 64 p.1 p.2) sl
/-- Records of 4 elements at 4096 (v4) and 8192 (v6), and of 5 at 8192 (v8); v10 to v13 are index registers, v14 has no tag. -/
def shapes : Slice := withRecord (withRecord (withRecord { opened with vl := 4 } 4 4096 4) 6 8192 4) 8 8192 5 |>.setTag 10 .i32
/-- The device with them, about to issue a word of the row. -/
def se : State := st row shapes
/-- A row whose four classes are full. -/
def fullRow : Row := { row with cnt := [255, 255, 255, 255] }
/-- The shape of v4, as captured. -/
def shape4 : Shape := { base := 4096, rank := 1, fmt := .i32, ext := [4], str := [4] }
/-- The shape of v6. -/
def shape6 : Shape := { shape4 with base := 8192 }

theorem wit_streams : se.RowIssues false true row ∧ HoldsShape se row 4 false shape4 ∧
    (∃ ix, HoldsIdx se row 10 ix) ∧ shapeLimit se row 10 = true ∧
    errs (captureShape se row row.th 14 false) = true :=
  ⟨rowOk_issues (by decide), by unfold HoldsShape; decide +kernel, ⟨_, by decide +kernel, by decide +kernel, rfl⟩, by decide +kernel, by decide +kernel⟩
theorem wit_copies : (st fullRow shapes).RowIssues false true fullRow ∧ fullRow.full 0 = true ∧ row.full 0 = false ∧
    shapeLimit (st fullRow shapes) fullRow 4 = true ∧ HoldsShape se row 6 false shape6 ∧ (∃ x, HoldsShape se row 8 false x ∧ x.count ≠ shape4.count) ∧
    copyCheck shape6 shape4 = none ∧ shape6.count = shape4.count ∧ shape6.rank = shape4.rank ∧ shape6.ext.dropLast = shape4.ext.dropLast ∧
    [0, 0, 0, 0].length ≤ shape6.ext.getLastD 0 :=
  ⟨rowOk_issues (by decide), by decide, by decide, by decide +kernel, by unfold HoldsShape; decide +kernel,
    ⟨{ shape6 with ext := [5] }, by unfold HoldsShape; decide +kernel, by decide⟩, by decide, by decide, by decide, by decide, by decide⟩
theorem wit_watermarks : (row.th.getX 1).toNat % 8 ≠ 0 ∧ (row.th.getX 3).toNat % 8 = 0 ∧ row.wm.getD 1 none = none ∧
    (wrow .par).wm.getD 1 none = some { addr := 4096, cls := .par, cp := 3 } ∧
    okAnd (xlateN (st (wrow .par) slice).popIssue ((st (wrow .par) slice).acc (.ctl 0)) 4096 8 true true) (fun _ => true) = true := by decide
theorem wit_prefetch : shapeLimit (st row8 slice) row8 8 = false ∧ shapeLimit s0 row 4 = true := by decide
theorem test_sbind_count : (nx (exec (.sbind 2 4) se)).map (fun s => s.rows.map (fun r => (r.streams.getD 2 none).map (·.total))) = some [some 4] := by
  decide +kernel
theorem test_cpy_issued : (nx (exec (.cpy 6 4) se)).map (fun s => (s.ops.map (fun o => (o.cls, o.seq)), s.rows.map (·.cnt))) =
    some ([(some 0, 0)], [[1, 0, 0, 0]]) := by decide +kernel
theorem test_wmpub_issued : (nx (exec (.wmpub 1 5) (st (wrow .par) slice))).map (fun s => (s.ops.length, s.rows.map (·.cnt), s.rows.map (·.th.pc))) =
    some (1, [[0, 0, 0, 0]], [4]) := by decide

theorem wit_remote : row.full 3 = false ∧ fullRow.full 3 = true ∧ HoldsShape se row 6 true shape6 ∧ HoldsShape se row 4 false shape4 ∧
    (row.th.getX 3).toNat % 2 ^ 50 % 4 = 0 ∧ (row.th.getX 1).toNat % 2 ^ 50 % 8 ≠ 0 ∧ s0.popIssue.releaseOk (.ctl 0) .dom = true := by
  unfold HoldsShape; decide +kernel
theorem test_ramo_sent : (nx (exec (.ramo 7 3 2 { op := .add, word := true } .rlx) s0)).map (fun s => (s.mgmt.outbox.length, s.ops.length)) =
    some (1, 1) := by decide

/-- A partition in a span of two, with a collective descriptor for it at 4096. -/
def span (op : Nat) : State :=
  (s0.modPart 0 fun p => { p with desc := (p.desc.setIfInBounds 12 5).setIfInBounds 13 (BitVec.ofNat 64 (2 * 2 ^ 32)) }).pokeBytes 4096
    ([op + 3 * 2 ^ 16, 1, 8192, 12288, 5, 0, 0, 0].flatMap (leBytes 8))
theorem wit_collectives : (row.th.getX 3).toNat % 64 = 0 ∧ (span 0).row? 0 = some row ∧
    seen (span 0).popIssue (.ctl 0) 4096 64 false false (fun q => collOk q.2.2 0 (dwordsOf 8 q.2.1) && (dwordsOf 8 q.2.1).headD 0 % 2 ^ 8 != 4 &&
      q.2.2.ops.isEmpty) = true ∧
    seen (span 9).popIssue (.ctl 0) 4096 64 false false (fun q => !collOk q.2.2 0 (dwordsOf 8 q.2.1)) = true := by decide +kernel
theorem test_coll_rejected : xAfter (exec (.coll 7 3) (span 9)) 7 = some (-2) := by decide +kernel

/-! The matrix unit and blocks. -/

/-- The slices in matrix mode: v4 and v8 tagged bf16, v0 i32. -/
def mslice : Slice :=
  { slice with ew := 2, grp := 3, vl := 512
               v := ((((Vector.replicate 32 (VReg.fresh 0)).set 8 { VReg.fresh 0 with tag := .bf16 }).set 4 { VReg.fresh 0 with tag := .bf16 }).set 0
                 { VReg.fresh 0 with tag := .i32 }) }
/-- The row in matrix mode with padding and bands, a drain block armed. -/
def mfull : Row :=
  { row with mxon := true, zp := true, band := true, drain := some { header := 64, hd := probeHeader, words := [0], x := regs, sb := row.sb, rm := none } }
/-- Its matrix class full. -/
def mbusy : Row := { mfull with cnt := [0, 255, 0, 0] }
/-- The device in matrix mode. -/
def sm (r : Row) : State := st r mslice
theorem wit_matrix : s0.RowIssues false true row ∧ (sm mfull).RowIssues false true mfull ∧ (sm mbusy).RowIssues false true mbusy ∧ row.mxon = false ∧
    mfull.mxon = true ∧ mfull.drain ≠ none ∧ mrow.drain = none ∧ mfull.zp = true ∧ mfull.band = true ∧ mfull.full 1 = false ∧ mbusy.full 1 = true ∧
    mbusy.stepping = none ∧ (sm mrow).RowIssues false true mrow :=
  ⟨rowOk_issues (by decide), rowOk_issues (by decide), rowOk_issues (by decide), by decide, by decide, by decide, by decide, by decide, by decide,
    by decide, by decide, by decide, rowOk_issues (by decide)⟩
theorem wit_matrix_operands :
    operandOk ((sm mfull).slice mfull) (nregOf mfull.nregCode) 0 (((sm mfull).slice mfull).reg (0 : Reg).val).tag.width = true ∧
    (((sm mfull).slice mfull).reg (0 : Reg).val).tag.isInt = true ∧ matVec mfull ((sm mfull).slice mfull) 8 (fun t => t == .bf16 || t == .i8) = .ok .bf16 ∧
    matVec mfull ((sm mfull).slice mfull) 4 (·.isFloat) = .ok .bf16 ∧ matVec mfull ((sm mfull).slice mfull) 8 (·.isFloat) = .ok .bf16 := by decide
/-- The unit of the cluster held by a row. -/
def unitOf (q : Nat) (s : State) : State := s.modCluster 0 fun k => { k with mx := { k.mx with holder := some q } }
theorem wit_mxon : (stripClosed s0.popIssue row |>.cluster 0).mx.holder = none ∧ (stripClosed (unitOf 7 s0).popIssue row |>.cluster 0).mx.holder = some 7 ∧
    (unitOf 7 s0).RowIssues false true row ∧ row.id ∉ (stripClosed (unitOf 7 s0).popIssue row |>.cluster 0).mx.waiting ∧ canClose (unitOf 7 s0) row ∧
    row.nregCode = 3 ∧ row8.nregCode ≠ 3 ∧ ∀ k < 8, ((st row { slice with v := Vector.replicate 32 { VReg.fresh 0 with tag := .f32 } }).slice row
      |>.reg (24 + k)).tag = .f32 :=
  ⟨by decide, by decide, rowOk_issues (by decide), by decide, by unfold canClose; decide, by decide, by decide, by decide⟩
theorem wit_mxoff : (∀ o ∈ (sm mfull).ops, o.row = mfull.id → o.kind.isMatrix = true → o.stopped = true) ∧ ((sm mfull).cluster 0).mx.bandk = 0 := by decide
theorem test_mop_issued : (nx (exec (.mop false false 2) (sm mrow))).map (fun s => (s.ops.map (fun o => (o.kind, o.cls)), s.rows.map (·.cnt))) =
    some ([(.mop false false false 3, some 1)], [[0, 1, 0, 0]]) := by decide
theorem test_mxon_vgrp : (nx (exec (.mxon false false false) s0)).map (fun s => ((s.slice row).ew, (s.slice row).grp, (s.slice row).vl,
    ((s.slice row).reg 20).tag, (s.cluster 0).mx.holder)) = some (2, 3, 4096, .macc, some 0) := by decide +kernel

/-- A block of one word at 64 of the scratchpad: its header, LEN 1, and the word; the zero word is reserved. -/
def withBlock (hd w : Nat) (s : State) : State :=
  let s := s.pokeBytes (spadAt 0 + 64) (leBytes 4 hd ++ leBytes 4 w)
  { s with rows := s.rows.map fun r => { r with code := s.overlay 0 r.bind } }
/-- The row of a device, or another. -/
def rowOf (s : State) (r : Row) : Row := (s.row? r.id).getD r
/-- A drain header: LEN 1, no TFP. -/
def drainHd : Nat := 0xFC0001FE
/-- A block of one word for the row, and one for a drain. -/
def goodBlock : State := withBlock 0xFC0001FF ((encode (.vadd 1 2 (.vec 3) 0)).getD 0) s1
/-- The drain's. -/
def goodDrain : State := withBlock drainHd ((encode (.vfadd 0 24 (.vec 24) 0)).getD 0) (sm mrow)
theorem wit_blocks : s1.RowIssues true true row ∧ s0.RowIssues true true row ∧ row.blocks = [] ∧ row.th.pc + 4 * (16 : BitVec 21).signExtend 64 = 64 ∧
    okAnd (decodeBlock .vf goodBlock.popIssue (rowOf goodBlock row) 64) (fun q => q.2.length == 1) = true ∧ goodBlock.RowIssues true true (rowOf goodBlock row) ∧
    errs (decodeBlock .vf s1.popIssue row 64) = true ∧
    okAnd (decodeBlock .drain goodDrain.popIssue (rowOf goodDrain mrow) 64) (fun q => q.2.length == 1) = true ∧
    goodDrain.RowIssues false true (rowOf goodDrain mrow) ∧ errs (decodeBlock .drain (sm mrow).popIssue mrow 64) = true ∧
    (st lrow opened).RowIssues true true lrow ∧ lrow.blocks ≠ [] :=
  ⟨rowOk_issues (by decide), rowOk_issues (by decide), by decide, by decide, by decide +kernel, rowOk_issues (by decide +kernel), by decide +kernel,
    by decide +kernel, rowOk_issues (by decide +kernel), by decide +kernel, rowOk_issues (by decide), by decide⟩
theorem test_vf_queues : (nx (exec (.vf 16) goodBlock)).map
    (fun s => s.rows.map (fun r => (r.th.pc, r.blocks.map (fun b => (b.header, b.started))))) = some [(4, [(64, false)])] := by decide +kernel

/-! Lane words. -/

/-- A register of a tag, holding zeros. -/
def zreg (t : Tag) : VReg := { tag := t, hwm := 16, fill := .val 0, bytes := [] }
/-- The row's slices with a strip of four elements: v1 = 1, 0, 3, 7 and v2 = 5, 0, −8, 1 of i32, v3 i32, v4 = 1.0, v5 = 2.0 in bf16 and v6 bf16,
v8 i64 with v9, v10 i16, v12 f32, v14 i64 with v15; mask p1 holds element 3, p2 elements 0 and 2, and p3 is a list of element 1. -/
def lslice : Slice :=
  let sl : Slice := { opened with
    vl := 4
    v := ((((((((((((Vector.replicate 32 (zreg .none)).set 1 (zreg .i32)).set 2 (zreg .i32)).set 3 (zreg .i32)).set 4 (zreg .bf16)).set 5 (zreg .bf16)).set 6
      (zreg .bf16)).set 8 (zreg .i64)).set 9 (zreg .i64)).set 10 (zreg .i16)).set 12 (zreg .f32)).set 14 (zreg .i64)).set 15 (zreg .i64)
    m := ((opened.m.set 1 { list := false, set := [3] }).set 2 { list := false, set := [0, 2] }).set 3 { list := true, set := [1] } }
  [(1, 32, 0, 1), (1, 32, 2, 3), (1, 32, 3, 7), (2, 32, 0, 5), (2, 32, 2, 2 ^ 32 - 8), (2, 32, 3, 1), (4, 16, 0, 0x3F80), (4, 16, 3, 0x3F80),
    (5, 16, 0, 0x4000), (5, 16, 3, 0x7FC0)].foldl (fun sl p => sl.setElem 32 p.1 p.2.1 p.2.2.1 p.2.2.2) sl
/-- The device about to issue a word of the row's block, and a word of VP 3. -/
def sL : State := sl0 lrow lslice
/-- The same for the VP, its strip open. -/
def sV : State := sv vrow lslice
/-- The view of the row in the block. -/
def vL : LV := sL.lockLV lrow blk
/-- The view of the VP. -/
def vV : LV := sV.thrLV vrow 3
/-- The VP, in its bundle. -/
def mem3 : BMem := { e := 3, idx := 0, fin := false, ops := [] }
theorem lane_issues : sL.LanesIssue lrow blk ∧ sV.VpIssues vrow 0 bund mem3 := ⟨⟨by decide, by rfl, by rfl, by rfl⟩, ⟨by decide, by rfl, by rfl, by rfl⟩⟩
theorem lane_parity : vL.sl.parity = [] ∧ vV.sl.parity = [] ∧ lockstepOk vL ∧ vL.active 1 = [3] ∧ vL.active 0 = [0, 1, 2, 3] ∧ vV.active 0 = [3] ∧
    vV.active 2 = [] := ⟨by decide, by decide, ⟨by decide, by decide⟩, by decide, by decide, by decide, by decide⟩

/-- Both operands are read at the active elements, and the answers pass the test. -/
def two (v : LV) (va : Reg) (src : Src) (m : MaskReg) (p : Opd → Opd → LV → Bool) : Bool :=
  !(v.active m).isEmpty && okAnd ((v.noteMask m).vec va (v.active m)) fun q => okAnd (q.2.src src (v.active m)) fun z => p q.1 z.1 z.2
/-- The source is read at the active elements, and the answer passes the test. -/
def one (v : LV) (src : Src) (m : MaskReg) (p : Opd → LV → Bool) : Bool :=
  !(v.active m).isEmpty && okAnd ((v.noteMask m).src src (v.active m)) fun z => p z.1 z.2
theorem two_reads {v : LV} {va : Reg} {src : Src} {m : MaskReg} {p : Opd → Opd → LV → Bool} (h : two v va src m p = true) :
    ∃ a b u, ReadsTwo v va src m a b u ∧ p a b u = true := by
  simp only [two, Bool.and_eq_true, Bool.not_eq_true', List.isEmpty_eq_false_iff] at h
  obtain ⟨⟨a, t⟩, e, h2⟩ := okAnd_ok h.2
  obtain ⟨⟨b, u⟩, e2, h3⟩ := okAnd_ok h2
  exact ⟨a, b, u, ⟨h.1, t, e, e2⟩, h3⟩
theorem one_reads {v : LV} {src : Src} {m : MaskReg} {p : Opd → LV → Bool} (h : one v src m p = true) : ∃ b u, ReadsOne v src m b u ∧ p b u = true := by
  simp only [one, Bool.and_eq_true, Bool.not_eq_true', List.isEmpty_eq_false_iff] at h
  obtain ⟨⟨b, u⟩, e, h2⟩ := okAnd_ok h.2
  exact ⟨b, u, ⟨h.1, e⟩, h2⟩
/-- The operating type is `T`, and a destination of tag `D` takes a value at every active element. -/
def puts (T D : Tag) (vd : Reg) (x : Nat) (a b : Opd) (u : LV) : Bool :=
  opType (a.tag.getD .none) b == some T && okAnd (u.put vd D (u.acts.map fun e => (e, x))) fun _ => true

theorem wit_lane_no_element : vL.active 1 ≠ [] ∧ vV.active 2 = [] ∧ okAnd ((vV.noteMask 2).putMask 4 []) (fun _ => true) = true := by decide +kernel
theorem wit_lane_integer : (∃ a b u, ReadsTwo vL 1 (.vec 2) 0 a b u ∧ puts .i32 .i32 3 6 a b u = true) ∧
    (∃ a b u, ReadsTwo vV 1 (.vec 2) 0 a b u ∧ puts .i32 .i32 3 6 a b u = true) ∧
    (∃ a b u, ReadsTwo vL 1 (.scal 5) 1 a b u ∧ puts .i32 .i32 3 6 a b u = true) ∧
    (∃ b u, ReadsOne vL (.vec 1) 0 b u ∧ (b.tag == some .i32 && okAnd (u.putMask 4 [(0, true)]) fun _ => true) = true) :=
  ⟨two_reads (by decide +kernel), two_reads (by decide +kernel), two_reads (by decide +kernel), one_reads (by decide +kernel)⟩
theorem wit_lane_move : (∃ b u, ReadsOne vL (.vec 1) 0 b u ∧ okAnd (u.put 3 .i32 [(0, 1)]) (fun _ => true) = true) ∧
    (∃ b u, ReadsOne vL (.scal 1) 0 b u ∧ ((u.sl.reg (3 : Reg)).tag == .i32) = true) ∧
    okAnd ((vL.noteMask 1).vec 1 vL.acts) (fun q => okAnd (q.2.src (.vec 2) vL.acts) fun z => q.1.tag == some .i32 && z.1.tag == some .i32) = true ∧
    (vL.sl.reg (3 : Reg)).tag.isInt = true ∧ (vL.sl.reg (12 : Reg)).tag.isFloat = true :=
  ⟨one_reads (by decide +kernel), one_reads (by decide +kernel), by decide +kernel, by decide +kernel, by decide +kernel⟩
theorem wit_lane_fixed : (∃ a b u, ReadsTwo vL 1 (.vec 2) 0 a b u ∧ (puts .i32 .i64 8 6 a b u && okAnd (u.limits 8 64 u.acts) fun _ => true) = true) ∧
    (∃ a b u, ReadsTwo vL 1 (.imm 8) 0 a b u ∧ (a.tag == some .i32 && okAnd (u.put 10 .i16 [(0, 1)]) fun _ => true) = true) ∧
    okAnd ((vL.noteMask 0).vec 4 (vL.active 0)) (fun q => q.1.tag == some .bf16 && (q.2.sl.reg (3 : Reg)).tag == .i32) = true ∧
    operandOk vL.sl vL.nreg 10 Tag.bf16.width = true :=
  ⟨two_reads (by decide +kernel), two_reads (by decide +kernel), by decide +kernel, by decide +kernel⟩
theorem wit_lane_float : (∃ a b u, ReadsTwo vL 4 (.vec 5) 0 a b u ∧ (puts .bf16 .bf16 6 0x3F80 a b u && okAnd (u.vec 6 (vL.active 0)) fun q =>
      q.1.tag == some .bf16) = true) ∧
    (∃ a b u, ReadsTwo vV 4 (.vec 5) 0 a b u ∧ puts .bf16 .bf16 6 0x3F80 a b u = true) ∧
    (∃ b u, ReadsOne vL (.vec 4) 0 b u ∧ (b.tag == some .bf16 && okAnd (u.put 10 .i16 [(0, 1)]) fun _ => true) = true) :=
  ⟨two_reads (by decide +kernel), two_reads (by decide +kernel), one_reads (by decide +kernel)⟩
theorem wit_lane_masks : okAnd (((vL.noteMask 1).noteMask 2).putMask 4 (vL.acts.map fun e => (e, false))) (fun _ => true) = true ∧
    (vL.sl.mask 3).list = true ∧ (vL.sl.mask 1).list = false ∧ vL.thr = none ∧ vL.acts ≠ [] ∧
    okAnd ((vL.noteMask 1).put 3 .i32 (vL.acts.map fun e => (e, 1))) (fun _ => true) = true := by decide +kernel

/-- The row's block with stream 1 bound to four entries of i32. -/
def srow : Row :=
  { lrow with streams := lrow.streams.set 1 (some { shape := { base := 4096, rank := 1, fmt := .i32, ext := [4], str := [4] }, idx := none, total := 4
                                                    tag := .i32, got := [(0, .ok 1 0), (1, .ok 4 0), (2, .ok 4 0), (3, .ok 9 0)], fetched := 4, pos := 0, want := 0 }) }
/-- The view of that row. -/
def vS : LV := (sl0 srow lslice).lockLV srow blk
theorem wit_lane_permute : (∃ b u, ReadsOne vS (.stream 1) 0 b u ∧ (b.tag == some .i32 && okAnd (u.put 3 .i32 [(0, 1)]) fun _ => true) = true) ∧
    (∃ b u, ReadsOne vL (.vec 1) 0 b u ∧ (b.tag == some .i32 && !(b.as .i32 true).isEmpty && okAnd (u.put 3 .i32 [(0, 1)]) fun _ => true) = true) ∧
    (∃ b u, ReadsOne vL (.imm 1) 0 b u ∧ ((u.sl.reg (3 : Reg)).tag == .i32 && okAnd (u.put 3 .i32 [(0, 0)]) fun _ => true) = true) ∧
    (∃ a b u, ReadsTwo vL 1 (.vec 2) 2 a b u ∧ (a.tag == some .i32 && b.tag == some .i32 && okAnd (u.put 3 .i32 [(0, 1)]) fun _ => true) = true) ∧
    okAnd ((vL.noteMask 0).vecAt 1 (vL.active 0) []) (fun q => okAnd (q.2.src (.imm 1) (vL.active 0)) fun n => n.1.tag.isNone &&
      okAnd (n.2.putAt 0 3 (n.2.tagOf 1) [(1, 1), (2, 0)]) fun _ => true) = true ∧
    okAnd ((vL.noteMask 2).vecAt 1 (vL.active 2) []) (fun q => okAnd (q.2.putAt 0 3 (q.2.tagOf 1) [(0, 1), (1, 3)]) fun _ => true) = true ∧
    okAnd ((vL.noteMask 0).vec 1 (vL.active 0)) (fun q => okAnd (q.2.vecAt 2 (vL.active 0) [0]) fun o => opType (q.1.tag.getD .none) o.1 == some .i32 &&
      okAnd (o.2.putAt 0 3 .i32 [(0, 1)]) fun _ => true) = true ∧
    okAnd ((vL.noteMask 0).vec 1 (vL.active 0)) (fun q => okAnd (q.2.src (.imm 1) [(vL.active 0).headD 0]) fun o =>
      opType (q.1.tag.getD .none) o.1 == some .i32) = true ∧ vL.sl.vl ≠ 0 :=
  ⟨one_reads (by decide +kernel), one_reads (by decide +kernel), one_reads (by decide +kernel), two_reads (by decide +kernel), by decide +kernel,
    by decide +kernel, by decide +kernel, by decide +kernel, by decide⟩

/-- A row whose VP 3 shares its quad with VP 2, which stands at another word. -/
def qvrow : Row :=
  { row with vps := [(2, { VP.fresh with st := .thr }), (3, { VP.fresh with st := .thr, fetch := 64 })], bundles := [bund] }
theorem wit_quads : (sL.slice lrow).parity = [] ∧ lrow.threadLive = false ∧ (sL.lockLV lrow blk).active 0 ≠ [] ∧
    okAnd ((vL.noteMask 0).vecAt 1 (vL.active 0) []) (fun q => okAnd (q.2.put 3 (q.2.tagOf 1) [(0, 1)]) fun _ => true) = true ∧
    quadReady vrow (sV.vlmax vrow) bund mem3 = true ∧ quadReady qvrow ((sv qvrow lslice).vlmax qvrow) bund mem3 = false ∧
    (sv qvrow lslice).VpIssues qvrow 0 bund mem3 ∧ classWaitOk qvrow.cls qvrow.cls true = true ∧
    (sV.thrLV vrow 3).active 0 ≠ [] ∧
    okAnd (((sV.thrLV vrow 3).noteMask 0).vecAt 1 ((sV.thrLV vrow 3).active 0) []) (fun q => okAnd (q.2.put 3 (q.2.tagOf 1) [(3, 1)]) fun _ => true) = true :=
  ⟨by decide, by decide, by decide, by decide +kernel, by decide +kernel, by decide +kernel, ⟨by decide, by rfl, by rfl, by rfl⟩, by decide,
    by decide, by decide +kernel⟩
/-- A queue entry. -/
def ent : QEnt := { v := 0x80, tag := .i8 }
/-- The bundle at element 0, and the row with it and a seed. -/
def vrow0 : Row :=
  { row with vps := [(0, { VP.fresh with st := .thr, fetch := 64 })], bundles := [{ bund with mem := [{ mem3 with e := 0 }] }], seedQ := [ent] }
/-- The row whose element 3 has an entry, and one whose lane 4 is full. -/
def rrow : Row := { vrow with recvQ := [(3, ent)] }
/-- The receiving lane full. -/
def frow4 : Row := { vrow with recvQ := [(4, ent), (4, ent), (4, ent), (4, ent)] }
/-- The block with an entry on its way to element 3. -/
def qblk : LaneRun := { blk with sends := [(2, [ent])] }
/-- The row with it. -/
def qblkrow : Row := { row with blocks := [qblk] }
/-- A block whose header names flag 2 in SETB, and its row with that flag at 15. -/
def sblk : LaneRun := { blk with hd := { probeHeader with setb := 2 } }
/-- The row. -/
def sbrow : Row := { row with blocks := [sblk], cf := row.cf.set 2 15 }
theorem wit_queue_flag : (sl0 sbrow lslice).LanesIssue sbrow sblk ∧ setbFull (sl0 sbrow lslice) sblk.hd.setb (.ctl 0) = true ∧
    setbFull sL blk.hd.setb (.ctl 0) = false ∧ setbFull sV bund.hd.setb (.vp 0 3) = false :=
  ⟨⟨by decide, by rfl, by rfl, by rfl⟩, by decide, by decide, by decide⟩
theorem wit_queue_words : okAnd (laneQsnd (.vec 1) 0 vL) (fun _ => true) = true ∧ okAnd (laneQrcv 3 1 (sL.lockLV qblkrow qblk)) (fun _ => true) = true ∧
    (sV.slice vrow).maskBit 0 3 = true ∧ okAnd (vV.src (.vec 1) [3]) (fun q => q.2.pend.isNone) = true ∧ 4 ≤ laneEntries frow4 ((3 + 1) % frow4.w) ∧
    ¬ 4 ≤ laneEntries vrow ((3 + 1) % vrow.w) ∧ 3 + 1 ≠ sV.vlmax vrow ∧ ((sV.slice vrow).reg (3 : Reg)).tag = .i32 ∧
    (∀ p ∈ vrow.recvQ, p.1 ≠ 3) ∧ rrow.recvQ.find? (·.1 == 3) = some (3, ent) ∧ vrow0.seedQ = ent :: [] ∧
    okAnd (({ (sv vrow0 lslice).thrLV vrow0 0 with r := { vrow0 with seedQ := [] } } : LV).put 3 .i32 [(0, 1)]) (fun _ => true) = true ∧
    okAnd (({ vV with r := { rrow with recvQ := dropFirst 3 rrow.recvQ } } : LV).put 3 .i32 [(3, 1)]) (fun _ => true) = true ∧
    (sv frow4 lslice).row? 0 = some frow4 := by decide +kernel
/-- Element `e` of v`n`, 32 bits wide, after a step. -/
def el (o : Out) (n e : Nat) (t : Nat := 32) : Option Nat := (nx o).map fun s => (s.slice row).elem 32 n t e
/-- A block that sends v1 and receives into v3, at its first word; a row with it and a seed. -/
def pairblk : LaneRun :=
  { blk with words := [BitVec.ofNat 32 ((encode (.qsnd (.vec 1) 0)).getD 0), BitVec.ofNat 32 ((encode (.qrcv 3 0)).getD 0)] }
/-- The row. -/
def pairrow : Row := { row with blocks := [pairblk] }
/-- A block whose elements 0 to 2 have sent, and its row with a seed. -/
def sentblk : LaneRun := { blk with sends := [(0, [ent]), (1, [ent]), (2, [ent])] }
/-- The row. -/
def sentrow : Row := { row with blocks := [sentblk], seedQ := [ent] }
/-- The lane of element 1 full, and the drain queue full. -/
def fullrow (n : Nat) : Row := { lrow with recvQ := List.replicate n (1, ent), drainQ := List.replicate n ent }
theorem wit_queue_pairing : (sl0 pairrow lslice).LanesIssue pairrow pairblk ∧ pairrow.threadLive = false ∧ ((sl0 pairrow lslice).slice pairrow).vestart = 0 ∧
    ((sl0 pairrow lslice).slice pairrow).vl ≤ 2 ^ 15 ∧ pairblk.rcvd = [] ∧
    (pairblk.words.drop pairblk.idx).map (fun w => decodeWord w.toNat) = [some (.qsnd (.vec 1) 0)] ++ [some (.qrcv 3 0)] ∧
    operandOk ((sl0 pairrow lslice).slice pairrow) (nregOf pairrow.nregCode) (1 : Reg) 32 = true :=
  ⟨⟨by decide, by rfl, by rfl, by rfl⟩, by decide, by decide, by decide, by decide, by decide +kernel, by decide⟩
theorem wit_queue_entries : (sl0 sentrow lslice).LanesIssue sentrow sentblk ∧ ((sl0 sentrow lslice).lockLV sentrow sentblk).active 0 = [0, 1, 2, 3] ∧
    sentrow.seedQ.head? = some ent ∧ (∀ e ∈ [1, 2, 3], (FMap.getD sentblk.sends (e - 1) [])[FMap.getD sentblk.rcvd e 0]? = some ent) ∧
    lrow.seedQ.head? = none ∧ (sL.slice lrow).strip.nr = false ∧ vL.active 0 = [0, 1, 2, 3] :=
  ⟨⟨by decide, by rfl, by rfl, by rfl⟩, by decide, by decide, by decide, by decide, by decide, by decide⟩
theorem wit_queue_places : (sl0 (fullrow 4) lslice).LanesIssue (fullrow 4) blk ∧ okAnd ((vL.noteMask 0).src (.vec 1) (vL.active 0)) (fun q => q.2.pend.isNone) = true ∧
    ((fullrow 4).recvQ.filter fun q => q.1 % row.w == (0 + 1) % row.w).length = 4 ∧ ((fullrow 3).recvQ.filter fun q => q.1 % row.w == (0 + 1) % row.w).length = 3 ∧
    4 ≤ (fullrow 4).drainQ.length ∧ ¬ 4 ≤ (fullrow 3).drainQ.length ∧ 3 + 1 = (sL.slice lrow).vl :=
  ⟨⟨by decide, by rfl, by rfl, by rfl⟩, by decide +kernel, by decide, by decide, by decide, by decide, by decide⟩
theorem test_lock_qrcv : el (exec (.qrcv 3 0) (sl0 sentrow lslice)) 3 1 = some 0x80 ∧
    (nx (exec (.qrcv 3 0) sL)).map (fun s => s.cave.recs.map fun k => (k.code, k.f)) = some [(.qempty, 0)] := by decide +kernel
theorem test_lock_qover : (nx (exec (.qsnd (.vec 1) 2) (sl0 (fullrow 4) lslice))).map (fun s => s.cave.recs.map fun k => (k.code, k.f)) =
    some [(.qover, 0)] := by decide +kernel
theorem wit_destinations : 1 + 3 / 32 * (32 / 8) / 64 < 32 ∧ operandOk vL.sl vL.nreg 3 Tag.i32.width = true ∧ operandOk vL.sl vL.nreg 9 Tag.i64.width = false ∧
    (∀ n ∈ (List.range (gop vL.sl.ew vL.sl.grp Tag.i32.width)).map ((3 : Reg).val + ·), (vL.sl.reg n).tag = .i32) ∧
    (∃ n ∈ (List.range (gop vL.sl.ew vL.sl.grp Tag.bf16.width)).map ((3 : Reg).val + ·), (vL.sl.reg n).tag ≠ .bf16) ∧ vV.thr ≠ none ∧ vL.pend = none ∧ vV.pend = none ∧
    vL.r.threadLive = false ∧ ((sl0 { lrow with vps := vrow.vps } lslice).lockLV { lrow with vps := vrow.vps } blk).r.threadLive = true ∧
    (∀ j < 32 / 8, ∀ k < 32 / 8, byteLoc 32 1 (32 / 8) 2 j ≠ byteLoc 32 1 (32 / 8) 3 k) := by decide +kernel

theorem test_vadd_wraps : el (exec (.vadd 3 1 (.vec 2) 0) sL) 3 2 = some (2 ^ 32 - 5) ∧ el (exec (.vadd 3 1 (.vec 2) 0) sL) 3 3 = some 8 := by decide +kernel
theorem test_vadd_masked : el (exec (.vadd 3 1 (.vec 2) 1) sL) 3 2 = some 0 ∧ el (exec (.vadd 3 1 (.vec 2) 1) sL) 3 3 = some 8 := by decide +kernel
theorem test_vp_vsub : el (exec (.vsub 3 1 (.vec 2) 0) sV) 3 3 = some 6 ∧ el (exec (.vsub 3 1 (.vec 2) 0) sV) 3 2 = some 0 := by decide +kernel
theorem test_vcmp_signed : (nx (exec (.vcmpLtS 4 2 (.vec 1) 0) sL)).map (fun s => ((s.slice row).mask 4).set) = some [2, 3] := by
  decide +kernel
theorem test_vfadd : el (exec (.vfadd 6 4 (.vec 5) 0) sL) 6 0 16 = some 0x4040 := by decide +kernel
theorem test_vwmul : el (exec (.vwmulS 8 1 (.vec 2) 0) sL) 8 2 64 = some (2 ^ 64 - 24) := by decide +kernel
theorem test_vredsum : el (exec (.vredsum 3 1 (.vec 2) 0) sL) 3 0 = some 16 := by decide +kernel
theorem test_qswp : el (exec (.qswpH 3 1 0) sL) 3 2 = some 7 ∧ el (exec (.qbc 3 1 2 0) sL) 3 0 = some 3 := by decide +kernel
theorem test_qrcv_sign : (nx (exec (.qrcv 3 0) (sv rrow lslice))).map (fun s => (s.rows.map (·.recvQ), (s.slice row).elem 32 3 32 3)) = some ([[]], 0x80) := by
  decide +kernel

/-! Vector memory, per-VP memory and the ends of blocks. -/

/-- The device about to issue a word of the row with its strip open. -/
def sM : State := st row lslice
/-- The view a vector memory word works on. -/
def vM (s : State) (m : MaskReg := 0) : LV := (((s.popIssue.settle 0).ctlLV (((s.popIssue.settle 0).row? 0).getD row)).noteMask m)
/-- The plan of a word is made and passes the test. -/
def planOk (s : State) (mode : VMode) (f : Fmt) (T : Tag) (xb vx : Reg) (m : MaskReg) (p : VPlan → Bool) : Bool :=
  okAnd (vplan mode f T xb vx (vM s m) ((vM s m).active m) row.th) p
theorem wit_places : wholeBytes .i32 .native = some 4 ∧ okAnd (vL.vec 1 [0, 1]) (fun q => q.1.tag == some .i32) = true ∧ (row.th.getX 3).toNat % 32 = 0 ∧
    (row.th.getX 1).toNat % 8 ≠ 0 := by decide +kernel
theorem wit_vector_loads : sM.RowIssues false true row ∧ s0.RowIssues false true row ∧
    vlimits .unit .native (Fmt.native.resultTag ((sM.ctlLV row).tagOf 3)) 3 0 (sM.ctlLV row) = true ∧
    vlimits .unit .native (Fmt.native.resultTag ((s0.ctlLV row).tagOf 3)) 3 0 (s0.ctlLV row) = true ∧ (s0.slice row).strip.opn = false ∧
    vlimits .unit .native (Fmt.native.resultTag ((sM.ctlLV row).tagOf 9)) 9 0 (sM.ctlLV row) = false ∧ (sM.slice row).strip.opn = true ∧
    planOk sM .unit .native .i32 3 0 0 (fun p => !p.acts.isEmpty && p.bad.isNone && okAnd (manyLocs (sM.popIssue.settle 0)
      ((sM.popIssue.settle 0).acc (.ctl 0)) false false p.spots) (fun q => (p.spots.zip q.1).all (fun z => (q.2.spotPoison z.1 z.2).isNone) &&
        p.fmt == .native)) = true ∧
    (vM sM).sl.parity = [] ∧ mayTag (vM sM) 3 .i32 1 ∧ ((vM sM).tagOf 3).isArith = true ∧
    (vM (st row { lslice with vl := 0 })).active 0 = [] ∧
    planOk sM .unit .native .i32 5 0 0 (fun p => !p.acts.isEmpty && errs (planLocs (sM.popIssue.settle 0)
      ((sM.popIssue.settle 0).acc (.ctl 0)) false false p.spots p.bad)) = true ∧ ((sM.popIssue.settle 0).slice row).strip.nr = false :=
  ⟨rowOk_issues (by decide), rowOk_issues (by decide), by decide +kernel, by decide +kernel, by decide, by decide +kernel, by decide, by decide +kernel,
    by decide +kernel, .inl (by decide +kernel), by decide +kernel, by decide +kernel, by decide +kernel, by decide⟩
/-- The line at 4096 poisoned, a strip open. -/
def sMbad : State := { sM with mem := { sM.mem with poison := [64] } }
theorem wit_vector_poison : sMbad.RowIssues false true row ∧ planOk sMbad .unit .native .i32 3 0 0 (fun p => p.bad.isNone &&
      okAnd (manyLocs (sMbad.popIssue.settle 0) ((sMbad.popIssue.settle 0).acc (.ctl 0)) false false p.spots) (fun q =>
        ((p.spots.zip q.1)[0]?.bind fun z => q.2.spotPoison z.1 z.2) == some 4096)) = true ∧ ((sMbad.popIssue.settle 0).slice row).strip.nr = false :=
  ⟨rowOk_issues (by decide), by decide +kernel, by decide⟩
theorem test_vld_poisoned : (nx (exec (.vld 3 3 1 .native 0) sMbad)).map (fun s => s.cave.recs.map fun k => (k.code, k.f, k.addr1)) =
    some [(.memerr, 0, 4096)] := by decide +kernel
/-- The gather class of the row full. -/
def grow : Row := { row with cnt := [0, 0, 255, 0] }
theorem wit_far_gather : (st grow lslice).RowIssues false true grow ∧ 255 ≤ grow.cnt.getD 2 0 ∧ row.cnt.getD 2 0 < 255 ∧
    vlimits .indexed .native (Fmt.native.resultTag ((sM.ctlLV row).tagOf 3)) 3 1 (sM.ctlLV row) = true ∧
    planOk sM .indexed .native .i32 3 1 0 (fun p => !p.acts.isEmpty && okAnd (manyLocs (sM.popIssue.settle 0)
      ((sM.popIssue.settle 0).acc (.ctl 0)) false false p.spots) (fun q => (p.spots.zip q.1).all (fun z => (q.2.spotPoison z.1 z.2).isNone) &&
        q.1.length == 4)) = true ∧ mayTag (vM sM) 3 .i32 1 ∧ ((vM sM).tagOf 3).isArith = true :=
  ⟨rowOk_issues (by decide), by decide, by decide, by decide +kernel, by decide +kernel, .inl (by decide +kernel), by decide +kernel⟩
/-- The slices with a record of fp4b in v4, and i32 in v1. -/
def bshape : Slice :=
  (withRecord { opened with vl := 4 } 4 4096 128).setElem 32 4 64 1 (1 + 12 * 256) |>.setElem 32 4 64 7 1 |>.setTag 1 .i32
theorem wit_vector_stores : vlimits .unit .native ((sM.ctlLV row).tagOf 1) 1 0 (sM.ctlLV row) = true ∧
    okAnd (vplan .unit .native .i32 3 0 ((sM.popIssue.ctlLV row).noteMask 0) [0, 1, 2, 3] row.th) (fun p => !p.acts.isEmpty &&
      okAnd (manyLocs sM.popIssue (sM.popIssue.acc (.ctl 0)) true false p.spots) fun _ => p.v.sl.parity.isEmpty) = true ∧
    okAnd (vplan .strided .native .i32 3 3 ((sM.popIssue.ctlLV row).noteMask 0) [0, 1, 2, 3] row.th) (fun p => !p.acts.isEmpty &&
      p.spots.all (fun q => decide ((q.pieces.headD (0, 0)).1 % fmtBytes p.fmt .i32 = 0) ) && p.bad.isNone) = true ∧ storeKindOk .i32 .native = true ∧
    okAnd (vplan .unit .native .i32 5 0 ((sM.popIssue.ctlLV row).noteMask 0) [0, 1, 2, 3] row.th) (fun p => errs (planLocs sM.popIssue
      (sM.popIssue.acc (.ctl 0)) true false p.spots (p.storeBad false .i32))) = true ∧ (sM.slice row).strip.nr = false ∧
    parseShape ((List.range 16).map fun e => bshape.elem 32 4 64 e) false = some { shape4 with base := 4096, fmt := .fp4b, ext := [128], str := [1] } ∧
    okAnd (vplan .tensor .native .i32 0 4 ((st row bshape).ctlLV row) [0, 1] row.th) (fun p => !p.acts.isEmpty && p.fmt == .fp4b) = true := by
  decide +kernel
theorem test_vld : el (exec (.vld 3 3 0 .native 0) (sM.pokeBytes 4096 [1, 2, 3, 4, 0xFE, 0xFF, 0xFF, 0xFF])) 3 1 = some (2 ^ 32 - 2) := by decide +kernel
theorem test_vst_buffers : (nx (exec (.vst 1 3 0 .native 0) sM)).map (fun s => (s.byte 4096, s.rows.map (·.buf.length))) = some (0, [16]) := by decide +kernel

/-- v16 of i64, with the address 4096 plus 8 times the element. -/
def pslice : Slice :=
  let sl : Slice := { lslice with v := (lslice.v.set 16 (zreg .i64)).set 17 (zreg .i64) }
  [(0, 4096), (1, 4104), (2, 4112), (3, 4120)].foldl (fun sl p => sl.setElem 32 16 64 p.1 p.2) sl
/-- The block and the VP about to issue a per-VP word. -/
def sP : State := sl0 lrow pslice
/-- The VP. -/
def sQ : State := sv vrow pslice
/-- The state in which a per-VP word looks at its elements, of the block and of the VP. -/
def startP (nr : Bool) : State := memStart sP lrow nr none
/-- The VP's. -/
def startQ (nr : Bool) : State := memStart sQ vrow nr (some 3)
/-- The view of the block, of the VP. -/
def vP (nr : Bool) : LV := (startP nr).lockLV (((startP nr).row? 0).getD lrow) blk
/-- The view of the VP. -/
def vQ (nr : Bool) : LV := { (startQ nr).thrLV (((startQ nr).row? 0).getD vrow) 3 with sl := sQ.slice vrow }
/-- A per-VP word reads its addresses and translates them. -/
def pvOk (s1 : State) (v : LV) (t : Tid) (wr rel rd : Bool) : Bool :=
  !(v.active 0).isEmpty && okAnd ((v.noteMask 0).vec 16 (v.active 0)) fun q => q.1.tag == some .i64 && okAnd (q.2.src (.imm 0) (v.active 0)) fun z =>
    operandOk z.2.sl z.2.nreg 8 64 && operandOk z.2.sl z.2.nreg 10 64 && z.2.drain.isNone && z.2.pend.isNone && z.2.sl.parity.isEmpty &&
    okAnd (pvLocs (s1.acc t) 8 wr rel rd ((v.active 0).zip (List.zipWith (pvAddr z.1) q.1.vals z.1.vals)) s1) fun y =>
      y.2.releaseOk t .dev && !y.2.ramoOut t
theorem wit_per_vp : pvOk (startP false) (vP false) (.ctl 0) false false true = true ∧ pvOk (startP true) (vP true) (.ctl 0) true false false = true ∧
    pvOk (startP true) (vP true) (.ctl 0) true true true = true ∧ pvOk (startQ false) (vQ false) (.vp 0 3) false false true = true ∧
    pvOk (startQ true) (vQ true) (.vp 0 3) true false false = true ∧ pvOk (startQ true) (vQ true) (.vp 0 3) true true true = true ∧
    ((vP true).sl.reg (8 : Reg)).tag = .i64 ∧ PvOp.tagOk (.amo .add .dev .rlx) .i64 = true ∧ PvOp.tagOk (.amo .cas .dev .rlx) .i64 = true ∧
    (vP true).sl.parity = [] ∧ (vQ true).sl.parity = [] ∧ (startP true |>.slice lrow).strip.nr = true ∧ blk.hd.seta = 15 ∧ sP.flagCount (.ctl 0) 2 < 15 ∧ sQ.flagCount (.vp 0 3) 2 < 15 := by decide +kernel
theorem per_vp_issues : sP.LanesIssue lrow blk ∧ sQ.VpIssues vrow 0 bund mem3 := ⟨⟨by decide, by rfl, by rfl, by rfl⟩, ⟨by decide, by rfl, by rfl, by rfl⟩⟩
theorem test_vpst_travels : (nx (exec (.vpst 8 16 (.imm 0) 0) sP)).map (fun s => (s.byte 4096, s.ops.length, s.mem.writes.length)) = some (0, 1, 1) := by
  decide +kernel
theorem test_tsetf : (nx (exec (.tsetf 2) sP)).map (fun s => s.rows.map (fun r => r.cf.getD 2 0)) = some [1] := by decide +kernel

/-- Blocks at their end: one with an operation that is not flagged, and one whose header does not permit tf. -/
def eblk (ops : List Nat) (tfp : Bool) : LaneRun := { blk with ops := ops, hd := { probeHeader with tfp := tfp } }
/-- The row with such a block. -/
def erow (ops : List Nat) (tfp : Bool) : Row := { row with blocks := [eblk ops tfp] }
/-- The VP with an operation outstanding. -/
def vbusy : Row := { vrow with bundles := [{ bund with mem := [{ mem3 with ops := [5] }] }] }
theorem wit_block_ends : (sl0 (erow [5] true) lslice).LanesIssue (erow [5] true) (eblk [5] true) ∧ sL.LanesIssue lrow blk ∧
    (sl0 (erow [] false) lslice).LanesIssue (erow [] false) (eblk [] false) ∧ vL.active 1 ≠ [] ∧ (eblk [] false).hd.tfp = false ∧
    ((sl0 lrow { lslice with vl := 0 }).lockLV lrow blk).active 0 = [] ∧
    (leaveAll 0 15 [] 64 (vL.active 1) (sL.popIssue.putLV { vL.noteMask 1 with sl := { vL.sl with vestart := 0 } })).2 = [] ∧
    (sv vbusy lslice).VpIssues vbusy 0 { bund with mem := [{ mem3 with ops := [5] }] } { mem3 with ops := [5] } ∧ sV.VpIssues vrow 0 bund mem3 ∧
    (vrow.vp 3).stepping = none ∧ sV.rejoinAt vrow 64 = none ∧ (sV.slice vrow).maskBit 1 3 = true ∧ (sV.slice vrow).maskBit 2 3 = false :=
  ⟨⟨by decide, by rfl, by rfl, by rfl⟩, ⟨by decide, by rfl, by rfl, by rfl⟩, ⟨by decide, by rfl, by rfl, by rfl⟩, by decide, by decide, by decide, by decide +kernel,
    ⟨by decide, by rfl, by rfl, by rfl⟩, ⟨by decide, by rfl, by rfl, by rfl⟩, by decide, by decide, by decide, by decide⟩
/-- A row with the 64 slots of lane 3 taken. -/
def heldRow : Row :=
  { lrow with vps := (List.range 64).map fun k => (3 + 32 * (k + 1), { VP.fresh with st := .thr }) }
theorem wit_held : (leaveAll 0 15 [] 64 [3] (sl0 heldRow lslice).popIssue).2 = [3] := by decide +kernel
theorem test_tf_leaves : (nx (exec (.tf 16) (sL))).map (fun s => s.rows.map (fun r => ((r.vp 3).st, (r.vp 3).fetch, r.blocks.length))) = some [(.thr, 132, 0)] := by
  decide +kernel
theorem test_tstop : (nx (exec .tstop sV)).map (fun s => s.rows.map (fun r => ((r.vp 3).st, r.bundles.length))) = some [(.stop, 0)] := by decide +kernel

/-! Exceptions and the frozen-state words. -/

/-- The record of a VP, and of the row's thread with another waiting behind it. -/
def vpRec : FRec := { frec with who := .vp 0 3, party := 2, course := 2, f := 3 }
/-- The record of a strip that restarts, of one that is not restartable, and of an operation. -/
def course0 : FRec := { frec with party := 1, course := 0 }
/-- Not restartable, in a block. -/
def course1 (b : Bool) : FRec :=
  { frec with party := 1, course := 1, blk := b, f := 2, run := if b then some { blk with words := [0, 0] } else none }
/-- The VP's row under its record. -/
def fvrow : Row := { row with vps := [(3, { VP.fresh with st := .froz, frozen := some 9, fetch := 64 })] }
/-- The device with a further record for the thread. -/
def behind : State :=
  { sc with cave := { sc.cave with recs := [frec, { frec with id := 10, st := .behind }] } }
theorem frozen_issues (fr : FRec) (r : Row) (sl : Slice) : (sc fr r sl).HandlerIssues chandler := ⟨by rfl, by rfl⟩
theorem acts_on (fr : FRec) (r : Row) (sl : Slice) (h : (sc fr r sl).capOf chandler.slot 0 = some fr)
    (k : ((sc fr r sl).recRow fr).all (fun q => q.ctx.isSome) = true) : ActsOn (sc fr r sl) chandler 0 fr := by
  refine ⟨frozen_issues fr r sl, h, fun q e => ?_⟩
  rw [e] at k
  intro c
  rw [Option.all_some, c] at k
  cases k
theorem wit_frozen_words : s0.RowIssues false false row ∧ (sc).capOf chandler.slot 0 = some frec ∧ (sc).capOf chandler.slot 1 = none ∧
    (sc vpRec fvrow).capOf chandler.slot 0 = some vpRec ∧ vpRec.party ∉ [0, 1, 4] ∧ vpRec.course ∈ [2, 3] ∧
    (sc frec { frow with ctx := none }).recRow frec = some { frow with ctx := none } ∧ chandler.stepping = none ∧ ActsOn sc chandler 0 frec ∧
    (sc).recRow frec ≠ none ∧ (chandler.th.getX 1).toNat % 64 ≠ 0 ∧ frec.course ∉ [2, 3] ∧ (∀ q ∈ (sc).cave.recs, q.who = frec.who → q.st ≠ .behind) ∧
    behind.HandlerIssues chandler ∧ behind.capOf chandler.slot 0 = some frec ∧ (∃ q ∈ behind.cave.recs, q.who = frec.who ∧ q.st = .behind) :=
  ⟨rowOk_issues (by decide), by decide, by decide, by decide, by decide, by decide, by decide, by decide, acts_on _ _ _ (by decide) (by decide),
    by decide, by decide, by decide, by decide, ⟨by rfl, by rfl⟩, by decide, by decide⟩
theorem wit_frozen_reads : ActsOn (sc vpRec fvrow lslice) chandler 0 vpRec ∧ frec.party < 8 ∧ frec.course < 8 ∧ frec.level < 4 ∧ frec.sowner < 2 ^ 32 ∧
    frec.strip < 32 ∧ (chandler.th.getX 3).toNat % 64 = 0 ∧ (sc).mxBusy frec = false ∧ (sc).loadsOut frec = false ∧
    okAnd ((sc frec frow lslice).popIssue.storeRuns (.hnd 0) [(4096, frec.bytes), (4160, (sc frec frow lslice).ctlImage frow)]) (fun _ => true) = true ∧
    (sc).thread? frec.who = some frow.th ∧ (sc vpRec fvrow lslice).row? 0 = some fvrow ∧
    okAnd ((sc frec frow lslice).popIssue.storeRuns (.hnd 0) (regImage ((sc frec frow lslice).slice frow) 1 4096)) (fun _ => true) = true :=
  ⟨acts_on _ _ _ (by decide) (by decide), by decide, by decide, by decide, by decide, by decide, by decide, by decide, by decide, by decide +kernel,
    by decide, by decide, by decide +kernel⟩
theorem wit_frozen_runs : (∃ u, Stores (sc frec frow lslice).popIssue (.hnd 0) [(4096, frec.bytes), (4160, (sc frec frow lslice).ctlImage frow)] u) ∧
    (∃ u, Stores (sc frec frow lslice).popIssue (.hnd 0) (regImage ((sc frec frow lslice).slice frow) 1 4096) u) ∧
    (∃ bs u, Loads (.hnd 0) [(4096, 64)] (sc frec frow lslice).popIssue bs u) := by
  have h : okAnd ((sc frec frow lslice).popIssue.storeRuns (.hnd 0) [(4096, frec.bytes), (4160, (sc frec frow lslice).ctlImage frow)]) (fun _ => true) = true := by
    decide +kernel
  have k : okAnd ((sc frec frow lslice).popIssue.storeRuns (.hnd 0) (regImage ((sc frec frow lslice).slice frow) 1 4096)) (fun _ => true) = true := by
    decide +kernel
  have l : okAnd ((sc frec frow lslice).popIssue.loadRuns (.hnd 0) [(4096, 64)]) (fun _ => true) = true := by decide +kernel
  obtain ⟨a, ha, -⟩ := okAnd_ok h
  obtain ⟨b, hb, -⟩ := okAnd_ok k
  obtain ⟨c, hc, -⟩ := okAnd_ok l
  exact ⟨⟨a, storeRuns_stores ha⟩, ⟨b, storeRuns_stores hb⟩, ⟨c.1, c.2, loadRuns_loads _ hc⟩⟩
/-- An operation of the row. -/
def op5 (k : OpKind) : Op := { loadOp with kind := k }
/-- A record of a handler's thread, and the device with it and the handler frozen. -/
def hndRec : FRec := { frec with who := .hnd 0, party := 3 }
/-- The device with a remote atomic into x7 outstanding. -/
def scRamo : State := { sc with ops := [{ op5 (.ramo 7 .add true .rlx 4096 1 0) with stopped := false }] }
/-- The rejoin table of the cluster holds 64 as entry 4 of the row's image. -/
def rejoins (s : State) : State := s.modCluster 0 fun k => { k with rejoin := [(row.image, 4, 64)] }
/-- The row being stepped under the record. -/
def steprow : Row := { row with stepping := some 9 }
/-- The launch of the row runs. -/
def launchOf (unfit : Option Nat) (blocking : Option (Nat × Nat)) : Launch :=
  { id := 0, part := 0, q := 0, seq := 0, image := 65536, args := 0, teams := 1, mix := [(0, 1)], done := 0, doneEv := 0, next := 0, placed := [], die := none
    since := 0, unfit := unfit, blocking := blocking, killed := 0, forced := false, gwct := 0, late := [], rejected := false }
theorem wit_step_begins : (sc).fr? 9 = some frec ∧ ((sc).resume frec false).row? 0 ≠ none ∧ (sc vpRec fvrow).fr? 9 = some vpRec ∧
    (((rejoins (sc { vpRec with resume := 64 } fvrow)).resume { vpRec with resume := 64 } false).row? 0).map (fun p => ((p.vp 3).st, (p.vp 3).stepping)) =
      some (.park 4, none) ∧
    (((sc vpRec fvrow).resume vpRec false).row? 0).map (fun p => (p.vp 3).st) = some .thr ∧ (sc hndRec).fr? 9 = some hndRec ∧
    (sc hndRec).hnd? 0 = some chandler ∧ (sc frec steprow).row? 0 = some steprow ∧ steprow.stepVf = none := by decide +kernel
theorem wit_kill : ((sc).cave.recs.any fun q => tidRow q.who == some 0) = true ∧ (sc).row? 0 = some frow ∧
    ({ sc with engine := { (sc).engine with launches := [launchOf none none] } } : State).engine.launches.map (·.id) = [frow.launch] ∧
    (∀ o ∈ scRamo.ops, o.row = 0 → ∀ p ∈ o.flags, tidRow p.1 = some 0) ∧ (fvrow.vp 3).stepping = none ∧ (sc vpRec fvrow).row? 0 = some fvrow := by
  decide +kernel
theorem wit_settled : ¬ scalarSettled scRamo frec 7 ∧ scalarSettled scRamo frec 8 ∧ chandler.stepping = none ∧ registersSettled sc frec False :=
  ⟨fun h => h 0 rfl _ (List.mem_singleton_self _) rfl rfl _ _ _ _ _ _ rfl,
    fun _ _ o ho _ _ _ _ _ _ _ _ h => by
      have k : o = { op5 (.ramo 7 .add true .rlx 4096 1 0) with stopped := false } := List.mem_singleton.1 ho
      rw [k] at h
      exact absurd (OpKind.ramo.inj h).1 (by decide), by decide, ⟨by decide, False.elim⟩⟩
theorem test_frozen_step : (let u := (sc frec steprow).goTo (.ctl 0) 8
    (u.rows.map fun r => (r.stepping, r.th.frozen, r.th.pc), u.cave.recs.map fun k => (k.code, k.resume))) = ([(none, some 9, 8)], [(.step, 8)]) := by
  decide +kernel
theorem test_fkill : (nx (exec (.fkill 0) sc)).map (fun s => (s.rows.length, s.cave.recs.length, s.handlers.map (·.k.head?))) = some (0, 0, [some none]) := by
  decide +kernel
theorem test_frdx_waits : (nx (exec (.frdx 7 0 7) scRamo)).map (fun s => s.handlers.map (·.th.pc)) = some [chandler.th.pc] := by decide +kernel
/-- An image at 4096, read by fwrv. -/
def imgOk (bs : List Byte) (n : Nat) (p : Img → Bool) : Bool :=
  okAnd (((sc frec frow lslice).pokeBytes 4096 bs).popIssue.loadRuns (.hnd 0) [(4096, 64)]) fun q => (parseImg q.1).ok frow n && p (parseImg q.1)
theorem wit_frozen_writes : imgOk ((sc frec frow lslice).ctlImage frow) 0 (fun i => i.kind == 2) = true ∧
    imgOk (dwordBytes (imgHead 32 16 false 1 0 5 :: List.replicate 7 0)) 1 (fun i => i.kind == 0 && (Tag.ofCode i.tag).isSome) = true ∧
    imgOk (dwordBytes (imgHead 32 0 false 1 1 0 :: List.replicate 7 0)) 1 (fun i => i.kind == 1) = true ∧
    okAnd ((sc frec frow lslice).popIssue.loadRuns (.hnd 0) [(4096, 64)]) (fun q => !(parseImg q.1).ok frow 1) = true ∧
    okAnd ((sc frec frow lslice).popIssue.loadRuns (.hnd 0) ((List.range 32).map fun l => (4096 + 64 + 64 * l, 64))) (fun _ => true) = true := by
  decide +kernel
theorem wit_resume : (sc).row? 0 = some frow ∧ (∀ q ∈ (sc course0).cave.recs, q.who = course0.who → q.st ≠ .behind) ∧ course0.course = 0 ∧
    (course1 true).course = 1 ∧ (course1 true).blk = true ∧ (∃ k, (course1 true).run = some k ∧ k.idx + 1 < k.words.length) ∧ (course1 false).blk = false ∧
    (sc vpRec fvrow).row? 0 = some fvrow ∧ vpRec.run = none ∧ (sh).hnd? 0 = some handler := by decide
/-- A record of a copy that stopped, of a VP frozen in its block, and of a thread whose block goes on. -/
def copyRec : FRec := { frec with party := 4, course := 3, op := some 5 }
/-- The VP's. -/
def midRec : FRec := { vpRec with header := 64, run := some blk, resume := wordAddr 64 0 }
/-- The thread's. -/
def staysRec : FRec := { frec with header := 64, resume := frec.pc }
theorem wit_resume_parts : (st row slice fun s => { s with ops := [copyOp 5] }).op? 5 = some (copyOp 5) ∧ (copyOp 5).kind.cls = some 0 ∧ copyRec.op = some 5 ∧
    (sc midRec fvrow).row? 0 = some fvrow ∧ midRec.run = some blk ∧ (∃ n < 32, midRec.resume = wordAddr midRec.header n) ∧
    (staysRec.course ∉ [0, 1, 3] ∧ staysRec.header ≠ 0 ∧ lrow.blocks ≠ [] ∧ staysRec.resume = staysRec.pc) := by decide +kernel
/-- The VP's record, RESUME an address that the rejoin table holds. -/
def parkRec : FRec := { vpRec with resume := 64 }
theorem wit_resume_parks : (rejoins (sc parkRec fvrow)).rejoinAt fvrow parkRec.resume = some 4 ∧ (sc parkRec fvrow).rejoinAt fvrow parkRec.resume = none ∧
    parkRec.run = none ∧ (rejoins (sc parkRec fvrow)).row? 0 = some fvrow := by decide +kernel
theorem test_resume_parks : ((rejoins (sc parkRec fvrow)).resume parkRec false).rows.map (fun r => (r.vp 3).st) = [.park 4] := by decide +kernel
theorem test_fresume : (nx (exec (.fresume 0) sc)).map (fun s => (s.cave.recs.length, s.rows.map (fun r => (r.th.frozen, r.th.pc)), s.handlers.map (·.k))) =
    some (0, [(none, 4)], [[none, none, none, none]]) := by decide +kernel
theorem test_frdx : (nx (exec (.frdx 7 0 3) sc)).map (fun s => s.handlers.map (·.th.getX 7)) = some [4096] := by decide +kernel

/-- The fault queue of the row's die full. -/
def crowded (s : State) : State := { s with cave := { s.cave with queue := s.cave.queue.set 0 (List.range 512) } }
/-- The row with its rind, and with a buffered byte. -/
def rindrow : Row := { brow with rind := some { pc := 8, x := regs, vl := 4, tags := Vector.replicate 32 .none, ew := 2, grp := 0, m := lslice.m, seedQ := [], drainQ := [], recvQ := [], spos := List.replicate 8 0 } }
/-- Slices whose strip is not restartable. -/
def nrslice : Slice := { lslice with strip := { opn := true, nr := true, cause := 3 } }
theorem wit_exceptions : s0.row? 0 = some row ∧ row.stepping = none ∧ row.th.frozen = none ∧ (crowded s0).queueFull 0 = true ∧ s0.queueFull 0 = false ∧
    (s0.stripOf row).opn = false ∧ ((st rindrow opened).stripOf rindrow).opn = true ∧ ((st rindrow opened).stripOf rindrow).nr = false ∧
    rindrow.rind ≠ none ∧ ((st brow nrslice).stripOf brow).nr = true ∧ brow.buf ≠ [] ∧ (vrow.vp 3).stepping = none ∧ (vrow.vp 3).frozen = none ∧
    (sh).hnd? 0 = some handler ∧ handler.stepping = none ∧ handler.th.frozen = none ∧ busy.op? 5 = some loadOp ∧ busy.row? 0 = some row := by decide +kernel
/-- The slices with v3's tag changed in the strip, and a load of it. -/
def retagged : State := { st rindrow (opened.setTag 3 .f32) with ops := [loadOp] }
theorem test_restart_cancels : (let s := retagged.raiseRow 0 { code := .illop, pc := 12 }
    (s.ops.length, ((s.slice row).reg 3).tag, (s.slice row).vdirty.getLsbD 3)) = (0, .none, true) := by decide +kernel
theorem test_restart : (let s := (st rindrow opened).raiseRow 0 { code := .illop, pc := 12 }
    (s.rows.map (fun r => (r.th.pc, r.buf.length, r.rind.isSome)), (s.slice row).vl, s.cave.recs.map (fun k => (k.party, k.course, k.resume)))) =
    ([(8, 0, true)], 4, [(1, 0, 8)]) := by decide +kernel

/-! Events of the sequencer, of waits, of handlers and of residence. -/

/-- The state with the arguments of an event. -/
def ar (a : EvArg) (s : State) : State := { s with clock := { s.clock with arg := a } }
/-- The device with a row, its slices holding lanes' values. -/
def sR (r : Row) (sl : Slice := lslice) : State := st r sl
/-- The row waiting. -/
def waits (w : Wait) (r : Row := row) : Row := { r with th := { r.th with wait := some w } }
/-- A block that has not started, and one whose header waits for a flag. -/
def newBlk : LaneRun := { blk with started := false }
/-- Waiting for flag 2. -/
def waitBlk : LaneRun := { newBlk with hd := { probeHeader with wait := 4 } }
/-- The row whose block has elements held at its end. -/
def hrow : Row := { lrow with held := some { elems := [3], target := 64, since := 0, run := blk } }
/-- All slots of lane 3 taken. -/
def hfull : Row := { hrow with vps := heldRow.vps }
/-- A row whose VP 3 waits at address 64. -/
def trow : Row := { row with vps := [(3, { VP.fresh with st := .thr, fetch := 64 })] }
/-- The device, with a thread block at 64. -/
def sT : State := withBlock 0xFC0001FF ((encode (.vadd 1 2 (.vec 3) 0)).getD 0) (sR trow)
theorem wit_sequencer : (ar { a := 0 } (sR { row with blocks := [newBlk] })).row? 0 = some { row with blocks := [newBlk] } ∧ newBlk.started = false ∧
    (∀ n < 12, newBlk.hd.wait.getLsbD n = true → row.cf.getD n 0 = 0) ∧ row.vvalid = true ∧ row.ctx ≠ none ∧
    (∃ n < 12, waitBlk.hd.wait.getLsbD n = true ∧ flagged.cf.getD n 0 ≠ 0) ∧ lrow ∈ (sR lrow).rows ∧ (sR lrow).lanesReady lrow = true ∧
    vrow.bundles[0]? = some bund ∧ (sR vrow).bundleReady vrow bund = true ∧ (sR row).ctlReady row = true ∧
    (sR { row with promo := some (3, 0) }).ctlReady { row with promo := some (3, 0) } = true ∧ (∀ h ∈ (sR row).handlers, h.cluster = 0 → h.ready < 15) ∧
    row.th.wait = none ∧ row.th.frozen = none ∧ (waits .mxon).th.wait ≠ none ∧ (sh).hnd? 0 = some handler ∧ (sh.cluster 0).stoppedHot = false ∧
    okAnd (decodeBlock .thread sT (rowOf sT trow) 64) (fun q => q.2.length == 1) = true ∧ trow.bundles.length < 8 ∧ trow.bundleOf 3 = none ∧
    (sR hrow).heldReady 0 = true ∧ (sR hfull).heldReady 0 = false ∧ (0 : Nat) + 4096 ≤ ({ (sR hrow) with clock := { (sR hrow).clock with cycle := 5000 } } : State).clock.cycle ∧
    (sR hrow).clock.cycle < 0 + 4096 := by decide +kernel
/-- A block queued behind others, and its row. -/
def lateBlk : LaneRun := { newBlk with hd := Header.unread, words := [], late := true }
/-- The device with it, its block at 64 or nothing there. -/
def sLate (there : Bool) : State := if there then withBlock 0xFC0001FF ((encode (.vadd 1 2 (.vec 3) 0)).getD 0) (sR { row with blocks := [lateBlk] })
  else sR { row with blocks := [lateBlk] }
theorem wit_sequencer_late : (let s := sLate true
      okAnd (decodeBlock .vf s (rowOf s row) 64) (fun q => decide (0 < q.2.length) && okAnd (s.blockSends (rowOf s row)
        { lateBlk with hd := q.1, words := q.2, late := false }) fun _ => true) && (rowOf s row).blocks == [lateBlk] && (rowOf s row).vvalid &&
        (rowOf s row).ctx.isSome && (rowOf s row).th.frozen.isNone && (rowOf s row).th.wait.isNone) = true ∧
    errs (decodeBlock .vf (sLate false) (rowOf (sLate false) row) 64) = true ∧
    okAnd ((sR { row with blocks := [newBlk] }).blockSends { row with blocks := [newBlk] } newBlk) (fun _ => true) = true := by decide +kernel
theorem wit_regroup : (let r := rowOf sT trow
      sT.runs r && r.vvalid && r.preempt.isNone && (r.vps.all fun q => q.2.mid.isNone && q.2.fetch == 64 && q.2.st == .thr && q.2.wait.isNone &&
        q.2.frozen.isNone && (r.bundleOf q.1).isNone && q.2.flags.all (· == 0)) && !r.vps.isEmpty) = true ∧
    (let s := sR row; decide (s.clock.cycle ≤ 4 * ((s.clock.cycle + 2) / 4)) && decide ((s.cluster 0).regroup ≤ (s.clock.cycle + 2) / 4)) = true ∧
    4 * ((1 + 2) / 4) < 1 ∧ (0 + 2) / 4 < 1 := by decide +kernel
/-- A row that has issued a word in this tick by both pipelines, ready. -/
def both : Row := { row with issued := (1, 1), promo := some (3, 7) }
theorem wit_issued : both.ready = true ∧ (sR both).row? 0 = some both ∧ both.issued.1 ≤ both.issued.2 ∧
    (sR { both with blocks := [blk] }).lanesReady { both with blocks := [blk] } = true := by decide
theorem test_tick_issued : (nx (exec .escapementTick (sR both))).map (fun s => s.rows.map fun r => (r.starve, r.issued)) = some [(2, (0, 0))] := by decide
theorem test_tick : (nx (exec .escapementTick s0)).map (fun s => (s.clock.et, s.clock.cycle, s.rows.map (·.starve))) = some (11, 3, [3]) := by decide
theorem test_issue : (nx (exec .scalarIssueCycle { s0 with clock := { s0.clock with issue := [] } })).map (·.clock.issue) = some [.ctl 0] := by
  decide +kernel

/-- A barrier group waiting for time 20. -/
def groupAt (n : Nat) : State := { s0 with mem := { s0.mem with groups := [{ time := n, threads := [.ctl 0] }] } }
/-- An event request of the row at 4096. -/
def evq (n : Nat) : State := { s0.pokeBytes 4096 [n] with mem := { (s0.pokeBytes 4096 [n]).mem with eventQ := [(4096, .ctl 0)] } }
/-- The watermark at `n`. -/
def wmAt (n : Nat) : State := (sR (waits (.setvlw 7 4 1) (wrow .par))).pokeBytes 4096 [n]
/-- The word at which a VP of the bundle waits. -/
def midW : Mid := { header := 64, hd := probeHeader, words := [BitVec.ofNat 32 ((encode (.qrcv 3 0)).getD 0)], idx := 0, ops := [], stale := false }
/-- The VP waiting at its quad, alone in it. -/
def quadrow : Row := { vrow with vps := [(3, { VP.fresh with st := .thr, fetch := 64, wait := some .quad, mid := some midW })] }
/-- The VP waiting at a queue. -/
def queuerow : Row := { vrow with vps := [(3, { VP.fresh with st := .thr, fetch := 64, wait := some .queue, mid := some midW })], recvQ := [(3, ent)] }
theorem wit_vjoin_held : (st { waits (.vjoin 7 4 5) with blocks := [blk] } { slice with vl := 0 }).missing (waits (.vjoin 7 4 5)) 4 = 0 ∧
    ({ waits (.vjoin 7 4 5) with blocks := [blk] } : Row).blocks ≠ [] := by decide
theorem wit_wait_ends : (sR (waits (.vjoin 7 4 0) tlive)).missing (waits (.vjoin 7 4 0) tlive) 4 = 1 ∧
    (st (waits (.vjoin 7 4 5)) slice).missing (waits (.vjoin 7 4 5)) 4 = 0 ∧ (0 : Nat) ≤ (sR row).clock.cycle ∧ (sR row).clock.cycle < 5 ∧
    seen (wmAt 7) (.ctl 0) 4096 8 false true (fun q => leNat q.2.1 == 7) = true ∧
    seen (wmAt 6) (.ctl 0) 4096 8 false true (fun q => decide (leNat q.2.1 < 3 + 4)) = true ∧ (wmAt 7).runs (waits (.setvlw 7 4 1) (wrow .par)) = true ∧
    (sR queuerow).queueGo queuerow 3 = true ∧ (sR quadrow).quadGo quadrow 0 = [3] ∧ (groupAt 10).mem.groups[0]? = some { time := 10, threads := [.ctl 0] } ∧
    (10 : Nat) ≤ (groupAt 10).clock.et ∧ (groupAt 20).clock.et < 20 ∧ (evq 1).mem.eventQ.find? (fun w => w.1 == 4096) = some (4096, .ctl 0) ∧
    (evq 0).dwordAt 4096 = 0 ∧ (evq 1).dwordAt 4096 ≠ 0 := by decide +kernel
theorem test_evwait_grant : (nx (exec .evwaitGrant (ar { a := 4096 } (evq 3)))).map (fun s => (s.dwordAt 4096, s.mem.eventQ.length)) = some (2, 0) := by
  decide +kernel

/-- A record of the row's thread waiting in its die's queue; the handler table of the partition is at 8192, its entry for ILLOP an address. -/
def queued (level entry : Nat) : State :=
  let s := (s0.pokeBytes (8192 + 8 * Code.illop.num) (leBytes 8 entry)).modPart 0 fun p => { p with desc := p.desc.setIfInBounds 9 8192 }
  { s with cave := { s.cave with recs := [{ frec with st := .queued, level := level }], queue := s.cave.queue.set 0 [9] } }
theorem wit_handlers : s0.nextRec 0 = none ∧ (queued 0 64).nextRec 0 = some { frec with st := .queued } ∧
    (queued 2 64).nextRec 0 = some { frec with st := .queued, level := 2 } ∧
    okAnd ((queued 0 64).handlerEntry { frec with st := .queued }) (fun q => q.1 == 64 && canonical q.1) = true ∧
    errs ((queued 0 0).handlerEntry { frec with st := .queued }) = true ∧ (crowded s0).queueFull 0 = true ∧ s0.queueFull 0 = false ∧
    ({ busy with cave := { busy.cave with heldOps := [{ frec with op := some 5 }] } } : State).cave.heldOps.find? (fun k => dieOf k.cluster == 0) =
      some { frec with op := some 5 } ∧ busy.op? 5 = some loadOp ∧ (sR (waits .faultHeld)).waitOf (.ctl 0) = some .faultHeld := by decide +kernel
theorem test_spawn : (nx (exec .handlerSpawn (queued 0 64))).map (fun s => s.handlers.map (fun h => ([h.th.pc, h.th.getX 10, h.th.getX 13], h.k.head?))) =
    some [([64, BitVec.ofNat 64 Code.illop.num, 1], some (some 9))] := by decide +kernel

/-- A row that is not resident. -/
def away : Row := { row with ctx := none, away := some 1 }
/-- A row asked to stop. -/
def stopping (t : Nat) : Row := { row with preempt := some t }
/-- A row starved, and one promoted. -/
def starved : Row := { row with cls := .conc, starve := 2 ^ 20 }
/-- A promoted row that is not resident. -/
def promoted (n : Nat) (ctx : Option Nat) : Row := { row with id := 7, promo := some (1, n), ctx := ctx }
/-- Late at its stop point, a strip open. -/
def lateState : State := { sR (stopping 0) with clock := { (sR (stopping 0)).clock with cycle := 5000 } }
/-- Sixteen resident rows, and a promoted one that is not. -/
def fullCluster : State :=
  { s0 with rows := promoted 0 none :: (List.range 16).map fun k => { row with id := 100 + k, launch := 100 + k, team := 100 + k, ctx := some k } }
theorem wit_residence : (sR away).row? 0 = some away ∧ row.ctx ≠ none ∧ (∃ q ∈ (s0.teamOf row).filter (·.ctx.isSome), q.preempt = none) ∧
    (∀ q ∈ ((st (stopping 0) slice).teamOf (stopping 0)).filter (·.ctx.isSome), q.preempt ≠ none ∧ (st (stopping 0) slice).atStop q = true) ∧
    (∃ q ∈ lateState.teamOf (stopping 0), (lateState.stripOf q).opn = true ∧ lateState.stopLate q = true) ∧
    (∀ q ∈ (lateState.teamOf (stopping 0)).filter (·.ctx.isSome), q.preempt ≠ none ∧ lateState.atStop q = true) ∧
    ((sR away).cluster 0).outOfService = false ∧ ((sR away).cluster 0).stoppedHot = false ∧ (sR away).teamOf away = [away] ∧ (sR away).holderFirst away = false ∧
    (resumeFit ((sR away).occNow 0 0) away none).isSome = true ∧ starved.cls = .conc ∧ 2 ^ 20 ≤ starved.starve ∧ starved.promo = none ∧
    row.starve < 2 ^ 20 ∧ (promoted 4096 none).promo = some (1, 4096) ∧ (promoted 5 (some 0)).promo = some (1, 5) ∧
    (fullCluster.occNow 0 0).ctx = [] ∧ (∀ q ∈ fullCluster.rows, q.cluster = 0 → q.preempt = none) ∧ (fullCluster.victim 0).isSome = true ∧
    (fullCluster.preemptRequest 100).isSome = true ∧ (sR away).promotedFirst away = false ∧ (sR away).unplacedFirst away = false ∧
    (fullCluster.victim 0).map (fun q => decide (fullCluster.row? q.id = some q)) = some true := by decide +kernel

/-! Events of operations, translation and the matrix unit. -/

/-- The device with it, and its event due. -/
def sO (k : OpKind) (f : State → State := id) : State := ar { a := 5 } (st row lslice fun s => f { s with ops := [op5 k] })
/-- A write of operation 5 on its way. -/
def sent : PWrite := { id := 3, thread := .ctl 0, cluster := 0, part := 0, scalar := false, op := some 5, items := [] }
/-- The dword of a watermark. -/
def mark : List Loc := locRun { key := 4096, enc := 0, home := 0 } 8
/-- A shape at an address that is not mapped. -/
def shapeX : Shape := { shape4 with base := 2 ^ 40 }
/-- A row with a stream that can fetch, of four elements at 4096. -/
def strow : Row :=
  { row with streams := row.streams.set 1 (some { shape := shape4, idx := none, total := 4, tag := .i32, got := [], fetched := 0, pos := 0, want := 0 }) }
/-- Landed bytes of a barrier at 4096. -/
def landed (g pending : Nat) : State :=
  let s := withBar s0 (bar2 1 0 pending)
  { s with mem := { s.mem with landing := [{ bar := { key := 4096, enc := 0, home := 0 }, part := 0, gwct := g, n := 4 }] } }
theorem wit_operations : (sO loadOp.kind).op? 5 = some loadOp ∧ (sO loadOp.kind).row? 0 = some row ∧ row.ctx ≠ none ∧ row.vvalid = true ∧
    (∀ w ∈ (sO (.vpst [3])).mem.writes, w.op ≠ some 5) ∧
    (∃ w ∈ (sO (.vpst [3]) fun s => { s with mem := { s.mem with writes := [sent] } }).mem.writes, w.op = some 5) ∧
    (∀ k ∈ ([] : List Nat), (sO (.marker [])).op? k = none) ∧ (∃ k ∈ [5], (sO (.marker [5])).op? k ≠ none) ∧
    (sO (.wmpub 4096 mark 9)).pubOk (op5 (.wmpub 4096 mark 9)) = true ∧
    (sO (.wmpub 4096 mark 9) fun s => { s with rows := [late] }).pubOk (op5 (.wmpub 4096 mark 9)) = false ∧
    ((sO (.cpy shape6 shape4 none)).performCopy (op5 (.cpy shape6 shape4 none)) shape6 shape4 none).2.2.isNone = true ∧
    ((sO (.cpy shapeX shape4 none)).performCopy (op5 (.cpy shapeX shape4 none)) shapeX shape4 none).2.2.isSome = true ∧
    (flushRun (op5 (.cflush shape4)) shape4 (shape4.count - 0) 0 (sO (.cflush shape4))).2.2.isNone = true ∧
    (flushRun (op5 (.cflush shapeX)) shapeX (shapeX.count - 0) 0 (sO (.cflush shapeX))).2.2.isSome = true := by decide +kernel
theorem flush_runs {o : Op} {x : Shape} {n e : Nat} {s : State} (h : (flushRun o x n e s).2.2.isNone = true) : ∃ u, Flushes o x n e s u :=
  ⟨_, flushRun_flushes n e (Prod.ext rfl (Prod.ext rfl (Option.isNone_iff_eq_none.1 h)))⟩
/-- A flush of a record whose rows are not aligned. -/
def shapeB : Shape := { shape4 with base := 4097, fmt := .fp4b, ext := [128], str := [1] }
theorem wit_flush : (∃ u, Flushes (op5 (.cflush shape4)) shape4 (shape4.count - (op5 (.cflush shape4)).f) (op5 (.cflush shape4)).f (sO (.cflush shape4)) u) ∧
    (op5 (.cflush shapeB)).f < shapeB.count ∧ shapeB.aligned (op5 (.cflush shapeB)).f = false ∧
    (sO (.wmpub 4096 mark 9) fun s => { s with mem := { s.mem with poison := [64] } }).pubOk (op5 (.wmpub 4096 mark 9)) = true ∧
    (sO (.wmpub 4096 mark 9) fun s => { s with mem := { s.mem with poison := [64] } }).poisoned mark ≠ none ∧
    ((((sO (.vfg 3 .i32 .i32 0 [(2, 4096, mark.map some)] true)).settle 0).fresh.2.refresh 0 []).row? 0).isSome = true ∧
    (∀ l ∈ mark, l.key / 64 ∉ ((sO (.vfg 3 .i32 .i32 0 [(2, 4096, mark.map some)] true)).settle 0).fresh.2.mem.poison) :=
  ⟨flush_runs (by decide +kernel), by decide, by decide, by decide +kernel, by decide +kernel, by decide +kernel, by decide +kernel⟩
theorem wit_streams_land : (strow.streams.getD 1 none).map (·.canFetch) = some true ∧ (1 : Nat) < strow.streams.length ∧ (st strow lslice).mem.writes = [] ∧
    (landed 9 4).mem.landing.length = 1 ∧ (9 : Nat) < (landed 9 4).clock.et ∧ (landed 10 4).clock.et ≤ 10 ∧
    parseBar ((locRun { key := 4096, enc := 0, home := 0 } 32).map (landed 9 4).readLoc) = some (bar2 1 0 4) ∧ (bar2 1 0 4).pending ≠ 0 ∧
    (bar2 1 0 0).pending = 0 := by decide +kernel
theorem test_vpld_complete : (nx (exec .operationComplete (ar { a := 5, flag := false } (sO (.vpld 8 .i64 0 [(3, 77)]))))).map (fun s =>
    ((s.slice row).elem 32 8 64 3, s.ops.length)) = some (77, 0) := by decide +kernel
theorem test_copy_complete : (nx (exec .engineOpComplete ((sO (.cpy shape6 shape4 none)).pokeBytes 4096 [1, 2, 3, 4]))).map (fun s =>
    (s.dwordAt 8192 % 2 ^ 32, s.ops.length)) = some (0x04030201, 0) := by decide +kernel
theorem test_wmpub_max : (nx (exec .wmpubPerform ((sO (.wmpub 4096 mark 9)).pokeBytes 4096 [20]))).map (·.dwordAt 4096) = some 20 ∧
    (nx (exec .wmpubPerform ((sO (.wmpub 4096 mark 9)).pokeBytes 4096 [2]))).map (·.dwordAt 4096) = some 9 := by decide +kernel

/-- A page table whose second page of 64 MiB is mapped, its A bit clear. -/
def tables : State :=
  ((s0.modPart 0 fun p => { p with desc := p.desc.setIfInBounds 0 0x100000 }).pokeBytes 0x100000 (leBytes 8 (0x200000 + 1))).pokeBytes 0x200008
    (leBytes 8 (2 ^ 26 + 0x93))
/-- A request to invalidate every page. -/
def req1 : InvReq := { kind := 1, page := 0, gwct := 0, after := [] }
/-- The partition with a TLBINV request. -/
def inval (writes : List PWrite) : State :=
  let s := s0.modPart 0 fun p => { p with invs := [req1], invReq := 1 }
  { s with mem := { s.mem with writes := writes } }
/-- The unit free, and a row waiting for it. -/
def unitWaits : State := s0.modCluster 0 fun k => { k with mx := { k.mx with waiting := [0] } }
/-- The row holding the unit, with an operation at its head. -/
def unitOp (k : OpKind) (started : Bool) : State := unitOf 0 (st mfull mslice fun s => { s with ops := [{ op5 k with started := started }] })
theorem wit_walks : canonical (2 ^ 26) = true ∧ tables.partOn 0 = true ∧ Memory.wf tables.mem.cells = true ∧
    okAnd (tlbFill tables { part := 0, cluster := 0, hnd := false } (2 ^ 26)) (fun q => q.1.base == 2 ^ 26 && q.2.byte 0x200008 == 0xD3) = true ∧
    ((inval []).part 0).invs = [req1] ∧ (inval []).accessesDone 0 req1 = true ∧ (inval []).accessesDone 0 { req1 with after := [3] } = false ∧
    (unitWaits.cluster 0).mx.holder = none ∧ (unitWaits.cluster 0).mx.waiting = [0] ∧ ((unitOf 0 s0).cluster 0).mx.holder = some 0 := by decide +kernel
theorem wit_page_walk : tables.MemOk ∧ tlbFind (FMap.getD tables.mem.tlbD 0 []) 0 (2 ^ 26) = none ∧
    (walk tables (2 ^ 26) 4 (tables.pdesc 0 0)).toOption = some (2 ^ 26 + 0x93, 3, 0x200008) ∧ (2 ^ 26 + 0x93) / 0x40 % 2 = 0 ∧
    (tlbFind (FMap.getD [(0, [page])] 0 []) 0 4096).isSome = true ∧ errs (walk tables (2 ^ 27) 4 (tables.pdesc 0 0)) = true :=
  ⟨by unfold State.MemOk; decide +kernel, by decide +kernel, by decide +kernel, by decide, by decide +kernel, by decide +kernel⟩
/-- A drain block that moves the row of acc to v0, and the row with it armed. -/
def drainBlk : DrainBlk :=
  { header := 64, hd := probeHeader, words := [BitVec.ofNat 32 ((encode (.vmv 0 (.vec 24) 0)).getD 0)], x := regs, sb := row.sb, rm := none }
/-- The block as it is once its drain has started. -/
def startedBlk : DrainBlk := { drainBlk with rm := some (0, 0) }
theorem wit_matrix_values : ((unitOp (.mop false false false 2) false).matrixReady 0).map (·.2.kind) = some (.mop false false false 2) ∧
    0 < min 2 (0 + stepsAtOnce (halfOf (unitOp (.mop false false false 2) false) mfull false false) (halfOf (unitOp (.mop false false false 2) false) mfull true false)) ∧
    ((unitOp (.mop false false false 2) false).cluster 0).mx.bandk = 0 ∧ 4 ≤ mfull.w ∧
    ((unitOp .mfold false).matrixReady 0).map (·.2.kind) = some .mfold ∧
    (((unitOp .mfold false).modCluster 0 fun k => { k with mx := { k.mx with bandk := 3 } }).cluster 0).mx.bandk ≠ 0 ∧
    okAnd ((unitOp .mzero false).drainStart mfull 1 none drainBlk) (fun b => b.rm.isSome && b.sc.isNone) = true ∧
    okAnd ((unitOp .mzero false).drainStart mfull 1 (some (4, 8)) drainBlk) (fun b => (b.sc.map (·.1.length)) == some 64) = true ∧
    okAnd ((unitOp .mzero false).drainStart mfull 1 none startedBlk) (fun b => b.words.map (fun w => decodeWord w.toNat) == [some (.vmv 0 (.vec 24) 0)]) = true ∧
    ((unitOp (.mdrain 1 none startedBlk) false).matrixReady 0).map (·.2.kind) = some (.mdrain 1 none startedBlk) ∧
    ((unitOp (.mdrain 1 none startedBlk) false).slice mfull).parity = [] ∧ mfull.threadLive = false ∧ mfull.mxrow < 64 ∧
    drainWordOk mfull ((unitOp (.mdrain 1 none startedBlk) false).slice mfull) (.vmv 0 (.vec 24) 0) = true ∧
    ((unitOp (.mdrain 1 none startedBlk) false).drainReady mfull).isSome = true := by decide +kernel
theorem wit_matrix_events : ((unitOp .mzero false).matrixReady 0).isSome = true ∧ ((unitOp .mzero false).matrixRun mfull (op5 .mzero)).2.isNone = true ∧
    ((unitOp .mzero true).matrixHead 0).map (·.2.started) = some true ∧ ((unitOp .mzero false).matrixHead 0).map (·.2.started) = some false ∧
    ((unitOp (.mlat false false (2 ^ 40) 64 .i8 false) false).matrixReady 0).isSome = true ∧
    ((unitOp (.mlat false false (2 ^ 40) 64 .i8 false) false).matrixRun mfull (op5 (.mlat false false (2 ^ 40) 64 .i8 false))).2.isSome = true := by
  decide +kernel

/-! Launches, hosts and partitions. -/

/-- The dwords of an image: one role of one row, whose code is an overlay of 64 bytes at 256; its `.kernel` section is at 192. -/
def image : List Byte :=
  [0x01424F4B + 2 ^ 32 + 3 * 2 ^ 48, 64, 0, 0, 0, 0, 0, 0, 1, 192, 24, 0, 2, 160, 32, 0, 3, 256, 64, 0, 0, 3 * 2 ^ 8 + 2 ^ 17, 0, 0, 0, 1, 1].flatMap (leBytes 8)
/-- A launch descriptor of one team of one row of it. -/
def ldesc (image : Nat) : List Byte := [2 ^ 24, image, 0, 1, 0, 0, 0, 0].flatMap (leBytes 8)
/-- The device with queue 0 at 12288, its ring at 16384, and the descriptor at its head. -/
def launching (dev head tail image0 : Nat) : State :=
  let s := s0.modPart 0 fun p => { p with desc := ((p.desc.setIfInBounds 7 12288).setIfInBounds 8 2).setIfInBounds 11 4 }
  let s := { s with rows := [] }
  let s := s.pokeBytes 12288 ([16384, 2 ^ 63 + dev * 2 ^ 62 + 2 ^ 48 + 1, head, tail].flatMap (leBytes 8))
  (s.pokeBytes 16384 (ldesc image0)).pokeBytes 65536 image
/-- The device with the launch. -/
def launched (l : Launch) (f : State → State := id) : State :=
  let s := launching 0 1 1 65536
  f { s with engine := { s.engine with launches := [l], nextId := 1 } }
theorem wit_launches : ((launching 0 0 1 65536).readQueue 0 0).1.isSome = true ∧ ((launching 0 0 1 65536).readQueue 0 0).1.map (fun e => (e.dev, e.head, e.tail, e.log2)) = some (false, 0, 1, 1) ∧
    ((launching 1 0 1 65536).readQueue 0 0).1.map (·.dev) = some true ∧ ((launching 0 1 1 65536).readQueue 0 0).1.map (fun e => decide (e.tail ≤ e.head)) = some true ∧
    (((launching 0 0 1 65536).readQueue 0 0).2.eng 0 16384 64).map (fun q => (q.2.2.checkDesc 0 (parseDesc q.2.1)).isSome) = some true ∧
    (((launching 0 0 1 8).readQueue 0 0).2.eng 0 16384 64).map (fun q => (q.2.2.checkDesc 0 (parseDesc q.2.1)).isNone) = some true := by decide +kernel
/-- Die 0 stopped for its temperature. -/
def hot (s : State) : State := (List.range 16).foldl (fun s c => s.modCluster c fun k => { k with stoppedHot := true }) s
/-- What the engine keeps of queue 0. -/
def keptOf (s : State) : Option QKept := FMap.get? s.engine.kept (s.queueIx 0 0)
theorem wit_launch_slots : (keptOf ((launching 0 0 1 65536).readQueue 0 0).2).map (·.slot) = some none ∧
    (keptOf ((launching 1 0 1 65536).readQueue 0 0).2).map (·.slot) = some none ∧
    (parseDesc (ldesc 65536)).depev = 0 ∧ (parseDesc (ldesc 65536)).depwm = 0 ∧ (parseDesc (ldesc 65536)).flags % 2 = 0 := by decide +kernel
/-- The candidates of a selection: there are such that fit, of different queues; and the same where none fits and nothing changes. -/
def picks (s : State) : Bool × Bool :=
  let s1 := s.readQueues
  let q := State.candidates s1.engine.launches [] s1
  let fits := q.1.any fun c => (q.2.candFit q.1 c).isSome
  (fits && decide (q.1.map (·.g)).Nodup, !fits && q.1.all (·.l.unfit.isSome) && decide (q.2.engine.kept = s.engine.kept))
/-- The launch done, its record at 32768. -/
def doneLaunch : Launch := { launchOf none none with next := 1, done := 32768, doneEv := 32800 }
/-- A launch on die 0 that does not fit since `t`. -/
def stuck (t : Nat) : State := hot (launched { launchOf (some t) none with die := some 0 } fun s => { s with clock := { s.clock with et := 100000 } })
theorem wit_placing : ((launched (launchOf none none)).selectTeam).isSome = true ∧ (launched doneLaunch).launchDone doneLaunch = true ∧
    (launched (launchOf none none)).launchDone (launchOf none none) = false ∧
    (let q := State.candidates (stuck 0).engine.launches [] (stuck 0)
     (q.1.map fun k => (k.l.id, k.l.die, (q.2.candFit q.1 k).isNone, ((q.2.planDie 0 0 true k.whole (imageKey 0 k.l.image) k.img k.rows).bind fun p =>
      q.2.bestDie 0 [(0, p)]).isSome)) = [(0, some 0, true, true)] ∧ 0 + 100000 ≤ q.2.clock.et) ∧
    (State.candidates (stuck 5).engine.launches [] (stuck 5)).2.clock.et < 5 + 100000 := by decide +kernel
theorem wit_selection : (picks (launched (launchOf none none))).1 = true ∧ (picks (stuck 0).readQueues).2 = true := by decide +kernel
/-- The row that the engine places of a launch, with the test of its state before and of it. -/
def placedRow (s : State) (p : State → KImage → PlanRow → Row → State → Bool) : Bool :=
  let q := State.candidates s.engine.launches [] s
  match q.1 with
  | [k] => (match q.2.candFit q.1 k with
    | some (_, [r]) => (let t := s.placeRow k.l k.img k.prio k.whole r
        (t.row? s.engine.nextRow).any fun x => p s k.img r x t)
    | _ => false)
  | _ => false
/-- The launch with its arguments at 20480. -/
def argLaunch : Launch := { launchOf none none with args := 20480 }
theorem wit_row_created : placedRow (launched argLaunch fun s => { s.pokeBytes 20488 [9] with slices := [] }) (fun s img p r t =>
      (s.row? s.engine.nextRow).isNone && (img.ovs[p.role.ov]?).isSome && (s.slice r).owner == 0 && r.th.getX 1 == 9 && (t.slice r).owner == r.owner &&
      (match img.ovs[p.role.ov]? with
        | some q => (((s.loadImage 0 p.cluster (imageKey 0 65536) 65536 img).2.engRun 0 (65536 + q.1) 128 q.2)).isSome
        | none => false)) = true ∧
    placedRow (launched (launchOf none none) fun s => { s with slices := s.slices.map fun q => (q.1, { q.2 with owner := 77 }) }) (fun s _ _ r _ =>
      (s.slice r).owner == 77 && r.owner != 77 && !r.vvalid) = true := by decide +kernel
theorem test_placed : ((launched (launchOf none none)).selectTeam).map (fun s => s.rows.map fun r => (r.cluster, r.th.pc, r.w)) = some [(0, 65792, 4)] := by
  decide +kernel
/-- Its record written with GWCT `k`. -/
def recordedAt (k : Nat) : State := launched { doneLaunch with recorded := some k }
theorem wit_completion : (launched { doneLaunch with doneEv := 0 }).launchDone { doneLaunch with doneEv := 0 } = true ∧
    (recordedAt 9).clock.et = 10 ∧ (recordedAt 10).engine.launches.find? (·.id == 0) = some { doneLaunch with recorded := some 10 } := by decide +kernel
theorem test_completion : (nx (exec .completionRecordWrite (ar { a := 0 } (launched doneLaunch)))).map (fun s =>
    (s.dwordAt 32776, s.dwordAt 32800, s.engine.launches.map (·.recorded))) = some (10, 0, [some 11]) := by decide +kernel
theorem test_completion_event : (nx (exec .completionRecordWrite (ar { a := 0 } (recordedAt 9)))).map (fun s => (s.dwordAt 32800, s.engine.launches)) =
    some (1, []) := by decide +kernel

/-! Hosts and the domain. -/

/-- A poisoned line at 4096. -/
def poisoned : State := { s0 with mem := { s0.mem with poison := [64] } }
/-- A remote atomic outstanding. -/
def ramo5 : OpKind := .ramo 7 .add true .rlx (2 ^ 50 * 3 + 4096) 1 0
/-- A collective of operation `n` outstanding in the span of two. -/
def coll5 (n : Nat) : OpKind := .coll [n + 3 * 2 ^ 16, 1, 8192, 12288, 0, 0, 0, 0] 0 0
/-- The device with it. -/
def collS (n : Nat) : State := { span n with ops := [op5 (coll5 n)] }
/-- Its descriptor. -/
def collD (n : Nat) : List Nat := [n + 3 * 2 ^ 16, 1, 8192, 12288, 0, 0, 0, 0]
/-- The members of the span. -/
def members : List Member := [{ self := 0, group := 0, desc := collD 0, data := [], ordinal := 0 }, { self := 1, group := 0, desc := collD 0, data := [5], ordinal := 0 }]
theorem wit_host : s0.partOn 0 = true ∧ s0.partOn 1 = false ∧ s0.pdesc 0 1 ≤ 4096 ∧ 4096 + 4 ≤ s0.pdesc 0 2 ∧ 4096 + 4 ≤ 2 ^ 39 ∧
    s0.poisoned (locRun { key := 4096, enc := 0, home := 0 } 4) = none ∧ poisoned.poisoned (locRun { key := 4096, enc := 0, home := 0 } 4) ≠ none ∧
    (sO ramo5).op? 5 = some (op5 ramo5) ∧ (sO ramo5).lineBehind (op5 ramo5) = false ∧ (op5 ramo5).kind.isRemote = true ∧
    (sO ramo5).clock.et < (op5 ramo5).since + 10000000 ∧ (sO ramo5 fun s => { s with clock := { s.clock with et := 10000000 } }).clock.et = 10000000 := by
  decide +kernel
/-- Partition 0 with its window, not enabled. -/
def windowed : State := s0.modPart 0 fun p => { p with desc := p.desc.setIfInBounds 15 0 }
/-- A remote atomic in the span of two. -/
def ramo6 : OpKind := .ramo 7 .add true .rlx (2 ^ 50 + 4096) 1 0
/-- A remote copy whose first element is 3 devices away. -/
def rput5 : OpKind := .rput { shape6 with base := 2 ^ 50 * 3 + 8192 } shape4
theorem wit_host_windows : windowed.partOn 0 = false ∧ windowed.pdesc 0 1 ≤ 4096 ∧ 4096 + 8 ≤ windowed.pdesc 0 2 ∧ s0.pdesc 1 2 < 4096 ∧
    ((List.range 8).filter fun i => [5].isEmpty || bit ([5].getD (i / 64) 0) (i % 64)) = [0, 2] ∧
    ((2 ^ 50 + 4096 : BitVec 64)).toNat / 2 ^ 50 < bits ((span 0).pdesc 0 13) 32 14 ∧
    (({ span 0 with ops := [op5 ramo6] } : State).op? 5 = some (op5 ramo6)) ∧ (({ span 0 with ops := [op5 ramo6] } : State).lineBehind (op5 ramo6)) = false ∧
    (op5 rput5).kind.isRemote = true ∧ (op5 rput5).kind.remoteAddr 0 = 2 ^ 50 * 3 + 8192 := by decide +kernel
/-- The device in the span of two at ET `t`, a collective outstanding, member 1 failed before. -/
def silent (t : Nat) (failed : List (Nat × Nat)) : State :=
  let s := ar { a := 1, b := 5 } (collS 0)
  { s with clock := { s.clock with et := t }, mgmt := { s.mgmt with failed := failed } }
theorem wit_failures : (silent 1000000 []).partOn 0 = true ∧ (silent 1000000 []).pdesc 0 12 = 5 ∧ 1 < bits ((silent 1000000 []).pdesc 0 13) 32 14 ∧
    bits ((silent 1000000 []).pdesc 0 13) 0 14 ≠ 1 ∧ (5, 1) ∉ (silent 1000000 []).mgmt.failed ∧
    ((silent 1000000 []).mgmt.heard.find? fun q => q.1 == 5 && q.2.1 == 1) = none ∧ 0 + 1000000 ≤ (silent 1000000 []).clock.et ∧
    (silent 999999 []).clock.et < 0 + 1000000 ∧ (5, 1) ∈ (silent 1000000 [(5, 1)]).mgmt.failed ∧
    ((silent 0 [(5, 1)]).pdesc 0 12, (2 ^ 50 + 4096) / 2 ^ 50) ∈ (silent 0 [(5, 1)]).mgmt.failed := by decide +kernel
/-- A launch whose ended row left a remote operation. -/
def leftOver : State := launched { launchOf none none with remote := [op5 ramo6] } fun s => { s with clock := { s.clock with et := 10000000 } }
theorem wit_away : leftOver.op? 5 = none ∧ leftOver.awayOp? 5 = some (op5 ramo6) ∧ (op5 ramo6).since + 10000000 ≤ leftOver.clock.et := by decide +kernel
theorem test_device_failure : (nx (exec .deviceFailureDetected (silent 1000000 []))).map (fun s =>
    (s.mgmt.failed, s.cave.recs.map fun k => (k.code, k.f))) = some ([(5, 1)], [(.remoteflt, 0)]) := by decide +kernel
theorem test_heard_again : (nx (exec .heartbeat (ar { a := 0, b := 1, flag := true, w := 5 } (silent 7 [(5, 1)])))).map (fun s =>
    (s.mgmt.failed, s.mgmt.heard)) = some ([], [(5, 1, 7)]) := by decide +kernel
theorem wit_collective_runs : ∃ own u v, ReadsRun (op5 (coll5 0)) (collShape 8192 3 1) 1 0 ((collS 0).settle 0) own u ∧
    WritesRun (op5 (coll5 0)) (collShape 12288 3 1) (collResult (collD 0) (members.map fun m => if m.self = 0 then { m with data := own } else m) 0 2) 0 u v := by
  have h : okAnd (collRead (op5 (coll5 0)) (collShape 8192 3 1) 1 0 ((collS 0).settle 0)) (fun q =>
      (collWrite (op5 (coll5 0)) (collShape 12288 3 1) (collResult (collD 0) (members.map fun m => if m.self = 0 then { m with data := q.1 } else m) 0 2)
        0 q.2).2.isNone) = true := by decide +kernel
  obtain ⟨⟨own, u⟩, a, b⟩ := okAnd_ok h
  exact ⟨own, u, _, collRead_reads 1 0 a, collWrite_writes _ 0 (Prod.ext rfl (Option.isNone_iff_eq_none.1 b))⟩
theorem wit_collective_ends : bits ((collS 0).pdesc 0 13) 32 14 = 2 ∧ (∃ k < 2, ∀ m ∈ ([] : List Member), m.self ≠ k) ∧
    (members.filter (·.ordinal == 0) = members) ∧ (∀ k < 2, ∃ m ∈ members, m.self = k) ∧ (∀ m ∈ members, collAgree m.desc (collD 0) = true) ∧ (∃ m ∈ members, collAgree m.desc (collD 1) = false) ∧
    okAnd (collRead (op5 (coll5 0)) (collShape 8192 3 1) 1 0 ((collS 0).settle 0)) (fun q =>
      (collWrite (op5 (coll5 0)) (collShape 12288 3 1) (collResult (collD 0) (members.map fun m => if m.self = 0 then { m with data := q.1 } else m) 0 2)
        0 q.2).2.isNone) = true := by decide +kernel
theorem test_host_read : (nx (exec .hostMemRead (ar { a := 0, b := 4096, l := [2] } (s0.pokeBytes 4096 [7, 9])))).map (·.mgmt.outbox) = some [[4, 0, 7, 9]] := by
  decide +kernel
theorem test_all_reduce : (nx (exec .collectiveComplete (ar { a := 5, members := members } ((collS 0).pokeBytes 8192 [3])))).map (fun s =>
    (s.dwordAt 12288 % 2 ^ 32, s.ops.length)) = some (8, 0) := by decide +kernel

/-! Partitions. -/

/-- A handler image: a code section of 64 bytes at 128, no role. -/
def himage : List Byte := 
  [0x01424F4B + 2 ^ 32 + 2 * 2 ^ 48, 64, 0, 0, 0, 0, 0, 0, 1, 192, 24, 0, 3, 128, 64, 0, 0, 0, 0, 0, 0, 0, 0, 0, 0, 0, 1].flatMap (leBytes 8)
/-- Partition 0 not enabled, with a handler image at 65536. -/
def offPart (f : Part → Part := id) : State :=
  (s0.modPart 0 fun p => f { p with desc := (p.desc.setIfInBounds 15 0).setIfInBounds 16 65536 }).pokeBytes 65536 himage
/-- The same with no row. -/
def offBare (f : Part → Part := id) : State := { offPart f with rows := [] }
/-- A snapshot of the partition. -/
def snap (g : Nat) : SnapData :=
  { group := g, self := 0, size := 2 ^ 17, complete := true, ranges := [(0, 65536)], cells := [], keyed := [], ops := [], collSeq := 0, rows := []
    slices := [], launches := [], kept := [] }
/-- The bytes of a region's trailer from `k` on. -/
def trailer (k : Nat) : List Byte := (List.range (2 ^ 16)).map fun i => regionByte 0 (k + i)
/-- The region of 128 KiB at 2^20. -/
def region (g : Nat) : SnapRegion := { base := 2 ^ 20, size := 2 ^ 17, seed := 0, snap := snap g }
/-- The partition in a span of two with group 5, its own snapshot kept and one for its peer, in one region, and nothing in the region. -/
def withSnap (g : Nat) : State := (span 0).modPart 0 fun p =>
  { p with own := some (region g), peer := some (region g),
           snapRgn := (((p.snapRgn.setIfInBounds 0 (2 ^ 20)).setIfInBounds 1 (2 ^ 17)).setIfInBounds 2 (2 ^ 20)).setIfInBounds 3 (2 ^ 17) }
/-- The same with the region's trailer in place. -/
def trailed (g : Nat) : State := (withSnap g).pokeBytes (2 ^ 20 + 2 ^ 16) (trailer (2 ^ 20 + 2 ^ 16))
theorem trailer_stands (g : Nat) (h : (withSnap g).MemOk) : (trailed g).trailerStands (region g) = true := by
  simp only [State.trailerStands, List.all_eq_true, List.mem_range, beq_iff_eq]
  intro i hi
  show ((withSnap g).pokeBytes (2 ^ 20 + 2 ^ 16) (trailer (2 ^ 20 + 2 ^ 16))).byte (2 ^ 20 + 2 ^ 17 - 2 ^ 16 + i) =
    regionByte 0 (2 ^ 20 + 2 ^ 17 - 2 ^ 16 + i)
  rw [State.byte_pokeBytes _ _ _ h, show 2 ^ 20 + 2 ^ 17 - 2 ^ 16 + i = 2 ^ 20 + 2 ^ 16 + i by omega]
  have l : (trailer (2 ^ 20 + 2 ^ 16)).length = 2 ^ 16 := by rw [trailer, List.length_map, List.length_range]
  rw [l, if_pos (by omega), Nat.add_sub_cancel_left, trailer, List.getElem?_map, List.getElem?_range hi]
  rfl
theorem wit_partitions : ((offBare fun p => { p with keyCreated := false }).part 0).keyCreated = false ∧ (s0.part 0).keyCreated = true ∧ s0.partOn 0 = true ∧
    offBare.partOn 0 = false ∧ (offBare.part 0).keyCreated = true ∧ (∀ r ∈ offBare.rows, r.part ≠ 0) ∧
    (∀ q < 16, q ≠ 0 → offBare.partOn q = true → offBare.partsApart 0 q = true) ∧ offBare.partAligned 0 = true ∧ offBare.spanOk 0 = true ∧
    offBare.rgnOk 0 = true ∧ (offBare fun p => { p with desc := p.desc.setIfInBounds 7 1 }).partAligned 0 = false ∧
    (∃ q < 16, q ≠ 1 ∧ s0.partOn q = true ∧ (s0.modPart 1 fun p => { p with desc := (s0.part 0).desc.setIfInBounds 15 0 }).partsApart 1 q = false) ∧
    (offBare.handlerImage 0).map (fun q => (q.1, q.2.1, decide (q.2.2.2.parts = offBare.parts))) = some (65664, 64, true) := by decide +kernel
theorem wit_snapshots : (s0.rows.map (·.id)).Nodup ∧ (∃ r ∈ s0.rows, r.part = 0 ∧ r.ctx ≠ none) ∧ (∀ k ∈ s0.cave.recs, k.part ≠ 0) ∧ (s0.part 0).snapState ≠ 1 ∧
    (∀ r ∈ (sR away).rows, r.part = 0 → r.ctx = none) ∧ ((s0.modPart 0 fun p => { p with snapState := 1 }).part 0).snapBar = false ∧
    (∀ o ∈ (sR away).ops, o.part = 0 → o.kind.isRemote = true → o.stopped = true) ∧ (∀ w ∈ (sR away).mem.writes, w.part ≠ 0) ∧ (sR away).MemOk ∧
    (s0.part 0).own = none ∧ bits (s0.pdesc 0 13) 32 14 = 0 ∧ (∃ o ∈ (sO ramo5).ops, o.part = 0 ∧ o.kind.isRemote = true ∧ o.stopped = false) :=
  ⟨by decide, by decide, by decide, by decide, by decide, by decide, by decide, by decide, by unfold State.MemOk; decide, by decide, by decide, by decide⟩
/-- A partition in a span whose snapshot waits for the span's barrier, all members well or one failed. -/
def barred (failed : List (Nat × Nat)) : State :=
  let s := (withSnap 5).modPart 0 fun p => { p with snapState := 1, snapBar := true }
  { s with mgmt := { s.mgmt with failed := failed } }
theorem wit_snapshot_bar : (barred []).pdesc 0 12 = 5 ∧ bits ((barred []).pdesc 0 13) 32 14 = 2 ∧ ((barred []).part 0).snapBar = true ∧
    ((barred []).part 0).snapState = 1 ∧ (¬ ∃ q ∈ (barred []).mgmt.failed, q.1 = 5) ∧ (∃ q ∈ (barred [(5, 1)]).mgmt.failed, q.1 = 5) ∧
    (∀ k < 2, ∃ m ∈ members, m.self = k) ∧ (∃ k < 2, ∀ m ∈ members.take 1, m.self ≠ k) := by decide +kernel
theorem wit_restore : (trailed 5).trailerStands (region 5) = true ∧ ((trailed 5).part 0).own = some (region 5) ∧ (trailed 5).partOn 0 = true ∧
    ((trailed 5).part 0).snapState ≠ 1 ∧ (snap 5).complete = true ∧ (snap 5).group = (trailed 5).pdesc 0 12 ∧
    (snap 5).self = bits ((trailed 5).pdesc 0 13) 0 14 ∧ (region 5).base = (trailed 5).rgn 0 0 ∧ (region 5).size = (trailed 5).rgn 0 1 ∧
    ((withSnap 4).part 0).own = some (region 4) ∧ (snap 4).group ≠ (withSnap 4).pdesc 0 12 ∧ bits ((trailed 5).pdesc 0 13) 32 14 = 2 :=
  ⟨trailer_stands 5 (by unfold State.MemOk; decide), by rfl, by rfl, by decide, by rfl, by rfl, by rfl, by rfl, by rfl, by rfl, by decide, by rfl⟩
theorem wit_peer : (trailed 5).trailerStands (region 5) = true ∧ ((trailed 5).part 0).peer = some (region 5) ∧ (trailed 5).groupPart 5 = some 0 ∧
    (region 5).base = (trailed 5).rgn 0 2 ∧ (region 5).size = (trailed 5).rgn 0 3 ∧ (withSnap 5).rgn 0 3 = (snap 5).size ∧ (withSnap 5).MemOk ∧
    (withSnap 5).rgn 0 3 < ({ snap 5 with size := 2 ^ 17 + 1 } : SnapData).size :=
  ⟨trailer_stands 5 (by unfold State.MemOk; decide), by rfl, by rfl, by rfl, by rfl, by rfl, by unfold State.MemOk; decide, by decide⟩
/-- Partition 0 disabled, its rows stopped, not yet ended; its launch runs. -/
def disabling : State :=
  { offPart with rows := [away], engine := { (offPart).engine with launches := [{ launchOf none none with id := away.launch }] } }
theorem wit_disabling : (disabling).partOn 0 = false ∧ (disabling).stopping 0 = true ∧ (offBare).stopping 0 = false ∧
    (∀ r ∈ (disabling).rows, r.part = 0 → r.ctx = none) ∧
    (∀ r ∈ (disabling).rows, ∃ l ∈ (disabling).engine.launches, l.id = r.launch ∧ l.part = r.part) ∧
    ((offBare fun p => { p with desc := p.desc.setIfInBounds 16 0 }).handlerImage 0 = none) := by decide +kernel
theorem test_enable : (nx (exec .partitionEnable (ar { a := 0 } offBare))).map (fun s => (s.partOn 0, s.mgmt.logCount)) = some (true, 0) := by decide +kernel
theorem test_enable_key : (nx (exec .partitionEnable (ar { a := 0 } (offBare fun p => { p with keyCreated := false })))).map (fun s =>
    (s.partOn 0, s.mgmt.log)) = some (false, [[10, 10, 0, 0, 5, 0]]) := by decide +kernel

/-! Power, sensors, firmware. -/

/-- Cluster 0 with events of lane 3, and with lanes out of service; no row resident. -/
def lanes (l : List Nat) (ev : List (Nat × Nat)) : State := { s0 with rows := [] }.modCluster 0 fun k => { k with retired := l, events := ev }
/-- Floors and the idle floor. -/
def floors (idle floor : Nat) : State :=
  let s := s0.modPart 0 fun p => { p with floorw := floor, effw := floor }
  { s with mgmt := { s.mgmt with idle := idle } }
theorem wit_lanes : (∀ r ∈ (lanes [] []).rows, r.cluster = 0 → r.ctx = none) ∧ ((lanes [] [(3, 0), (3, 1), (3, 2)]).cluster 0).laneDue 3 = true ∧
    ((lanes [] []).cluster 0).retired.contains 3 = false ∧ (∃ r ∈ s0.rows, r.cluster = 0 ∧ r.ctx ≠ none) ∧
    30 ≤ (((lanes [] []).cluster 0).inService.filter (· != 3)).length ∧ (((lanes [1, 2, 4] []).cluster 0).inService.filter (· != 3)).length < 30 := by
  decide +kernel
theorem wit_power : min (50 % 2 ^ 16) 2400 < (floors 100 200).mgmt.idle ∧ (floors 100 200).mgmt.idle ≤ min (150 % 2 ^ 16) 2400 ∧
    min (150 % 2 ^ 16) 2400 < (floors 100 200).mgmt.idle + (floors 100 200).floorSum ∧
    (floors 100 200).mgmt.idle + (floors 100 200).floorSum ≤ min (300 % 2 ^ 16) 2400 ∧
    (floors 2000 200).mgmt.capw < (floors 2000 200).mgmt.idle + ((floors 2000 200).modPart 0 fun q => { q with floorw := 500 % 2 ^ 16 }).floorSum ∧
    (floors 100 200).mgmt.capw < 3000 ∧ ((floors 100 200).part 0).effw < 900 ∧ 1 < ((floors 100 200).part 0).grant ∧ (floors 100 200).clusterIn 0 0 = true ∧
    ({ (floors 0 0) with mgmt := { (floors 0 0).mgmt with overSince := some 0 }, clock := { s0.clock with et := 100000 } } : State).mgmt.overSince = some 0 ∧
    s0.clock.et < 0 + 100000 ∧ (∀ t ∈ [90, 115], t ≤ 115) ∧ (∃ t ∈ ([90, 116].drop 0).take 16, 115 < t) ∧ s0.mgmt.slew.length = 128 := by decide +kernel
/-- Partition 0 enabled, above its floor of 200 mW, its die at `t` °C. -/
def warm (grant t : Nat) : State :=
  let s := (floors 100 200).modPart 0 fun p => { p with grant := grant }
  { s with mgmt := { s.mgmt with sensors := { dieTemp := [t] } } }
/-- A tick with `w` W measured, 300 W of them partition 0's. -/
def tickAt (w : Nat) (s : State) : State := ar { a := w, l := [300], charges := [(.work (.ctl 0), 5), (.idle, 3), (.ballast [(0, 3), (1, 1)], 8)] } s
theorem wit_control : ((warm 5 50).part 0).energy < 2 ^ 64 ∧ (warm 5 50).mgmt.overhead < 2 ^ 64 ∧ (warm 5 50).partOn 0 = true ∧
    ((warm 5 50).part 0).effw < [300].getD 0 0 ∧ 1 < ((warm 5 50).part 0).grant ∧ (warm 5 50).mgmt.capw < 2401 ∧ (warm 5 50).mgmt.capw * 97 ≤ 2401 * 100 ∧
    (∃ x ∈ ((warm 5 106).mgmt.sensors.dieTemp.drop (16 * 0)).take 16, 105 < x) ∧ (∃ k < 16, (warm 5 106).clusterIn 0 (16 * 0 + k) = true) ∧
    2327 * 100 < (warm 5 50).mgmt.capw * 97 ∧ (warm 5 50).mgmt.capw * 97 ≤ 2328 * 100 ∧
    (∀ q < 16, q ≠ 0 → ((warm 5 50).part 0).grant < ((warm 5 50).part q).grant) ∧ ((warm 1 50).part 0).grant ≤ 1 ∧
    (warm 5 50).partOf (.ctl 0) = 0 := by decide +kernel
theorem test_power_lowers : (nx (exec .powerControlTick (tickAt 2401 (warm 5 50)))).map (fun s => ((s.part 0).grant, (s.part 0).energy, s.mgmt.overhead)) =
    some (4, 11, 3) := by decide +kernel
theorem test_power_raises : (nx (exec .powerControlTick (tickAt 2000 (warm 5 50)))).map (fun s => ((s.part 0).grant, (s.part 1).grant)) = some (6, 16) ∧
    (nx (exec .powerControlTick (tickAt 2000 (warm 1 106)))).map (fun s => s.mgmt.overSince.isSome) = some true := by decide +kernel
theorem test_cap_forced : (nx (exec .capwForceWrite (ar { a := 150 } (floors 100 200)))).map (fun s => (s.mgmt.capw, s.mgmt.capStatus, (s.part 0).effw)) =
    some (150, 0, 50) := by decide +kernel
theorem test_cap_low : (nx (exec .capwWrite (ar { a := 150 } (floors 100 200)))).map (fun s => (s.mgmt.capw, s.mgmt.capStatus, (s.part 0).effw)) =
    some (2400, 2, 200) := by decide +kernel

/-- A device with a firmware image staged in slot B, its session opened. -/
def staged : State := { s0 with mgmt := { s0.mgmt with staged := true, rollback := 4, spdm := [7] } }
theorem wit_firmware : ¬ (4 : Nat) ≤ ({ content := 0, signature := 0, rollback := 3 } : FwImage).rollback ∧ Bool.xor staged.mgmt.staged staged.mgmt.activeB = true ∧
    (0x200000 + 256 * 0 + 8 * 2) % 8 = 0 ∧ s0.partOn 0 = true ∧ (7 : Nat) ∈ staged.mgmt.spdm ∧ (7 : Nat) ∉ s0.mgmt.spdm := by decide +kernel
/-- The device in a session: a key, and requests done in the order of their numbers. -/
def session (l : List Nat) (f : EvArg → EvArg := id) : State :=
  let s := { s0 with mgmt := { s0.mgmt with key := some 3, spdm := l } }
  ar (f {}) s
theorem wit_session : (session [7] fun g => { g with a := Config.finishData 3 }).mgmt.key = some 3 ∧
    (session [7] fun g => { g with a := Config.finishData 3 }).clock.arg.a = Config.finishData 3 ∧ 8 ∉ (session [7]).mgmt.spdm ∧
    (session [7, 8, 6]).mgmt.spdm = [7] ++ 8 :: [6] ∧ (6 : Nat) ∈ [6] ∧ ((session [7, 8, 6]).part 0).keyCreated = true ∧
    spdmForm s0 .getVersion = some (0, [0x12]) :=
  ⟨rfl, rfl, by decide, rfl, by decide, by decide, rfl⟩
theorem wit_key_release : let s := session [7, 8, 6] fun g => { g with b := Config.measurementHash (session [7, 8, 6]).measured }
    s.clock.arg.b = Config.measurementHash s.measured := rfl
theorem wit_registers : (ar { a := 0x200000 + 256 * 1 + 8 * 2 } s0).clock.arg.l = [] ∧ s0.partOn 1 = false ∧ (ar { a := 0x500300, flag2 := true } s0).clock.arg.flag2 = true ∧
    (ar { a := 0x020808, l := [0], flag2 := true } s0).clock.arg.l = [0] ∧ (0 : Nat) < 16 ∧ (ar { a := 8, l := [16] } s0).clock.arg.l = [16] ∧
    (ar { a := 0x200004 } s0).clock.arg.a % 8 ≠ 0 := by decide +kernel
theorem test_register_read : (nx (exec .registerWrite (ar { a := 0x020808, l := [0], flag2 := true }
    (s0.modPart 0 fun p => { p with invDone := 6 })))).map (·.mgmt.outbox) = some [[8, 6]] := by decide +kernel
theorem test_register_write : (nx (exec .registerWrite (ar { a := 0x200110, w := 77 } s0))).map (·.pdesc 1 2) = some 77 := by decide +kernel
theorem test_reset_falls_back : (nx (exec .deviceReset (ar { flag := true, flag2 := false } staged))).map (fun s => (s.mgmt.activeB, s.mgmt.log, s.rows.length)) =
    some (false, [[0, 16, 0, 0, 1, 0]], 0) := by decide +kernel

/-! The device as a whole. -/

/-- The row about to issue a word of memory: `w` stands at its PC. -/
def fetchS (w : Nat) : State :=
  let s := s0.pokeBytes (spadAt 0) (leBytes 4 w)
  { s with rows := s.rows.map fun r => { r with code := s.overlay 0 r.bind } }
/-- The row whose slices hold another row's contents. -/
def foreign : Row := { row with vvalid := false }
theorem wit_step : s0.clock.agenda = [] ∧ s0.clock.issue = [.ctl 0] ∧ (fetchS 0x38000003).fetched (.ctl 0) = .word 0x38000003 ∧
    decodeAt ((fetchS 0x38000003).placeAt (.ctl 0)) 0x38000003 = .ok .halt ∧ (fetchS 0x38000003).ramoWait (.ctl 0) .halt = false ∧
    okAnd (decodeAt ((fetchS 0).placeAt (.ctl 0)) 0) (fun _ => true) = false ∧ (fetchS 0).fetched (.ctl 0) = .word 0 ∧
    (sR { row with th := { row.th with pc := 2 ^ 30 } }).fetched (.ctl 0) = .miss ∧ (sR { row with th := { row.th with pc := 2 ^ 30 } }).mustWait (.ctl 0) true false = false ∧
    (sR (waits .mxon)).actorReady (.ctl 0) = false ∧ s0.actorReady (.ctl 0) = true ∧ row.bind.1 ≤ row.th.pc.toNat ∧
    row.th.pc.toNat + 4 ≤ row.bind.1 + row.bind.2.1 ∧ row.bind.2.2 + row.bind.2.1 ≤ 2 ^ 19 := by decide +kernel
theorem wit_rebind : s0.MemOk ∧ s0.row? 0 = some row ∧ row.ctx ≠ none ∧ (sR { row with th := { row.th with pc := 2 ^ 30 } }).blocksLive (.ctl 0) = false :=
  ⟨by unfold State.MemOk; decide, by decide, by decide, by decide⟩
theorem wit_ramo_wait : (sO ramo5).ramoWait (.ctl 0) (.add 1 7 2) = true := by decide +kernel
theorem wit_no_instruction : s0.Issues true false (.ctl 0) row.th ∧ decodeAt (s0.placeAt (.ctl 0)) 0 = .error .illop ∧ s0.blocksLive (.ctl 0) = false ∧
    sL.LanesIssue lrow blk ∧ decodeAt .block 0 = .error .illop ∧ (sL.slice lrow).strip.nr = false ∧ sV.VpIssues vrow 0 bund mem3 ∧
    decodeAt .thread 0 = .error .illop :=
  ⟨rowOk_thread (s := s0) (ahead := true) (vec := false) (r := row) (by decide), by decide +kernel, by decide, lane_issues.1, by decide +kernel, by decide, lane_issues.2, by decide +kernel⟩
theorem wit_held_and_vown : (sR lrow).ctlActor = some (.ctl 0) ∧ (sR lrow).blocksLive (.ctl 0) = true ∧ (sR lrow).blocksRun (.ctl 0) = true ∧
    (sR lrow).thread? (.ctl 0) = some lrow.th ∧ (sR foreign).row? 0 = some foreign ∧ (sR foreign).mustWait (.ctl 0) false true = false ∧
    (sR foreign).mustWait (.ctl 0) false false = false ∧ foreign.vvalid = false ∧ vectorWord .vcommit = true := by decide +kernel
theorem wit_stepping_waits : (sR { steprow with blocks := [blk] }).blocksRun (.ctl 0) = true ∧ (sR { steprow with blocks := [blk] }).steppingOf (.ctl 0) ≠ none ∧
    isWord (.add 1 2 3) ∧ majorOf (.add 1 2 3) ≤ 0x19 ∧ vownCsr (.csrr 1 0x800) = true ∧ vectorWord (.cvinit 1 2 3 .conc) = true ∧ (.vcommit : Instr) ≠ .vf 4 :=
  ⟨by decide, by decide, by unfold isWord; decide +kernel, by decide, by decide, by decide, nofun⟩
theorem wit_held_word : waitsForBlocks s0 .halt :=
  ⟨by unfold isWord; decide +kernel, by decide +kernel, nofun, nofun, nofun, nofun, nofun, nofun, nofun, nofun, nofun, nofun, nofun, fun h => absurd rfl h⟩
theorem wit_encode : (Instr.addi 1 2 (-3)).wellFormed ∧ encode (.addi 1 2 (-3)) = some 0x0822FFFD := by decide +kernel
theorem wit_memory : State.reset.MemOk ∧ (fetchS 0x38000003).MemOk ∧ (nx (step (fetchS 0x38000003))).isSome = true :=
  ⟨by unfold State.MemOk; decide, by unfold State.MemOk; decide +kernel, by decide +kernel⟩
theorem test_step_halts : (nx (step (fetchS 0x38000003))).map (·.rows.length) = some 0 := by decide +kernel
theorem test_step_illop : (nx (step (fetchS 0))).map (fun s => s.cave.recs.map (fun k => (k.code, k.pc))) = some [(.illop, 0)] := by decide +kernel


/-! Rounding: values worked out by hand from R75 to R84. -/

theorem wit_rounding : fmtF32 ∈ [fmtF32, fmtBf16, fmtFp16, fmtE5m2, fmtE4m3] ∧ fmtE4m3.hasInf = false ∧ fmtF32.hasInf = true ∧
    fmtF32.decode 0x3F800000 = .fin false 0x800000 (-23) ∧ fmtF32.decode 0x7FC00000 = .nan ∧ fmtF32.decode 0xFF800000 = .inf true ∧
    Tag.isFloat .f32 = true ∧ Tag.isInt .i8 = true ∧ numOf (.fin false 1 1) = 2 ∧ numOf (.fin true 1 1) + numOf (.fin false 2 0) = 0 := by
  refine ⟨by decide, by decide, by decide, by decide +kernel, by decide +kernel, by decide +kernel, by decide, by decide, ?_, ?_⟩ <;>
    norm_num [numOf, pow2]
theorem test_round_even : roundX fmtBf16 .rne (.fin false 0x101 (-8)) = (0x3F80, 1) ∧ roundX fmtBf16 .rup (.fin false 0x101 (-8)) = (0x3F81, 1) := by
  decide +kernel
theorem test_round_overflow : roundX fmtF32 .rtz (.fin true 1 128) = (0xFF7FFFFF, 5) ∧ roundX fmtE4m3 .rne (.fin false 1 9) = (0x7E, 5) := by decide +kernel

end Sys2Proof.Tests
end

section
/-! Words that run: what a word that computes, jumps or faults comes to for its thread, said once for the groups of words of
major opcodes 0x01 to 0x0C. -/

namespace Sys2Proof.Machine

open Sys2Proof.Claims

/-- A change of a thread's record that changes nothing leaves the state. -/
theorem State.modThread_id (s : State) (t : Tid) : s.modThread t id = s := by
  cases t with
  | ctl r => simp [State.modThread, State.modRow]
  | hnd h => simp [State.modThread, State.modHnd]
  | vp r e => rfl

/-- A control or handler thread that goes to an address, its record changed first, is all that changes with no step of a record under way. -/
theorem State.goTo_onlyThread {s : State} {t : Tid} {th : Thread} (w : Thread → Thread) (pc : Word) (ht : s.thread? t = some th)
    (hs : s.steppingOf t = none) :
    ((s.popIssue.modThread t w).goTo t pc).thread? t = some { w th with pc := pcExt pc } ∧
      s.OnlyThread ((s.popIssue.modThread t w).goTo t pc) t := by
  have hw : (s.popIssue.modThread t w).thread? t = some (w th) := State.thread?_modThread_self (by simpa using ht)
  have hp : (s.popIssue.modThread t w).steppingOf t = none := by
    rw [State.steppingOf_modThread, State.popIssue_steppingOf, hs]
  rw [State.goTo_plain pc hw hp]
  refine ⟨State.thread?_modThread_self hw, ?_⟩
  rw [State.modThread_modThread]
  exact State.onlyThread_modThread _ ht

/-- A word that changes its thread's record and goes to an address jumps. -/
theorem jumps_of_exec {s : State} {ahead vec : Bool} {t : Tid} {th : Thread} (h : s.Issues ahead vec t th) {i : Instr}
    {w : Thread → Thread} {pc : Word} (he : exec i s = .next ((s.popIssue.modThread t w).goTo t pc)) : Jumps i s t th w pc :=
  ⟨he, fun hs => ⟨_, he, State.goTo_onlyThread w pc h.thread hs⟩⟩

/-- A word whose body jumps. -/
theorem ctl_jumps {s : State} {ahead vec : Bool} {t : Tid} {th : Thread} (h : s.Issues ahead vec t th) {i : Instr}
    {body : Tid → Thread → State → CRes} (hi : exec i s = ctl ahead vec body s) {w : Thread → Thread} {pc : Word}
    (hb : body t th s.popIssue = .jump (s.popIssue.modThread t w) pc) : Jumps i s t th w pc := by
  refine jumps_of_exec h ?_
  rw [hi, ctl_next h, hb]; rfl

/-- A word whose body is done and changes nothing goes on at PC + 4. -/
theorem ctl_passes {s : State} {ahead vec : Bool} {t : Tid} {th : Thread} (h : s.Issues ahead vec t th) {i : Instr}
    {body : Tid → Thread → State → CRes} (hi : exec i s = ctl ahead vec body s) (hb : body t th s.popIssue = .done s.popIssue) :
    Jumps i s t th id (th.pc + 4) := by
  have ht : s.popIssue.thread? t = some th := by simpa using h.thread
  refine jumps_of_exec h ?_
  rw [State.modThread_id, hi, ctl_next h, hb, ← State.finish_eq_goTo ht]; rfl

/-- A word whose body writes x[d] and is done. -/
theorem ctl_writesReg {s : State} {ahead vec : Bool} {t : Tid} {th : Thread} (h : s.Issues ahead vec t th) {i : Instr}
    {body : Tid → Thread → State → CRes} (hi : exec i s = ctl ahead vec body s) {d : Reg} {v : Word}
    (hb : body t th s.popIssue = setD t d v s.popIssue) : WritesReg i s t th d v := by
  have he : exec i s = .next ((s.popIssue.modThread t fun q => q.setX d v).finish t) := by rw [hi, ctl_next h, hb]; rfl
  have hw : (s.popIssue.modThread t fun q => q.setX d v).thread? t = some (th.setX d v) :=
    State.thread?_modThread_self (by simpa using h.thread)
  have hj : Jumps i s t th (fun q => q.setX d v) (th.pc + 4) :=
    jumps_of_exec h (by rw [he, State.finish_eq_goTo hw, Thread.setX_pc])
  exact ⟨he, hj.2⟩

/-- A register-register word writes the value of its function. -/
theorem alu_writesReg {s : State} {t : Tid} {th : Thread} (h : s.Issues true false t th) {i : Instr} {f : Word → Word → Word} {d a b : Reg}
    (hi : exec i s = alu f d a b s) {v : Word} (hv : f (th.getX a) (th.getX b) = v) : WritesReg i s t th d v :=
  ctl_writesReg h hi (by rw [hv])

/-- A word of one source register writes the value of its function. -/
theorem aluI_writesReg {s : State} {t : Tid} {th : Thread} (h : s.Issues true false t th) {i : Instr} {f : Word → Word} {d a : Reg}
    (hi : exec i s = aluI f d a s) {v : Word} (hv : f (th.getX a) = v) : WritesReg i s t th d v :=
  ctl_writesReg h hi (by rw [hv])

/-- A displacement in words, as a shift and as a product. -/
theorem signExtend_shiftLeft_two {n : Nat} (x : BitVec n) : x.signExtend 64 <<< 2 = 4 * x.signExtend 64 := by
  rw [BitVec.shiftLeft_eq_mul_twoPow, BitVec.mul_comm]; rfl

/-- A branch goes to its target where its test holds, and on where it does not. -/
theorem branch_jumps {s : State} {t : Tid} {th : Thread} (h : s.Issues true false t th) {i : Instr} {p : Word → Word → Bool} {a b : Reg}
    {disp : BitVec 13} (hi : exec i s = branch p a b disp s) {taken : Bool} (hp : p (th.getX a) (th.getX b) = taken) :
    Jumps i s t th id (if taken then th.pc + 4 * disp.signExtend 64 else th.pc + 4) := by
  cases taken with
  | true => exact ctl_jumps h hi (by rw [State.modThread_id, hp, signExtend_shiftLeft_two]; rfl)
  | false => exact ctl_passes h hi (by rw [hp]; rfl)

/-! Words of reserved codes. -/

/-- A word of major opcodes 0x01 to 0x0D may stand in any control stream (R103). -/
theorem placeFault_scalar {pl : Place} {w : Nat} (hp : scalarPlace pl) (h1 : 1 ≤ bits w 26 6) (h2 : bits w 26 6 ≤ 0x0D) :
    placeFault pl w = none := by
  have ha : opAllocated (bits w 26 6) = true := by simp [opAllocated]; omega
  have hs : standsAt [.control, .matrix, .handler] pl = none := by
    rcases hp with rfl | rfl | rfl <;> rfl
  unfold placeFault streamFault
  dsimp only
  rw [if_neg (by simp [ha]), if_neg (by omega), if_neg (by omega), if_neg (by omega), if_pos h2, hs]

/-- A scalar word that the decoder does not read is ILLOP (R104). -/
theorem decodeAt_scalar_illop {pl : Place} {w : Nat} (hp : scalarPlace pl) (h1 : 1 ≤ bits w 26 6) (h2 : bits w 26 6 ≤ 0x0D)
    (hd : decodeWord w = none) : decodeAt pl w = .error .illop := by
  unfold decodeAt
  rw [placeFault_scalar hp h1 h2, hd]

end Sys2Proof.Machine
end

section
/-! Branches and jumps (R119, R120). -/

namespace Sys2Proof.Machine

open Sys2Proof.Claims

/-- A word of major opcode 0x0A whose cond is 6 or 7 is reserved. -/
theorem decodeOp0A_reserved {w : Nat} (h : 6 ≤ bits w 13 3) : decodeOp0A w = none := by
  unfold decodeOp0A
  split <;> simp_all

/-- The low two bits of a target are its remainder by 4. -/
theorem extractLsb'_two_eq_zero (x : Word) : x.extractLsb' 0 2 = 0 ↔ x.toNat % 4 = 0 := by
  rw [← BitVec.toNat_inj, BitVec.extractLsb'_toNat]; rfl

/-- The test of a branch where less-than fails, signed. -/
theorem decide_toInt_le (x y : Word) : decide (y.toInt ≤ x.toInt) = !x.slt y := by
  rw [BitVec.slt_eq_decide, ← decide_not]; simp only [Int.not_lt]

/-- The test of a branch where less-than fails, unsigned. -/
theorem decide_toNat_le (x y : Word) : decide (y.toNat ≤ x.toNat) = !x.ult y := by
  rw [BitVec.ult_eq_decide, ← decide_not]; simp only [Nat.not_lt]

/-- Each branch tests as its rule says (R119). -/
theorem branchTest_jumps {s : State} {t : Tid} {th : Thread} (h : s.Issues true false t th) {i : Instr} {taken : Bool} {disp : BitVec 13}
    (hi : branchTest th i = some (taken, disp)) : Jumps i s t th id (if taken then th.pc + 4 * disp.signExtend 64 else th.pc + 4) := by
  cases i <;> simp only [branchTest, Option.some.injEq, Prod.mk.injEq, reduceCtorEq] at hi
  all_goals obtain ⟨rfl, rfl⟩ := hi
  case beq a b disp => exact branch_jumps h (exec_beq a b disp s) (beq_eq_decide _ _)
  case bne a b disp => exact branch_jumps h (exec_bne a b disp s) (by simp [bne, beq_eq_decide])
  case bltS a b disp => exact branch_jumps h (exec_bltS a b disp s) BitVec.slt_eq_decide.symm
  case bgeS a b disp => exact branch_jumps h (exec_bgeS a b disp s) (decide_toInt_le _ _)
  case bltN a b disp => exact branch_jumps h (exec_bltN a b disp s) BitVec.ult_eq_decide.symm
  case bgeN a b disp => exact branch_jumps h (exec_bgeN a b disp s) (decide_toNat_le _ _)

/-- `jal` writes the link and goes to its target (R120). -/
theorem jal_jumps {s : State} {t : Tid} {th : Thread} (h : s.Issues true false t th) (d : Reg) (disp : BitVec 21) :
    Jumps (.jal d disp) s t th (fun q => q.setX d (th.pc + 4)) (th.pc + 4 * disp.signExtend 64) :=
  ctl_jumps h (exec_jal d disp s) (by rw [signExtend_shiftLeft_two])

/-- What `jalr` does to its thread, by its target (R120). -/
theorem jalr_results {s : State} {t : Tid} {th : Thread} (h : s.Issues true false t th) (d a : Reg) (imm : BitVec 16) :
    let target := th.getX a + imm.signExtend 64
    (target.extractLsb' 0 2 = 0 → canonical target.toNat = true → Jumps (.jalr d a imm) s t th (fun q => q.setX d (th.pc + 4)) target) ∧
    (s.blocksLive t = false → target.extractLsb' 0 2 ≠ 0 →
      exec (.jalr d a imm) s = .next (s.popIssue.raise t (th.flt .misalign target.toNat))) ∧
    (s.blocksLive t = false → target.extractLsb' 0 2 = 0 → canonical target.toNat = false →
      exec (.jalr d a imm) s = .next (s.popIssue.raise t (th.flt .pageflt target.toNat))) := by
  intro target
  rw [Ne, extractLsb'_two_eq_zero]
  refine ⟨fun h4 hc => ctl_jumps h (exec_jalr d a imm s) ?_, fun hb h4 => ?_, fun hb h4 hc => ?_⟩
  · dsimp only
    rw [if_neg (not_not.2 h4), hc]; rfl
  · exact (exec_jalr d a imm s).trans (ctl_fault h hb (if_pos h4))
  · refine (exec_jalr d a imm s).trans (ctl_fault h hb ?_)
    dsimp only
    rw [if_neg (not_not.2 h4), hc]; rfl

/-- Settles O2: every branch and jump of R119 and R120 is its body run for the thread at the head of the issue list. -/
theorem controlTransferResults : Obligations.ControlTransferResults := by
  unfold Obligations.ControlTransferResults
  refine ⟨⟨fun s t th i taken disp h hi => branchTest_jumps h hi, fun pl w hp ho hc => ?_⟩,
    fun s t th d a h => ⟨jal_jumps h d, jalr_results h d a⟩⟩
  exact decodeAt_scalar_illop hp (by omega) (by omega) ((Laws.decodeWord_0A ho).trans (decodeOp0A_reserved hc))

end Sys2Proof.Machine
end

section
/-! The values of the scalar words: each function of the model is the operation the rule names (R115 to R118). -/

namespace Sys2Proof.Machine

open Sys2Proof.Claims

/-- The shift amount is the low six bits. -/
theorem shamt_eq_extract (b : Word) : shamt b = (b.extractLsb' 0 6).toNat := by
  rw [BitVec.extractLsb'_toNat]; rfl

/-! Products. -/

/-- The low dword of the exact product. -/
theorem wordOf_mulS (a b : Word) : wordOf (mulS a b) = a * b := by
  rw [wordOf, mulS, BitVec.ofInt_mul, BitVec.ofInt_toInt, BitVec.ofInt_toInt]

/-- The exact signed product fits in 128 bits. -/
theorem toInt_signExtend_mul (a b : Word) : (a.signExtend 128 * b.signExtend 128).toInt = mulS a b := by
  have ha := BitVec.toInt_signExtend_of_le (x := a) (v := 128) (by omega)
  have hb := BitVec.toInt_signExtend_of_le (x := b) (v := 128) (by omega)
  rw [BitVec.toInt_mul, ha, hb, mulS]
  have bound : (a.toInt * b.toInt).natAbs ≤ 2 ^ 63 * 2 ^ 63 := by
    rw [Int.natAbs_mul]
    have h1 := BitVec.le_toInt a
    have h2 := BitVec.toInt_lt (x := a)
    have h3 := BitVec.le_toInt b
    have h4 := BitVec.toInt_lt (x := b)
    exact Nat.mul_le_mul (by omega) (by omega)
  exact Int.bmod_eq_of_le (by omega) (by omega)

/-- The high dword of a 128-bit value, as the quotient of its signed value. -/
theorem wordOf_toInt_div (x : BitVec 128) : wordOf (x.toInt / 2 ^ 64) = x.extractLsb' 64 64 := by
  apply BitVec.eq_of_toNat_eq
  rw [wordOf, BitVec.toNat_ofInt, BitVec.extractLsb'_toNat, Nat.shiftRight_eq_div_pow, BitVec.toInt_eq_toNat_cond]
  have := x.isLt
  split <;> omega

/-- The high dword of the signed product. -/
theorem wordOf_mulS_div (a b : Word) :
    wordOf (mulS a b / 2 ^ 64) = (a.signExtend 128 * b.signExtend 128).extractLsb' 64 64 := by
  rw [← toInt_signExtend_mul, wordOf_toInt_div]

/-- The high dword of the unsigned product. -/
theorem ofNat_mul_div (a b : Word) :
    BitVec.ofNat 64 (a.toNat * b.toNat / 2 ^ 64) = (a.zeroExtend 128 * b.zeroExtend 128).extractLsb' 64 64 := by
  have bound : a.toNat * b.toNat < 2 ^ 64 * 2 ^ 64 := Nat.mul_lt_mul'' a.isLt b.isLt
  apply BitVec.eq_of_toNat_eq
  rw [BitVec.toNat_ofNat, BitVec.extractLsb'_toNat, BitVec.toNat_mul, Nat.shiftRight_eq_div_pow]
  simp only [BitVec.truncate_eq_setWidth, BitVec.toNat_setWidth]
  rw [Nat.mod_eq_of_lt (b := 2 ^ 128) (a := a.toNat) (by omega), Nat.mod_eq_of_lt (b := 2 ^ 128) (a := b.toNat) (by omega),
    Nat.mod_eq_of_lt (b := 2 ^ 128) (by omega)]

/-! Quotients and remainders. -/

/-- The quotient of magnitudes, negated where the signs differ, is the quotient truncated toward 0. -/
theorem signed_quotient_eq_tdiv (x y : Int) :
    (if (x < 0) ≠ (y < 0) then -((x.natAbs / y.natAbs : Nat) : Int) else ((x.natAbs / y.natAbs : Nat) : Int)) = x.tdiv y := by
  cases x with
  | ofNat m =>
    cases y with
    | ofNat n => simp [Int.tdiv, Int.not_lt.2]
    | negSucc n => simp [Int.tdiv, Int.negSucc_lt_zero]
  | negSucc m =>
    cases y with
    | ofNat n => simp [Int.tdiv, Int.negSucc_lt_zero]
    | negSucc n => simp [Int.tdiv, Int.negSucc_lt_zero]

/-- The quotient of R116, by a divisor that is not 0, is the truncated one; where it does not fit it wraps. -/
theorem wordOf_divRemS_fst (a b : Word) : wordOf (divRemS a b).1 = if b = 0 then -1 else a.sdiv b := by
  by_cases hb : b = 0
  · simp only [divRemS, if_pos hb]; rfl
  · rw [if_neg hb, divRemS, if_neg hb]
    apply BitVec.eq_of_toInt_eq
    rw [wordOf, BitVec.toInt_ofInt, BitVec.toInt_sdiv]
    split
    · next h => rw [h.1, h.2]; rfl
    · rw [← signed_quotient_eq_tdiv]

/-- The remainder of R116 is that of the truncated quotient, and fits in a dword. -/
theorem divRemS_snd (a b : Word) : (divRemS a b).2 = a.toInt.tmod b.toInt := by
  by_cases hb : b = 0
  · simp [divRemS, hb]
  · rw [divRemS, if_neg hb]
    split
    · next h => rw [h.1, h.2]; rfl
    · dsimp only
      rw [signed_quotient_eq_tdiv, Int.tmod_def, mul_comm]

/-- The signed remainder of R116. -/
theorem wordOf_divRemS_snd (a b : Word) : wordOf (divRemS a b).2 = a.srem b := by
  rw [wordOf, divRemS_snd, ← BitVec.toInt_srem, BitVec.ofInt_toInt]

/-- The unsigned quotient of R116. -/
theorem ofNat_divRemN_fst (a b : Word) : BitVec.ofNat 64 (divRemN a b).1 = if b = 0 then -1 else a / b := by
  by_cases hb : b = 0
  · simp only [divRemN, if_pos hb]; rfl
  · rw [if_neg hb, divRemN, if_neg hb, BitVec.udiv_def]

/-- The unsigned remainder of R116. -/
theorem ofNat_divRemN_snd (a b : Word) : BitVec.ofNat 64 (divRemN a b).2 = a % b := by
  by_cases hb : b = 0
  · simp [divRemN, hb]
  · rw [divRemN, if_neg hb, BitVec.umod_def]

/-! Comparisons. -/

/-- Less than, signed. -/
theorem boolWord_toInt_lt (a b : Word) : boolWord (decide (a.toInt < b.toInt)) = if a.slt b then 1 else 0 := by
  rw [← BitVec.slt_eq_decide]; rfl

/-- Less than, unsigned. -/
theorem boolWord_toNat_lt (a b : Word) : boolWord (decide (a.toNat < b.toNat)) = if a.ult b then 1 else 0 := by
  rw [← BitVec.ult_eq_decide]; rfl

/-- Dwords are told apart by their signed values. -/
theorem toInt_injective : Function.Injective (BitVec.toInt : Word → Int) := fun _ _ => BitVec.eq_of_toInt_eq

/-- A choice by an order that tells dwords apart: where the two are equal it does not matter which is taken. -/
theorem ite_le_eq_ite_lt {β : Type} [LinearOrder β] {k : Word → β} (hk : Function.Injective k) {x y a b : Word} (hab : x = y → a = b) :
    (if k x ≤ k y then a else b) = if k x < k y then a else b := by
  rcases lt_trichotomy (k x) (k y) with h | h | h
  · rw [if_pos h.le, if_pos h]
  · rw [hab (hk h), ite_self, ite_self]
  · rw [if_neg h.not_ge, if_neg h.not_gt]

/-! Counts of bits. -/

/-- The bits of a dword from the bottom are those of its number. -/
theorem getLsbD_eq_testBit (x : Word) : x.getLsbD = x.toNat.testBit := rfl

/-- The length of the run of a range on which a predicate holds. -/
theorem length_takeWhile_range {p : Nat → Bool} {n k : Nat} (hk : k ≤ n) (hp : ∀ i < k, p i = true) (hn : k < n → p k = false) :
    ((List.range n).takeWhile p).length = k := by
  obtain ⟨m, rfl⟩ := Nat.exists_eq_add_of_le hk
  rw [List.range_add, List.takeWhile_append_of_pos (by simpa using hp), List.length_append, List.length_range]
  cases m with
  | zero => simp
  | succ m => simp [List.range_succ_eq_map, hn (by omega)]

/-- Leading zeros, as the model counts them, are the zeros from the top. -/
theorem clzN_eq_length (x : Word) : clzN 64 x.toNat = ((List.range 64).takeWhile fun i => !x.getMsbD i).length := by
  have hx := x.isLt
  rw [clzN, Nat.mod_eq_of_lt hx]
  split
  · next h0 =>
    have hz : x = 0 := BitVec.eq_of_toNat_eq h0
    exact (length_takeWhile_range le_rfl (by simp [hz]) (by omega)).symm
  · next h0 =>
    have htop : x.toNat.log2 < 64 := (Nat.log2_lt h0).2 hx
    refine (length_takeWhile_range (by omega) (fun i hi => ?_) (fun hk => ?_)).symm
    · have hzero : x.toNat.testBit (64 - 1 - i) = false :=
        Nat.testBit_lt_two_pow (Nat.lt_of_lt_of_le Nat.lt_log2_self (Nat.pow_le_pow_right (by omega) (by omega)))
      rw [BitVec.getMsbD_eq_getLsbD, getLsbD_eq_testBit, hzero, Bool.and_false]; rfl
    · have hlast : 64 - 1 - (64 - 1 - x.toNat.log2) = x.toNat.log2 := by omega
      rw [BitVec.getMsbD_eq_getLsbD, getLsbD_eq_testBit, hlast, Nat.testBit_log2 h0, decide_eq_true hk]; rfl

/-- Trailing zeros, as the model counts them, are the zeros from the bottom. -/
theorem ctzN_eq_length (t v : Nat) : ctzN t v = ((List.range t).takeWhile fun i => !v.testBit i).length := by
  induction t generalizing v with
  | zero => rfl
  | succ t ih =>
    rw [List.range_succ_eq_map, List.takeWhile_cons, Nat.testBit_zero, ctzN]
    by_cases h : v % 2 = 1
    · simp [h]
    · simp [h, ih, List.takeWhile_map, Function.comp_def, Nat.testBit_succ, Nat.add_comm]

/-- One bits, as the model counts them, are the ones of all places. -/
theorem popN_eq_length (t v : Nat) : popN t v = ((List.range t).filter fun i => v.testBit i).length := by
  induction t generalizing v with
  | zero => rfl
  | succ t ih =>
    rw [List.range_succ_eq_map, List.filter_cons, Nat.testBit_zero, popN]
    have h2 : v % 2 = 0 ∨ v % 2 = 1 := by omega
    rcases h2 with h | h
    · simp [h, ih, List.filter_map, Function.comp_def, Nat.testBit_succ]
    · simp [h, ih, List.filter_map, Function.comp_def, Nat.testBit_succ, Nat.add_comm]

/-! Bytes. -/

/-- A byte put below a value. -/
theorem toNat_append_byte {n : Nat} (x : BitVec n) (b : Byte) : (x ++ b).toNat = b.toNat + 256 * x.toNat := by
  rw [BitVec.toNat_append, ← Nat.shiftLeft_add_eq_or_of_lt b.isLt, Nat.shiftLeft_eq]; omega

/-- The bytes of a dword, least significant first. -/
theorem leBytes_toNat (x : Word) :
    leBytes 8 x.toNat = [x.extractLsb' 0 8, x.extractLsb' 8 8, x.extractLsb' 16 8, x.extractLsb' 24 8, x.extractLsb' 32 8,
      x.extractLsb' 40 8, x.extractLsb' 48 8, x.extractLsb' 56 8] := by
  simp only [leBytes, BitVec.extractLsb', Nat.div_div_eq_div_mul, Nat.shiftRight_eq_div_pow, pow_zero, Nat.div_one]

/-- The bytes of a dword in reverse order, as the rule writes them. -/
theorem bswapWord_eq_append (x : Word) :
    bswapWord x = x.extractLsb' 0 8 ++ x.extractLsb' 8 8 ++ x.extractLsb' 16 8 ++ x.extractLsb' 24 8 ++ x.extractLsb' 32 8 ++
      x.extractLsb' 40 8 ++ x.extractLsb' 48 8 ++ x.extractLsb' 56 8 := by
  have reversed : leNat (leBytes 8 x.toNat).reverse = (x.extractLsb' 0 8 ++ x.extractLsb' 8 8 ++ x.extractLsb' 16 8 ++
      x.extractLsb' 24 8 ++ x.extractLsb' 32 8 ++ x.extractLsb' 40 8 ++ x.extractLsb' 48 8 ++ x.extractLsb' 56 8).toNat := by
    rw [leBytes_toNat]
    simp only [toNat_append_byte, leNat, List.reverse_cons, List.reverse_nil, List.nil_append, List.cons_append, Nat.mul_zero, Nat.add_zero]
  rw [bswapWord, reversed, BitVec.ofNat_toNat]
  exact BitVec.setWidth_eq _

end Sys2Proof.Machine
end

section
/-! The scalar integer, shift, upper and immediate words (R115 to R118). -/

namespace Sys2Proof.Machine

open Sys2Proof.Claims

section

variable {s : State} {t : Tid} {th : Thread} {i : Instr} {d : Reg} {v : Word}

/-- Each register-register word gives its rule's result (R115, R116). -/
theorem regReg_writesReg (h : s.Issues true false t th) (hi : regReg th i = some (d, v)) : WritesReg i s t th d v := by
  cases i <;> simp only [regReg, Option.some.injEq, Prod.mk.injEq, reduceCtorEq] at hi
  all_goals obtain ⟨rfl, rfl⟩ := hi
  case add d a b => exact alu_writesReg h (exec_add d a b s) rfl
  case sub d a b => exact alu_writesReg h (exec_sub d a b s) rfl
  case and d a b => exact alu_writesReg h (exec_and d a b s) rfl
  case or d a b => exact alu_writesReg h (exec_or d a b s) rfl
  case xor d a b => exact alu_writesReg h (exec_xor d a b s) rfl
  case sll d a b => exact alu_writesReg h (exec_sll d a b s) (by rw [shamt_eq_extract])
  case srl d a b => exact alu_writesReg h (exec_srl d a b s) (by rw [shamt_eq_extract])
  case sra d a b => exact alu_writesReg h (exec_sra d a b s) (by rw [shamt_eq_extract])
  case mul d a b => exact alu_writesReg h (exec_mul d a b s) (wordOf_mulS _ _)
  case mulhS d a b => exact alu_writesReg h (exec_mulhS d a b s) (wordOf_mulS_div _ _)
  case mulhN d a b => exact alu_writesReg h (exec_mulhN d a b s) (ofNat_mul_div _ _)
  case divS d a b => exact alu_writesReg h (exec_divS d a b s) (wordOf_divRemS_fst _ _)
  case divN d a b => exact alu_writesReg h (exec_divN d a b s) (ofNat_divRemN_fst _ _)
  case remS d a b => exact alu_writesReg h (exec_remS d a b s) (wordOf_divRemS_snd _ _)
  case remN d a b => exact alu_writesReg h (exec_remN d a b s) (ofNat_divRemN_snd _ _)
  case sltS d a b => exact alu_writesReg h (exec_sltS d a b s) (boolWord_toInt_lt _ _)
  case sltN d a b => exact alu_writesReg h (exec_sltN d a b s) (boolWord_toNat_lt _ _)
  case minS d a b =>
    exact alu_writesReg h (exec_minS d a b s) (by simp only [BitVec.slt_iff_toInt_lt]; exact ite_le_eq_ite_lt toInt_injective id)
  case minN d a b =>
    exact alu_writesReg h (exec_minN d a b s) (by simp only [BitVec.ult_iff_toNat_lt]; exact ite_le_eq_ite_lt BitVec.toNat_injective id)
  case maxS d a b =>
    exact alu_writesReg h (exec_maxS d a b s) (by simp only [BitVec.slt_iff_toInt_lt]; exact ite_le_eq_ite_lt toInt_injective Eq.symm)
  case maxN d a b =>
    exact alu_writesReg h (exec_maxN d a b s) (by simp only [BitVec.ult_iff_toNat_lt]; exact ite_le_eq_ite_lt BitVec.toNat_injective Eq.symm)

/-- Each unary word gives its rule's result (R115). -/
theorem regUnary_writesReg (h : s.Issues true false t th) (hi : regUnary th i = some (d, v)) : WritesReg i s t th d v := by
  cases i <;> simp only [regUnary, Option.some.injEq, Prod.mk.injEq, reduceCtorEq] at hi
  all_goals obtain ⟨rfl, rfl⟩ := hi
  case clz d a => exact aluI_writesReg h (exec_clz d a s) (by rw [clzN_eq_length])
  case ctz d a => exact aluI_writesReg h (exec_ctz d a s) (by rw [ctzN_eq_length, getLsbD_eq_testBit])
  case pop d a => exact aluI_writesReg h (exec_pop d a s) (by rw [popN_eq_length, getLsbD_eq_testBit])
  case bswap d a => exact aluI_writesReg h (exec_bswap d a s) (bswapWord_eq_append _)

/-- Each word of the immediate group gives its rule's result (R117, R118). -/
theorem regImm_writesReg (h : s.Issues true false t th) (hi : regImm th i = some (d, v)) : WritesReg i s t th d v := by
  cases i <;> simp only [regImm, Option.some.injEq, Prod.mk.injEq, reduceCtorEq] at hi
  all_goals obtain ⟨rfl, rfl⟩ := hi
  case addi d a n => exact aluI_writesReg h (exec_addi d a n s) rfl
  case andi d a n => exact aluI_writesReg h (exec_andi d a n s) rfl
  case ori d a n => exact aluI_writesReg h (exec_ori d a n s) rfl
  case xori d a n => exact aluI_writesReg h (exec_xori d a n s) rfl
  case sltiS d a n =>
    have hn : (n.signExtend 64).toInt = n.toInt := BitVec.toInt_signExtend_of_le (by omega)
    exact aluI_writesReg h (exec_sltiS d a n s) (by rw [← hn, boolWord_toInt_lt])
  case slli d a n => exact aluI_writesReg h (exec_slli d a n s) rfl
  case srli d a n => exact aluI_writesReg h (exec_srli d a n s) rfl
  case srai d a n => exact aluI_writesReg h (exec_srai d a n s) rfl
  case lui d n => exact ctl_writesReg h (exec_lui d n s) rfl
  case addpc d n => exact ctl_writesReg h (exec_addpc d n s) (by rw [signExtend_shiftLeft_two])

end

/-- A unary word of major opcode 0x01 with its b field not 0 is reserved. -/
theorem decodeOp01_reserved {w : Nat} (h1 : 21 ≤ bits w 0 6) (hb : bits w 11 5 ≠ 0) : decodeOp01 w = none := by
  have hf : bits w 0 6 = bits w 0 11 % 64 := by simp only [bits]; omega
  unfold decodeOp01
  split <;> simp_all

/-- A shift word of major opcode 0x07 with shift code 3, or its fixed bits not 0, is reserved. -/
theorem decodeOp07_reserved {w : Nat} (h : bits w 6 2 = 3 ∨ bits w 8 8 ≠ 0) : decodeOp07 w = none := by
  unfold decodeOp07
  split <;> simp_all

/-- Settles O1: each word is its function run for the thread at the head of the issue list, and each function is the rule's operation. -/
theorem scalarWordResults : Obligations.ScalarWordResults := by
  unfold Obligations.ScalarWordResults
  refine ⟨fun s t th i d v => regReg_writesReg, ⟨fun s t th i d v => regUnary_writesReg, fun pl w hp ho h1 _ hb => ?_⟩,
    fun s t th i d v => regImm_writesReg, fun pl w hp ho hc => ?_⟩
  · exact decodeAt_scalar_illop hp (by omega) (by omega) ((Laws.decodeWord_01 ho).trans (decodeOp01_reserved h1 hb))
  · exact decodeAt_scalar_illop hp (by omega) (by omega) ((Laws.decodeWord_07 ho).trans (decodeOp07_reserved hc))

end Sys2Proof.Machine
end

section
/-! Closing a strip, and `vcommit` (R35, R44, R131, R136, R237). -/

namespace Sys2Proof.Machine

open Sys2Proof.Claims

/-- Committing the store buffer leaves the slices. -/
@[simp] theorem State.commitBuf_slices (s : State) (row : Nat) : (s.commitBuf row).slices = s.slices := by
  unfold State.commitBuf
  split
  · rfl
  · split <;> rfl

/-- With no buffered store a commit does nothing. -/
theorem State.commitBuf_empty {s : State} {r : Row} (h : s.row? r.id = some r) (hb : r.buf = []) : s.commitBuf r.id = s := by
  unfold State.commitBuf
  rw [h]; dsimp only
  rw [hb]; rfl

/-- The buffered stores of a row leave as one write, in program order (R237). -/
theorem State.commitBuf_writes {s : State} {r : Row} (h : s.row? r.id = some r) (hb : r.buf ≠ []) :
    ∃ w, (s.commitBuf r.id).mem.writes = s.mem.writes ++ [w] ∧ w.items = r.buf ∧ w.thread = .ctl r.id ∧ w.cluster = r.cluster := by
  unfold State.commitBuf
  rw [h]; dsimp only
  rw [if_neg (by simpa using hb)]
  exact ⟨_, rfl, rfl, rfl, rfl⟩

/-- Closing a strip is a commit, for the memory. -/
theorem State.closeStrip_mem (s : State) (row : Nat) : (s.closeStrip row).mem = (s.commitBuf row).mem := by
  unfold State.closeStrip
  dsimp only
  split <;> rfl

/-- The slices of a row whose strip is closed: STRIP.OPEN is 0 and the rest as it was. -/
theorem State.closeStrip_slice {s : State} {r : Row} (h : s.row? r.id = some r) :
    (s.closeStrip r.id).slice r = { s.slice r with strip := { (s.slice r).strip with opn := false } } := by
  obtain ⟨q, hq, -, -, -, -, hcluster, hctx, -⟩ := State.commitBuf_row h
  unfold State.closeStrip
  dsimp only
  rw [State.row?_modRow_self hq]
  · refine (State.slice_modSlice_ctx _ _ _ _ ?_ ?_).trans ?_
    · exact hcluster
    · exact hctx
    · simp [State.slice]
  · exact fun _ => rfl

/-- A row's word that closes the strip first, where nothing holds the close back. -/
theorem State.closing_of_canClose {s : State} {r : Row} (h : canClose s r) (k : State → CRes) : s.closing r k = k (stripClosed s r) := by
  obtain ⟨hbusy, hpre⟩ := h
  unfold State.closing stripClosed
  rw [hbusy]
  by_cases ho : (s.slice r).strip.opn = true
  · simp [ho, hpre ho]
  · simp [ho]

/-- A word that closes the strip first waits while an operation of the strip is outstanding. -/
theorem State.closing_of_busy {s : State} {r : Row} (h : s.stripBusy r = true) (k : State → CRes) : s.closing r k = .stall s := by
  unfold State.closing
  rw [h]; rfl

/-- `vcommit` with a VP in thread mode (R44). -/
theorem vcommit_threadlive {s : State} {r : Row} (h : s.RowIssues false true r) (hl : r.threadLive = true) :
    Raises .vcommit s (.ctl r.id) r.th.pc .threadlive :=
  (exec_vcommit s).trans (ctlRow_fault h (State.blocksLive_of_free h.free) (if_pos hl))

/-- `vcommit` with an operation of the strip outstanding (R131). -/
theorem vcommit_waits {s : State} {r : Row} (h : s.RowIssues false true r) (hl : r.threadLive = false) (hb : s.stripBusy r = true)
    (hs : r.stepping = none) : Retries .vcommit s := by
  have hp : s.popIssue.steppingOf (.ctl r.id) = none := by rw [State.popIssue_steppingOf, State.steppingOf_row h.row, hs]
  refine (exec_vcommit s).trans (ctlRow_stall h hp ?_)
  rw [if_neg (by simp [hl])]
  exact State.closing_of_busy (s := s.popIssue) hb _

/-- `vcommit` closes the strip and goes on (R136). -/
theorem vcommit_closes {s : State} {r : Row} (h : s.RowIssues false true r) (hl : r.threadLive = false) (hc : canClose s r) :
    exec .vcommit s = .next ((stripClosed s.popIssue r).finish (.ctl r.id)) := by
  refine (exec_vcommit s).trans (ctlRow_done h ?_)
  rw [if_neg (by simp [hl])]
  exact State.closing_of_canClose (s := s.popIssue) hc _

/-- Settles O11: a close is the commit of the buffer, the end of the rind and STRIP.OPEN := 0; `vcommit` is that close and nothing more. -/
theorem stripCloseResults : Obligations.StripCloseResults := by
  unfold Obligations.StripCloseResults
  refine ⟨fun s r h => ?_, fun s r h => ⟨vcommit_threadlive h, vcommit_waits h, vcommit_closes h⟩⟩
  obtain ⟨q, hq, hrind, hbuf, hth, hvps, -, -⟩ := State.closeStrip_row h
  dsimp only
  rw [State.closeStrip_slice h, State.closeStrip_mem]
  refine ⟨rfl, rfl, ⟨q, hq, hrind, hbuf, hth, hvps⟩, fun hb => ?_, State.commitBuf_writes h, fun k => ?_⟩
  · rw [State.commitBuf_empty h hb]
  · rw [State.byte, State.closeStrip_cells, State.byte]

end Sys2Proof.Machine
end

section
/-! The appends of `qseed` (R142), where elements are held at the end of a block (R41) and so may still fault (R37). -/

namespace Sys2Proof.Machine

open Sys2Proof.Claims

/-- A fault that ran ahead of a block is not taken while the block may still fault (R37). -/
theorem State.conclude_fault_of_blocksLive {s u : State} {t : Tid} (h : s.blocksLive t = true) (fi : FInfo) :
    s.conclude t (.fault u fi) = s := if_pos h

/-- A row with held elements may still fault, whatever blocks it lists. -/
theorem State.blocksLive_of_held {s : State} {r : Row} (h : s.row? r.id = some r) (hh : r.held.isSome = true) :
    s.blocksLive (.ctl r.id) = true := by
  simp [State.blocksLive, h, Row.blocksLive, hh]

/-- A `qseed` on a full seed queue, with no block listed but elements held, executes again: its QOVER waits with the held elements. -/
theorem qseed_retries_of_held {s : State} {r : Row} (h : s.RowIssues true false r) (a : Reg) (hfull : 4 ≤ r.seeds) (hb : r.blocks = [])
    (hh : r.held.isSome = true) : Retries (.qseed a) s := by
  have hlive : s.popIssue.blocksLive (.ctl r.id) = true := State.blocksLive_of_held h.row hh
  unfold Retries
  rw [exec_qseed, execQseed, ctlRow_next h, if_pos hfull, hb]
  exact congrArg Host.Outcome.next (State.conclude_fault_of_blocksLive hlive _)

/-- A row with four entries in its seed queue, no block listed, and one element held. -/
def heldRow : Row :=
  let r := probeRow State.reset 0
  { r with seedQ := List.replicate 4 { v := 0, tag := .i64 }
           held := some { elems := [0], target := 0, since := 0, run := newRun State.reset r r.th 0 probeHeader [0] false } }

/-- The device about to issue a word of that row's control thread. -/
def heldState : State := { State.reset with rows := [heldRow], clock := { State.reset.clock with issue := [.ctl heldRow.id] } }

/-- Nothing holds the control thread of the row with the held element. -/
theorem heldState_issues : heldState.RowIssues true false heldRow := ⟨by decide, by rfl, by decide, by decide⟩

/-- An exception of the row's control thread files a record, so the state it leaves is another one. -/
theorem heldState_raise_ne :
    heldState.popIssue.raise (.ctl heldRow.id) { code := .qover, pc := heldRow.th.pc, addr1 := 0 } ≠ heldState.popIssue := by
  intro h
  exact absurd (congrArg (fun s => s.cave.next) h) (by decide)

/-- Refutes O14: its QOVER clause asks only that the row lists no block, and speaks of every state, also of one whose row holds elements of a
`tf` all the same. Their fault would go before that of `qseed` (R37), so the model keeps the QOVER back and the word executes again. That held
elements always have their block listed is an invariant the clause does not assume. -/
theorem not_waitAndQueueWordResults : ¬ Obligations.WaitAndQueueWordResults := by
  unfold Obligations.WaitAndQueueWordResults
  rintro ⟨-, hqseed, -, -⟩
  have hraises : Raises (.qseed 1) heldState (.ctl heldRow.id) heldRow.th.pc .qover :=
    (hqseed heldState heldRow 1 heldState_issues).1 (by decide) rfl
  have hretries : Retries (.qseed 1) heldState := qseed_retries_of_held heldState_issues 1 (by decide) rfl rfl
  exact heldState_raise_ne (Host.Outcome.next.inj (hraises.symm.trans hretries))

end Sys2Proof.Machine
end
